-- ==== Sys2Proof/Word.lean ====
section
/-! DEFINITION. The plain value types of the model: bytes, register words and the sparse table every array of the
device is held in. -/

namespace Sys2Proof

/-- One byte. -/
abbrev Byte := BitVec 8

/-- A 32-bit register or memory word. -/
abbrev W32 := BitVec 32

/-- A 64-bit register or memory word. -/
abbrev W64 := BitVec 64

/-- A byte string: a buffer's content, a key, a ciphertext, a block (R6: in the order its standard or the device gives it). -/
abbrev Bytes := List Byte

/-- A sparse table: what is listed differs from the table's default value, and the keys rise strictly. Every array of the
device (rings, key directories, memories, register files) is one, so that equal contents are equal data. -/
abbrev Tbl (α : Type) := List (Nat × α)

end Sys2Proof
end

