-- ==== Sys2Proof/Syntax.lean ====
section
/-! DEFINITION. The commands the device takes: one constructor of `Instr` per row of spec/opcode_table.json. The table gives
the rows no operands; the operands here are what the rule of the row reads from outside the device (an address and a value
written, the bytes a host read returned, a sample of a sensor, a reply of a cartridge) and the identity of the thing the
command acts on (a job, a ring, a unit, a core). -/

namespace Sys2Proof

/-- How a read of host memory completes (Table 3.7): with its data, or with one of the host's errors. -/
inductive ReadOutcome where
  | ok | error | poison | short | translation | timeout
deriving DecidableEq, Repr

/-- How a write of host memory ends (Table 3.7): acknowledged, refused with an error, or without an address translation. -/
inductive WriteOutcome where
  | ok | error | translation
deriving DecidableEq, Repr

/-- Which of a job's buffers a read is for (R69). -/
inductive BufKind where
  | input | auxiliary
deriving DecidableEq, Repr

/-- The two parts of an admission: S3 tags and deals a job, after which S4 may run ahead (R241), and S3 completes every check. -/
inductive AdmitPhase where
  | tag | decide
deriving DecidableEq, Repr

/-- Where an access of the host goes (R477, R478, R37): BAR0 of a function, BAR2 of the PF, or the PF's configuration space. -/
inductive Bar where
  | bar0 | bar2 | config
deriving DecidableEq, Repr

/-- A spool port (R283). -/
inductive Port where
  | a | b
deriving DecidableEq, Repr

/-- The tag of a Crixa word (Table 13.3). -/
inductive Tag where
  | int | ptr | href | kref | sec | code | vdesc | poison
deriving DecidableEq, Repr

/-- Who writes a register (R10), in the order of precedence. -/
inductive RegWriter where
  | trusted | manager | strand
deriving DecidableEq, Repr

/-- What else happens to a register in the cycle of a write: who makes the write, the other writers of that cycle with what they
write (R10), and the bits hardware sets (R9). -/
structure Cycle where
  writer : RegWriter := .manager
  rivals : List (RegWriter × W64) := []
  sets : W64 := 0
deriving DecidableEq, Repr

/-- A cycle in which nothing else happens to the register, the manager writing. -/
def Cycle.quiet : Cycle := { writer := .manager, rivals := [], sets := 0 }

/-- Who writes a register of a digest slot (R407): the manager over BAR2, or a Crixa core. -/
inductive DgeWriter where
  | manager
  | core (n : Nat)
deriving DecidableEq, Repr

/-- One detected tamper event (R436, Table 17.6): its source, which detectors saw it, and its DETAIL word. -/
structure TamperEv where
  source : Nat
  detectorA : Bool
  detectorB : Bool
  detail : W32
deriving DecidableEq, Repr

/-- What the power-up steps t1 to t7 meet (Table 2.7): the FAIL code of the step that fails by itself (0 none; the failures
that OTP alone decides are computed and not given here), the FAIL codes of earlier KINDLE failures whose cause has been removed
since (R48), the tamper sources that are active at t2 (R436), the creels (11 x frame + creel) whose readback fails at t6, and the
PCIe link that training ends with (R482: lanes, SPEED code, Flit mode). -/
structure KindleEnv where
  fail : BitVec 8
  removed : List (BitVec 8) := []
  active : List TamperEv := []
  heldCreels : List Nat
  width : Nat
  speed : Nat
  flit : Bool
deriving DecidableEq, Repr

/-- A record identifier of a spool (Table 10.4). -/
structure SpoolRec where
  recno : Nat
  owner : Nat
  kind : Nat
  version : Nat
deriving DecidableEq, Repr

/-- What probing and opening a cartridge finds (R283 to R288, R295): the outcome of the probe (2 UNPAIRED, 3 FOREIGN,
4 INVALID, 5 CLOSED; at t11 also 8, where the link or the session fails), the serial, the role record with its SW_SEQ, the commit number, the commit units used, the free space,
the count of live records, the read-only flag, the device records (the PTC_LIFE checkpoint and the BOOTS mirror), the owner, INDEX and
EPOCH that each KEY record names (R488), the owner and INDEX of each COMMIT record (R143), the owner, INDEX and CEIL of each INDEX
record (R148), and the identifiers of the live records. -/
structure SpoolReport where
  outcome : Nat
  serial : Bytes
  roleRec : Nat
  swSeq : Nat
  commitNo : Nat
  used : Nat
  freeMib : Nat
  records : Nat
  readOnly : Bool
  life : Option Nat
  boots : Option Nat
  claims : List (Nat × Nat × Nat)
  commits : List (Nat × Nat)
  indexes : List (Nat × Nat × Nat)
  live : List SpoolRec := []
deriving DecidableEq, Repr

/-- What steps t9 to t11 meet (Table 2.7): whether each DRS slot's readback mismatches (R49), what each port finds, and the t1
payload and signature with which each cartridge answers HELLO (R286). -/
structure GatherEnv where
  slot0Spoils : Bool
  slot1Spoils : Bool
  ports : List (Port × SpoolReport)
  shakes : List (Port × Bytes × Bytes) := []
deriving DecidableEq, Repr

/-- A KEY record read back from the primary spool (R292), the one that the last COMMIT record of its key names: its identifier,
the handle fields, whether its tag holds, the header entry bytes 0x00 to 0x6F, the stored form, and CEIL and BURNED of the key's
INDEX record where the spool holds one. -/
structure KeyRecord where
  id : SpoolRec
  index : Nat
  epoch : Nat
  tagOk : Bool
  header : Bytes
  form : Bytes
  indexRec : Option (Nat × Nat)
deriving DecidableEq, Repr

/-- The result code of a spool response (R293). -/
inductive SpoolResult where
  | ok | full | budget | notFound | refused
deriving DecidableEq, Repr

/-- A message of the ply link (R329): a shadow stored and verified or refused by the partner (Table 5.10 t3), the shadow of a
replacement on the partner, its flip or its end (Table 5.10 t3 and t5, R144), the blob of a saved strand (R107), the partner's
answer to a blob, and a message for trusted firmware. -/
inductive PlyMsg where
  | shadowAck (owner index : Nat) (ok : Bool)
  | shadow (owner index : Nat) (mat : Bytes)
  | flip (owner index : Nat)
  | wipeShadow (owner index : Nat)
  | strandBlob (strand : Nat) (blob : Bytes)
  | blobTaken (strand : Nat) (ok : Bool)
  | firmware (kind : Nat) (words : List W64)
deriving DecidableEq, Repr

/-- The steps of a life-cycle transition (Table 16.4). -/
inductive LcPhase where
  | token | intent | erase | state | done
deriving DecidableEq, Repr

/-- A debug path a debugger opens (R424). -/
inductive DebugPath where
  | jtag | crixaG | crixaT
deriving DecidableEq, Repr

/-- A factory test mode (R424). -/
inductive FactoryMode where
  | mbist | repair | rawSram
deriving DecidableEq, Repr

/-- What the factory OTP port programs (R422, R426). -/
inductive OtpField where
  | scheme (value : Byte)
  | token (k : Nat) (digest : Bytes)
deriving DecidableEq, Repr

/-- What a debugger does to a Crixa core (R359, R365, R424): a breakpoint is set or cleared at an address. -/
inductive DebugAction where
  | halt | step | run
  | readReg (r : BitVec 5)
  | writeReg (r : BitVec 5) (value : W64)
  | readMem (address : Nat)
  | writeMem (address : Nat) (value : W64)
  | breakpoint (address : W64) (on : Bool)
deriving DecidableEq, Repr

/-- The operand fields of a V-format instruction (Table 13.7). -/
structure VOp where
  wd : BitVec 5
  wa : BitVec 5
  wb : BitVec 5
  q : BitVec 3
  ew : BitVec 2
deriving DecidableEq, Repr

/-- The edge counts of the two oscillators of a pair over a window of 4,096 island cycles (R388). -/
structure Edges where
  a : Nat
  b : Nat
deriving DecidableEq, Repr

/-- The commands of the device, in the order of spec/opcode_table.json; six that the delay lists make stand first. An operand with a default says
what else happens in the command's cycle or arrives with it: by default nothing does. -/
inductive Instr where
  /-- SOURCE_RESTORE (R400): A failed source has passed every test for 1 s and is restored, forcing reseeds. -/
  | sourceRestore (src : Nat) (failing : List Nat := [])
  /-- DRBG_RESEED_REQUEST (R394): A DRBG instance reaches 2^19 requests or 0.5 s since seeding and asks for a reseed. -/
  | drbgReseedRequest (inst : Nat)
  /-- DRBG_RESEED (R394): A waiting reseed is carried out from 256 reservoir bits. -/
  | drbgReseed (inst : Nat)
  /-- SPOOL_COALESCE_EXPIRY (R291): The coalescing time of device records expires, and a commit is issued. -/
  | spoolCoalesceExpiry (port : Port)
  /-- MIRROR_ENTRY_TIMEOUT (R343): 10 µs pass after the first record of a mirror-ring entry, and the entry is written half-empty. -/
  | mirrorEntryTimeout
  /-- FIRMWARE_TIMER_EXPIRY (R335): An entry of delay list 6 expires and sends an EV_TIMER to service or trusted firmware, for example to end a RANDOM wait at the call's deadline. -/
  | firmwareTimerExpiry (timer : Nat) (arms : List (Nat × Nat) := [])
  /-- POWER_ON (R463): The main rails rise in the order of Table 18.7, the vigil moves to VDD_IO18, and the device is held in reset until PWR_OK and PERST_N allow it to start. -/
  | powerOn
  /-- PWR_OK_LOW (R464): PWR_OK goes low, and the device treats it as an assertion of PERST_N. -/
  | pwrOkLow
  /-- PERST_N_ASSERT (R44): The host asserts PERST_N: the supply comparators are disarmed, and rings and engine memories are lost at the reset. -/
  | perstNAssert
  /-- PERST_N_RELEASE (R46): PERST_N is released: t0 of KINDLE starts, and the power-up steps run in order until gathering. -/
  | perstNRelease (env : KindleEnv)
  /-- GATHER_TIMEOUT (R46): Gathering is still unfinished 40 ms into t8, so the device enters UNSEEDED while gathering continues. -/
  | gatherTimeout
  /-- GATHER_COMPLETE (R46): Gathering completes, and steps t9 to t12 run: the DRS at first start, the epoch nonce, the storage root, spool reconciliation, then SERVICE. -/
  | gatherComplete (env : GatherEnv)
  /-- MAIN_POWER_LOSS (R464): A rail stays out of range for more than 10 µs: host writes stop, the vigil switches to VBAT, and the device is in VIGIL. -/
  | mainPowerLoss
  /-- GLB_RESET_WRITE (R43): A write of 0x0000_9528 to GLB_RESET starts a device reset that runs KINDLE; other values are ignored. -/
  | glbResetWrite (value : W32)
  /-- PF_FLR (R43): FLR of the PF is carried out as a device reset. -/
  | pfFlr
  /-- VF_FLR (R313): FLR of a strand stops its fetch, advances its generation, aborts its work, destroys its rings and resets its function registers. -/
  | vfFlr (strand : Nat)
  /-- VF_ENABLE_CLEAR (R305): Clearing VF Enable or lowering NumVFs applies FLR effects to each strand no longer enabled, tears down its rings and disables it. -/
  | vfEnableClear (numVfs : Nat)
  /-- FAIL_STOP (R43): An uncorrectable error in device control state wipes engine memories and enters HALTED. -/
  | failStop
  /-- REFCLK_LOSS (R51): The reference clock is lost or returns, and PTC_BOOT switches source without a jump and sets OSC and OSC_USED. -/
  | refclkLoss (present : Bool)
  /-- DOORBELL_WRITE (R63): An 8-byte write of a ring doorbell's TAIL is checked against DONE and the ring size, and is recorded, ignored or faulted. -/
  | doorbellWrite (fn ring size : Nat) (value : W64)
  /-- ENTRY_FETCH (R65): S1 reads one covered ring entry with a single 64-byte read, when its per-ring and device-wide limits allow. -/
  | entryFetch (fn ring : Nat)
  /-- ENTRY_READ_COMPLETION (R65): The read of a ring entry returns; a complete chain becomes a JOB_READY token, and a read error is structural fault 0x0C. -/
  | entryReadCompletion (fn ring : Nat) (outcome : ReadOutcome) (words : List W64)
  /-- DISPATCH (R331): A frame takes one job token from the ready lists by weighted class rounds and round-robin queues. -/
  | dispatch (frame : Nat)
  /-- PARSE (R86): S2 checks the structure of a job's entries and finds structural faults. -/
  | parse (frame : Nat)
  /-- ADMIT (R229): S3 tags a job, lowers its class to the ceiling, checks its key, quotas and randomness, and admits it, refuses it or makes it wait. -/
  | admitStep (job : Nat) (phase : AdmitPhase)
  /-- KEY_FETCH_COMPLETE (R130): Key material missed in the cache arrives from HBM or the spool into the fill buffer, and the waiting job proceeds. -/
  | keyFetchComplete (job : Nat) (intact : Bool)
  /-- NEXT_JOB (R236): An idle spindle or carder looks for work in its deque, steals within the frame, or steals across frames. -/
  | nextJob (frame creel unit : Nat)
  /-- STAGE_IN_CLAIM (R234): S4 claims cache space, a carder and spindle slots all at once, or claims nothing and retries on a release. -/
  | stageInClaim (job : Nat) (rivals : List Nat := [])
  /-- DMA_READ_COMPLETION (R71): A host read of input or auxiliary data completes, or fails with a DMA status. -/
  | dmaReadCompletion (job : Nat) (buffer : BufKind) (outcome : ReadOutcome) (extent : Nat) (data : Bytes)
  /-- COMPUTE_START (R73): A job starts computing: its deadline and window are checked again, its reservation becomes a use, and a stateful index is assigned. -/
  | computeStart (job : Nat)
  /-- FANOUT_ATTEMPT_END (R245): One fan-out attempt is accepted or rejected; the spindle takes the next attempt number, or the winner is declared. -/
  | fanoutAttemptEnd (job spindle : Nat) (accepted : Bool)
  /-- EV_DONE (R204): A spindle, carder, seal lane or general core ends a job and interrupts the frame pipeline, which takes the job into S6. -/
  | evDone (job : Nat) (checkFails : Bool)
  /-- SEAL (R248): S6 encodes the outputs, runs verify-after-sign, makes the comparisons and wraps, then hands the job to S7. -/
  | seal (job : Nat) (vasFails flagsDisagree : Bool)
  /-- RETIRE (R77): S7 begins the ordered write-back of a job, or holds an ORDER job as a JOB_HELD token. -/
  | retire (job : Nat)
  /-- HOST_WRITE_ACK (R487): The host link acknowledges the writes of one write-back step, and the next step starts, the MSI-X message last. -/
  | hostWriteAck (job : Nat) (outcome : WriteOutcome) (which : Nat := 0)
  /-- COALESCE_TIMEOUT (R83): An IRQ delay-list entry expires, and the ring's MSI-X message is sent. -/
  | coalesceTimeout (fn ring : Nat)
  /-- VECTOR_UNMASK (R83): A masked MSI-X vector with its PBA bit set is unmasked, and one message is sent. -/
  | vectorUnmask (fn vec : Nat)
  /-- DEADLINE_EXPIRY (R337): A DEADLINE delay-list entry fires for a job that waits at S3, which completes with RNG_UNAVAILABLE, DEADLINE or SPOOL. -/
  | deadlineExpiry (job : Nat)
  /-- KEY_EXPIRY (R125): A key's NOT_AFTER entry fires, and the key is marked expired. -/
  | keyExpiry (owner index : Nat)
  /-- BUCKET_REFILL (R308): A 1 µs tick raises a strand's token-bucket level by RATE ÷ 1,000,000, up to BURST. -/
  | bucketRefill (strand : Nat)
  /-- XSTEAL_WINDOW (R237): A cross-frame steal window ends, and budget(f) is set to FRM_XSTEAL.BUDGET. -/
  | xstealWindow (frame : Nat)
  /-- WAIT_FOR_SCAN (R339): Every 10 µs the heddle scans the wait-for graph and finds cycles of blocked jobs. -/
  | waitForScan
  /-- WARM_KEY_TIMEOUT (R239): A spindle has been idle for WARM_TMO µs, and its warm key is wiped. -/
  | warmKeyTimeout (frame creel spindle : Nat)
  /-- MACHINE_CHECK (R250): A parity, memory or watchdog error aborts the job, takes the unit out of dealing, and requeues the job once. -/
  | machineCheck (frame creel unit cause : Nat)
  /-- WATCHDOG_EXPIRY (R277): A routine exceeds its watchdog bound and takes a machine check of cause 4. -/
  | watchdogExpiry (frame creel spindle : Nat)
  /-- MCHK_RECOVERY_END (R249): The reload or wipe after a machine check ends, and the unit or nano-store bank returns to service. -/
  | mchkRecoveryEnd (frame creel unit : Nat)
  /-- MCHK_WINDOW_SWEEP (R251): A device delay-list sweep ages the machine-check hour windows of every unit. -/
  | mchkWindowSweep
  /-- CAPPING_INTERVAL (R253): Every 1 ms the capping loop lowers or raises the creel clocks by 50 MHz. -/
  | cappingInterval (powerDw : Nat) (junction : Int)
  /-- GATE_STEP (R254): Every 10 ms while the cap is unmet or clearing, GATE_N is lowered or raised by 1. -/
  | gateStep
  /-- DVFS_STEP (R252): A creel island steps 50 MHz toward its set point, stopping its clock for at most 2 µs. -/
  | dvfsStep (frame creel : Nat)
  /-- PTC_LIFE_CHECKPOINT (R52): Every 1 s of powered time PTC_LIFE is checkpointed to vigil RAM. -/
  | ptcLifeCheckpoint
  /-- SPOOL_CHECKPOINT (R52): Every 60 s PTC_LIFE is checkpointed to each paired spool. -/
  | spoolCheckpoint
  /-- RING_TEARDOWN_END (R100): Teardown of a destroyed ring ends, and its ring number is free. -/
  | ringTeardownEnd (fn ring : Nat)
  /-- DRAIN_COMPLETE (R108): The last fetched job retires, and the drain ends into its target mode or lets the waiting command proceed. -/
  | drainComplete
  /-- STRAND_DRAIN_END (R303): A draining strand's last fetched job retires, and the strand enters STOPPED and posts the STOPPED notice. -/
  | strandDrainEnd (strand : Nat)
  /-- KEY_ACTIVE_FLIP (R141): At the next gap between admissions the ACTIVE half of a replaced key flips. -/
  | keyActiveFlip (owner index : Nat)
  /-- PERSIST_REBUILD (R292): After a power-on reset the key-table headers of PERSIST keys are rebuilt from the primary spool's KEY records. -/
  | persistRebuild (rec : Option KeyRecord)
  /-- HBM_UNCORRECTABLE_ERROR (R131): An uncorrectable HBM error on a key entry sets UNUSABLE, and its jobs complete with INTEGRITY 0x0141. -/
  | hbmUncorrectableError (owner index address : Nat)
  /-- ADM_CFG_ENABLE (R93): A write of ADM_CFG.ENABLE from 0 to 1 creates ring 0, or is refused with ERR set. -/
  | admCfgEnable (fn : Nat) (value : W32)
  /-- ADM_CFG_DISABLE (R100): A write that clears ADM_CFG.ENABLE destroys ring 0 as RING_DESTROY does. -/
  | admCfgDisable (fn : Nat)
  /-- MBX_RING_MANAGER (R317): The manager writes MBX_RING, which sets the strand's FROM_MGR and signals its vector 0. -/
  | mbxRingManager (value : W32)
  /-- MBX_RING_TENANT (R317): A strand writes MBX_RING, which sets its MBX_PEND bit and signals the manager's vector. -/
  | mbxRingTenant (strand : Nat) (value : W32)
  /-- STR_COMM_WRITE (R319): STR_COMM is written; setting EN from 0 to 1 writes N_HEAD = 0 before any notice. -/
  | strCommWrite (strand : Nat) (value : W64)
  /-- FRM_XSTEAL_WRITE (R237): A write of FRM_XSTEAL ends the current window and starts a new one with the new budget. -/
  | frmXstealWrite (frame : Nat) (value : W32)
  /-- HDL_WT_WRITE (R332): A write of HDL_WT takes effect at the start of each frame's next round. -/
  | hdlWtWrite (value : W32)
  /-- SHT_REQ_WRITE (R352): A write of SHT_REQ changes a requester's CLASS, LAT or HOLD from the next cycle. -/
  | shtReqWrite (inst slot : Nat) (value : W64) (cycle : Cycle := Cycle.quiet)
  /-- PWR_CRL_SET_WRITE (R252): A write of PWR_CRL_SET sets a new creel set point, clamped to 16–30. -/
  | pwrCrlSetWrite (value : W32)
  /-- RNG_CFG_WRITE (R405): A write of RNG_CFG.SRC_DIS disables sources at once or starts their recovery count. -/
  | rngCfgWrite (value : W32)
  /-- PLY_CFG_WRITE (R484): A write of PLY_CFG sets the ordinal for the next training, or takes a port down when its enable is cleared. -/
  | plyCfgWrite (value : W32)
  /-- GLB_LOCK_SET (R481): A write of 1 to GLB_LOCK.LOCK freezes every RWL register until the next reset that runs KINDLE. -/
  | glbLockSet (value : W32)
  /-- PTC_BOOT_LOW_READ (R51): A 4-byte read of PTC_BOOT[31:0] latches [63:32] for the next read of the upper half. -/
  | ptcBootLowRead
  /-- MCS_WIN_DATA0_READ (R281): A read of MCS_WIN_DATA0 reads the selected store word and latches it. -/
  | mcsWinData0Read
  /-- TRC_RD_DATA0_READ (R353): A read of TRC_RD_DATA0 latches the whole selected trace record. -/
  | trcRdData0Read
  /-- RC_COUNTER_READ (R480): A read of an RC register returns its value and clears it; a same-cycle increment leaves 1. -/
  | rcCounterRead (bar : Bar) (fn offset size : Nat) (sameCycle : List Nat)
  /-- REGISTER_WRITE (R8): A write to a register without a row of its own, with the access-size rules of R8 and the type rules of Table 0.4. -/
  | registerWrite (bar : Bar) (fn offset size : Nat) (value : W64) (cycle : Cycle := Cycle.quiet)
  /-- DGE_DATA_WRITE (R411): A write of DGE_DATA appends 8 bytes, starting a message and checking CFG and the key when the slot is IDLE or DONE. -/
  | dgeDataWrite (slot size : Nat) (writer : DgeWriter) (tag : Tag) (value : W64) (abort : Bool := false)
  /-- DGE_LAST_WRITE (R415): A write of DGE_LAST appends COUNT bytes and finishes the message with padding. -/
  | dgeLastWrite (slot : Nat) (value : W32)
  /-- DGE_CTL_ABORT (R419): A write of DGE_CTL.ABORT wipes the message and returns the slot to IDLE. -/
  | dgeCtlAbort (slot : Nat) (value : W32)
  /-- DGE_CTX_CFG_WRITE (R419): A write of DGE_CTX_CFG sets the slot's configuration and takes a slot out of ERROR into IDLE. -/
  | dgeCtxCfgWrite (slot : Nat) (value : W32)
  /-- DIGEST_BLOCK_DONE (R409): A digest lane finishes one block of a slot; at finish the outer pass and output or comparison follow and the slot enters DONE. -/
  | digestBlockDone (slot : Nat) (comparatorsDisagree : Bool)
  /-- CAP_QUERY (R103): CAP_QUERY writes the 64-byte capability block. -/
  | capQuery (job : Nat)
  /-- RING_CREATE (R99): RING_CREATE checks its parameter block in order and creates a ring with a home frame. -/
  | ringCreate (job : Nat)
  /-- RING_DESTROY (R100): RING_DESTROY stops fetch on a ring, drops its unretired jobs and begins teardown. -/
  | ringDestroy (job : Nat)
  /-- IRQ_SET (R102): IRQ_SET replaces VEC, CNT and TMO of an existing ring. -/
  | irqSet (job : Nat)
  /-- ATTEST (R155): ATTEST writes the attestation report, signed with ML-DSA-65 under the attestation key. -/
  | attest (job : Nat)
  /-- STRAND_ENABLE (R304): STRAND_ENABLE moves a strand to ENABLED, advancing its generation from DISABLED. -/
  | strandEnable (job : Nat)
  /-- STRAND_DISABLE (R304): STRAND_DISABLE starts a strand's drain, or tears down its rings and disables it from STOPPED. -/
  | strandDisable (job : Nat)
  /-- STRAND_QUOTA (R105): STRAND_QUOTA applies the quota block from the strand's next admission, or refuses it as a whole. -/
  | strandQuota (job : Nat)
  /-- DLOG_START (R106): DLOG_START sets the dirty-log window and bitmaps and starts logging to bitmap A. -/
  | dlogStart (job : Nat)
  /-- DLOG_SWAP (R106): DLOG_SWAP turns logging to the other bitmap and completes once every bit-write to the closed one is acknowledged. -/
  | dlogSwap (job : Nat)
  /-- DLOG_STOP (R106): DLOG_STOP ends dirty logging for a strand. -/
  | dlogStop (job : Nat)
  /-- STRAND_SAVE (R323): STRAND_SAVE writes the encrypted blob of a stopped strand to the host or over the ply link. -/
  | strandSave (job : Nat)
  /-- STRAND_RESTORE (R325): STRAND_RESTORE checks a blob and recreates the strand's rings and keys, leaving it STOPPED. -/
  | strandRestore (job : Nat)
  /-- DRAIN (R108): DRAIN enters DRAIN and completes when every other ring's last fetched job has retired. -/
  | drain (job : Nat) (hwChange : Bool := false)
  /-- RESUME (R108): RESUME returns the device from a standalone drain to SERVICE. -/
  | resume (job : Nat) (hwChange : Bool := false)
  /-- POWER_DOWN_PREP (R109): POWER_DOWN_PREP drains, checkpoints PTC_LIFE and BOOTS, and stays in DRAIN. -/
  | powerDownPrep (job : Nat) (hwChange : Bool := false)
  /-- DEVICE_RESET (R110): DEVICE_RESET writes its completion and starts a device reset within 10 µs. -/
  | deviceReset (job : Nat) (hwChange : Bool := false)
  /-- RAW_ENTER (R111): RAW_ENTER drains and enters RAW, uninstantiating every DRBG. -/
  | rawEnter (job : Nat) (hwChange : Bool := false)
  /-- RAW_READ (R404): RAW_READ returns raw, whitened or conditioned bits of one noise source with a header. -/
  | rawRead (job : Nat)
  /-- RAW_EXIT (R111): RAW_EXIT returns the device to GATHER and the entropy island to STARTUP. -/
  | rawExit (job : Nat) (hwChange : Bool := false)
  /-- IMAGE_LOAD (R112): IMAGE_LOAD authenticates and installs a firmware, microcode or applet image, passing through DRAIN and UPDATE where needed. -/
  | imageLoad (job : Nat) (failedReadback : List Nat) (spoils : BitVec 2) (hwChange : Bool := false)
  /-- SPOOL_STATUS (R300): SPOOL_STATUS writes the 32-byte status block of a port. -/
  | spoolStatus (job : Nat)
  /-- SPOOL_PAIR (R287): SPOOL_PAIR runs the handshake and pairs an unpaired cartridge to the device. -/
  | spoolPair (job : Nat)
  /-- SPOOL_OPEN (R286): SPOOL_OPEN opens a session with a paired cartridge and assigns its role. -/
  | spoolOpen (job : Nat)
  /-- SPOOL_CLOSE (R113): SPOOL_CLOSE begins closing an open port. -/
  | spoolClose (job : Nat)
  /-- SPOOL_RESPOOL (R298): SPOOL_RESPOOL moves, merges or promotes spool records between the two ports. -/
  | spoolRespool (job : Nat)
  /-- TRACE_CTRL (R114): TRACE_CTRL sets the trace enable, port, mirror ring and source mask. -/
  | traceCtrl (job : Nat)
  /-- TAMPER_CFG (R440): TAMPER_CFG checks and applies the tamper configuration block. -/
  | tamperCfg (job : Nat)
  /-- TAMPER_LOG (R450): TAMPER_LOG returns tamper-log records in SEQ order. -/
  | tamperLog (job : Nat)
  /-- TAMPER_RELEASE (R451): TAMPER_RELEASE clears the FREEZE latch and the TMP_EVT bits unless a FREEZE-or-stronger source is active. -/
  | tamperRelease (job : Nat)
  /-- LC_TRANSITION (R429): LC_TRANSITION verifies a token, drains, and programs the intent, erasure, state and done phases of a life-cycle move. -/
  | lcTransition (job : Nat) (phase : LcPhase) (readback : Bool) (hwChange : Bool := false)
  /-- KEY_GENERATE (R135): KEY_GENERATE creates a key object, running the PCT for a key pair. -/
  | keyGenerate (job : Nat)
  /-- KEY_LOAD_PUBLIC (R135): KEY_LOAD_PUBLIC checks and stores a public-only key object. -/
  | keyLoadPublic (job : Nat)
  /-- KEY_UNWRAP (R138): KEY_UNWRAP checks and decrypts a device blob into a new key object. -/
  | keyUnwrap (job : Nat)
  /-- KEY_WRAP (R137): KEY_WRAP writes a device blob of a key under a key-encryption key or the DWK. -/
  | keyWrap (job : Nat)
  /-- KEY_IMPORT (R139): KEY_IMPORT decapsulates an import package and stores its key. -/
  | keyImport (job : Nat)
  /-- KEY_EXPORT (R139): KEY_EXPORT writes an export package of a key to an ML-KEM recipient. -/
  | keyExport (job : Nat)
  /-- KEY_REPLACE (R141): KEY_REPLACE fills, verifies and commits a shadow half, then flips it active. -/
  | keyReplace (job : Nat)
  /-- KEY_DESTROY (R149): KEY_DESTROY advances the slot's epoch and invalidates the key when S3 admits it. -/
  | keyDestroy (job : Nat)
  /-- KEY_PUBLIC (R134): KEY_PUBLIC writes the public key of a key object. -/
  | keyPublic (job : Nat)
  /-- KEY_INFO (R134): KEY_INFO writes 128 bytes of header information and the current PTC_LIFE. -/
  | keyInfo (job : Nat)
  /-- KEY_POLICY (R127): KEY_POLICY narrows a key's policy from the next admission. -/
  | keyPolicy (job : Nat)
  /-- KEY_PURGE (R151): KEY_PURGE destroys every key of a disabled strand and clears quarantine. -/
  | keyPurge (job : Nat)
  /-- ML_KEM_ENCAPSULATE (R167): An ML-KEM encapsulation job outputs ciphertext and shared secret. -/
  | mlKemEncapsulate (job : Nat)
  /-- ML_KEM_DECAPSULATE (R171): An ML-KEM decapsulation job outputs the shared secret or the implicit-rejection key. -/
  | mlKemDecapsulate (job : Nat)
  /-- HQC_ENCAPSULATE (R187): An HQC encapsulation job outputs ciphertext and a 64-byte shared secret. -/
  | hqcEncapsulate (job : Nat)
  /-- HQC_DECAPSULATE (R188): An HQC decapsulation job outputs the shared secret or the specification's rejection value. -/
  | hqcDecapsulate (job : Nat)
  /-- MCELIECE_ENCAPSULATE (R190): A Classic McEliece encapsulation job reads the public key from cache, HBM or host and outputs ciphertext and secret. -/
  | mcelieceEncapsulate (job : Nat)
  /-- MCELIECE_DECAPSULATE (R189): A Classic McEliece decapsulation job outputs the secret or the rejection value. -/
  | mcelieceDecapsulate (job : Nat)
  /-- ML_DSA_SIGN (R489): An ML-DSA signing job runs set-up, attempts and encoding, possibly fanned out. -/
  | mlDsaSign (job : Nat)
  /-- ML_DSA_VERIFY (R177): An ML-DSA verify job reports OK or VERIFY_FAIL. -/
  | mlDsaVerify (job : Nat)
  /-- SLH_DSA_SIGN (R180): An SLH-DSA signing job signs FORS and the hypertree layers, possibly fanned out. -/
  | slhDsaSign (job : Nat)
  /-- SLH_DSA_VERIFY (R179): An SLH-DSA verify job reports OK or VERIFY_FAIL. -/
  | slhDsaVerify (job : Nat)
  /-- HSS_SIGN (R184): An HSS sign job signs with the index assigned at compute start, opening a new bottom tree where needed. -/
  | hssSign (job : Nat)
  /-- HSS_VERIFY (R185): An HSS verify job checks a signature against its type fields and the public key. -/
  | hssVerify (job : Nat)
  /-- XMSS_SIGN (R184): An XMSS sign job signs with its assigned index. -/
  | xmssSign (job : Nat)
  /-- XMSS_VERIFY (R185): An XMSS verify job checks a signature. -/
  | xmssVerify (job : Nat)
  /-- XMSS_MT_SIGN (R184): An XMSS^MT sign job signs with its assigned global index. -/
  | xmssMtSign (job : Nat)
  /-- XMSS_MT_VERIFY (R185): An XMSS^MT verify job checks a signature. -/
  | xmssMtVerify (job : Nat)
  /-- HYBRID_ENCAPSULATE (R194): A hybrid encapsulation runs the ML-KEM part on a spindle and the classical part on the carder, then combines them. -/
  | hybridEncapsulate (job : Nat)
  /-- HYBRID_DECAPSULATE (R194): A hybrid decapsulation runs both parts together and outputs the combined secret. -/
  | hybridDecapsulate (job : Nat)
  /-- COMPOSITE_SIGN (R196): A composite signing job signs with ML-DSA-65 on a spindle and the classical part on the carder. -/
  | compositeSign (job : Nat)
  /-- COMPOSITE_VERIFY (R197): A composite verify job evaluates both parts and reports which failed. -/
  | compositeVerify (job : Nat)
  /-- RSA_ENCRYPT (R212): An RSA encryption job, raw, v1.5 or OAEP, runs on the carder. -/
  | rsaEncrypt (job : Nat)
  /-- RSA_DECRYPT (R213): An RSA decryption job runs on the carder, with a single status for padding failure. -/
  | rsaDecrypt (job : Nat)
  /-- ECDH_STORED (R214): An ECDH job with a stored key computes the shared secret Z. -/
  | ecdhStored (job : Nat)
  /-- ECDH_EPHEMERAL (R214): An ephemeral ECDH job draws a scalar and writes its public value and Z. -/
  | ecdhEphemeral (job : Nat)
  /-- X25519_X448_STORED (R214): An X25519 or X448 agreement with a stored key. -/
  | x25519X448Stored (job : Nat)
  /-- X25519_X448_EPHEMERAL (R214): An ephemeral X25519 or X448 agreement. -/
  | x25519X448Ephemeral (job : Nat)
  /-- FFDHE_STORED (R214): An FFDHE agreement with a stored key. -/
  | ffdheStored (job : Nat)
  /-- FFDHE_EPHEMERAL (R214): An ephemeral FFDHE agreement. -/
  | ffdheEphemeral (job : Nat)
  /-- RSA_SIGN (R212): An RSA signing job, raw, v1.5 or PSS. -/
  | rsaSign (job : Nat)
  /-- RSA_VERIFY (R212): An RSA verify job, v1.5 or PSS. -/
  | rsaVerify (job : Nat)
  /-- ECDSA_SIGN (R215): An ECDSA signing job, retrying on a zero r or s. -/
  | ecdsaSign (job : Nat)
  /-- ECDSA_VERIFY (R215): An ECDSA verify job. -/
  | ecdsaVerify (job : Nat)
  /-- EDDSA_SIGN (R215): An Ed25519 or Ed448 signing job. -/
  | eddsaSign (job : Nat)
  /-- EDDSA_VERIFY (R215): An EdDSA verify job with the cofactored equation. -/
  | eddsaVerify (job : Nat)
  /-- HASH (R219): A hash job runs on a digest lane. -/
  | hash (job : Nat)
  /-- HMAC_GENERATE (R219): An HMAC generate job writes a tag. -/
  | hmacGenerate (job : Nat)
  /-- HMAC_VERIFY (R219): An HMAC verify job compares a tag. -/
  | hmacVerify (job : Nat)
  /-- KMAC_GENERATE (R490): A KMAC generate job writes OUTLEN bytes. -/
  | kmacGenerate (job : Nat)
  /-- KMAC_VERIFY (R490): A KMAC verify job compares a tag. -/
  | kmacVerify (job : Nat)
  /-- AES_CMAC_GENERATE (R219): An AES-CMAC generate job writes a tag. -/
  | aesCmacGenerate (job : Nat)
  /-- AES_CMAC_VERIFY (R219): An AES-CMAC verify job compares a tag. -/
  | aesCmacVerify (job : Nat)
  /-- AES_ENCRYPT (R219): An AES encryption job in ECB, CBC, CTR, GCM, XTS, KW or KWP mode. -/
  | aesEncrypt (job : Nat)
  /-- AES_DECRYPT (R220): An AES decryption job, writing AEAD and key-wrap plaintext as it computes and zeroing it on a failed tag. -/
  | aesDecrypt (job : Nat)
  /-- CHACHA20_POLY1305_ENCRYPT (R219): A ChaCha20-Poly1305 encryption job. -/
  | chacha20Poly1305Encrypt (job : Nat)
  /-- CHACHA20_POLY1305_DECRYPT (R220): A ChaCha20-Poly1305 decryption job. -/
  | chacha20Poly1305Decrypt (job : Nat)
  /-- TDEA_ENCRYPT (R223): A TDEA encryption job that counts 64-bit blocks against its key. -/
  | tdeaEncrypt (job : Nat)
  /-- TDEA_DECRYPT (R223): A TDEA decryption job, unrestricted. -/
  | tdeaDecrypt (job : Nat)
  /-- MODEXP (R217): A raw modular exponentiation on the carder. -/
  | modexp (job : Nat)
  /-- MODMUL (R217): A raw modular multiplication on the carder. -/
  | modmul (job : Nat)
  /-- MODINV (R217): A raw modular inversion on the carder. -/
  | modinv (job : Nat)
  /-- ECADD (R217): A raw elliptic-curve point addition on the carder. -/
  | ecadd (job : Nat)
  /-- ECMUL (R217): A raw elliptic-curve scalar multiplication on the carder. -/
  | ecmul (job : Nat)
  /-- GENERATE (R402): An RNG GENERATE job draws OUTLEN bytes from instance H. -/
  | generate (job : Nat)
  /-- RESEED (R402): An RNG RESEED job reseeds instance H with its additional input. -/
  | reseed (job : Nat)
  /-- CUSTOM_JOB (R274): A CUSTOM job starts a customer routine at its entry address with the registers set. -/
  | customJob (job : Nat)
  /-- MICRO_WORD (R259): A spindle executes one micro-word, issues its nano-word and branches on its condition. -/
  | microWord (frame creel spindle : Nat)
  /-- MICRO_CALL (R260): A micro-word with COND 0xE pushes its return address and calls NEXT. -/
  | microCall (frame creel spindle : Nat)
  /-- MICRO_RETURN (R260): A micro-word with COND 0xF pops the return stack. -/
  | microReturn (frame creel spindle : Nat)
  /-- PIECE_STAGED (R274): The next input piece has been staged into the window, and PIECE goes true. -/
  | pieceStaged (job : Nat)
  /-- HASH_BEGIN (R279): The gate entry opens a hash context. -/
  | hashBegin (frame creel spindle : Nat)
  /-- ABSORB_KEY (R279): The gate entry absorbs key bytes from bank 0. -/
  | absorbKey (frame creel spindle : Nat)
  /-- ABSORB_X (R279): The gate entry absorbs a scalar register as 8 bytes. -/
  | absorbX (frame creel spindle : Nat)
  /-- ABSORB_INPUT (R279): The gate entry absorbs the remaining input, issuing IN_NEXT itself. -/
  | absorbInput (frame creel spindle : Nat)
  /-- ABSORB_AUX (R279): The gate entry absorbs the auxiliary data. -/
  | absorbAux (frame creel spindle : Nat)
  /-- HASH_FINAL (R279): The gate entry finishes the hash and unmasks the digest into bank 6. -/
  | hashFinal (frame creel spindle : Nat)
  /-- MASKED_XOR (R279): The gate entry XORs key bytes into bank 5 as shares. -/
  | maskedXor (frame creel spindle : Nat)
  /-- UNMASK_OUT (R279): The gate entry unmasks bank 5 into bank 6 and sets X14. -/
  | unmaskOut (frame creel spindle : Nat)
  /-- APPLET_CALL (R377): An APPLET call is checked at S3 and joins the service-firmware call queue. -/
  | appletCall (job : Nat)
  /-- CALL_TAKE (R378): A free context takes a queued call, checks its deadline and starts the applet. -/
  | callTake (ctx : Nat)
  /-- CONTEXT_SLICE (R378): The 100 µs time slice of a G core passes to its next call context. -/
  | contextSlice (core : Nat)
  /-- APPLET_TIME_LIMIT (R380): A call has run for TLIM µs and is stopped with APPLET 0x0802. -/
  | appletTimeLimit (ctx : Nat)
  /-- SUBJOB_COMPLETION (R383): A sub-job finishes and writes its output into scratch with its tags, waking a waiting context. -/
  | subjobCompletion (job : Nat)
  /-- TGATE_ARRIVAL (R375): A T-gate message arrives and interrupts the receiving side. -/
  | tgateArrival (toTrusted : Bool)
  /-- VECTOR_POWER_DOWN (R374): After 50 µs without a vector instruction the vector unit powers down. -/
  | vectorPowerDown (core : Nat) (begins : Bool := false)
  /-- VECTOR_WAKE (R374): The vector unit wake completes, and the waiting vector instruction issues. -/
  | vectorWake (core : Nat)
  /-- EXIT (R381): Service call EXIT ends an applet call with its outcome and RES_LEN. -/
  | exit (core : Nat)
  /-- SUBMIT (R382): Service call SUBMIT checks a sub-job block and submits the sub-job. -/
  | submit (core : Nat)
  /-- WAIT (R381): Service call WAIT blocks until a sub-job ends and returns its status. -/
  | wait (core : Nat)
  /-- POLL (R381): Service call POLL returns a sub-job's status or that it still runs. -/
  | poll (core : Nat)
  /-- YIELD (R381): Service call YIELD gives up the context's slice. -/
  | yield (core : Nat)
  /-- TIME (R381): Service call TIME returns PTC_BOOT. -/
  | time (core : Nat)
  /-- RANDOM (R381): Service call RANDOM fills scratch with DRBG bytes, waiting while randomness is unavailable. -/
  | random (core : Nat)
  /-- ADD (R357): Crixa ALU add with tag propagation and flags. -/
  | add (core : Nat) (rd ra rb : BitVec 5)
  /-- SUB (R357): Crixa ALU subtract. -/
  | sub (core : Nat) (rd ra rb : BitVec 5)
  /-- AND (R357): Crixa ALU and. -/
  | and (core : Nat) (rd ra rb : BitVec 5)
  /-- OR (R357): Crixa ALU or. -/
  | or (core : Nat) (rd ra rb : BitVec 5)
  /-- XOR (R357): Crixa ALU xor. -/
  | xor (core : Nat) (rd ra rb : BitVec 5)
  /-- SHL (R357): Crixa shift left. -/
  | shl (core : Nat) (rd ra rb : BitVec 5)
  /-- SHR (R357): Crixa logical shift right. -/
  | shr (core : Nat) (rd ra rb : BitVec 5)
  /-- SAR (R357): Crixa arithmetic shift right. -/
  | sar (core : Nat) (rd ra rb : BitVec 5)
  /-- MUL (R357): Crixa multiply. -/
  | mul (core : Nat) (rd ra rb : BitVec 5)
  /-- MULHU (R357): Crixa unsigned multiply high. -/
  | mulhu (core : Nat) (rd ra rb : BitVec 5)
  /-- CMP (R362): Crixa compare setting flags and taint. -/
  | cmp (core : Nat) (rd ra rb : BitVec 5)
  /-- CSEL (R362): Crixa conditional select, allowed on tainted flags. -/
  | csel (core : Nat) (cond : BitVec 4) (rd ra rb : BitVec 5)
  /-- ADDI (R367): Crixa add immediate, sign-extended. -/
  | addi (core : Nat) (rd ra : BitVec 5) (imm : BitVec 16)
  /-- ANDI (R367): Crixa and immediate. -/
  | andi (core : Nat) (rd ra : BitVec 5) (imm : BitVec 16)
  /-- ORI (R367): Crixa or immediate. -/
  | ori (core : Nat) (rd ra : BitVec 5) (imm : BitVec 16)
  /-- XORI (R367): Crixa xor immediate. -/
  | xori (core : Nat) (rd ra : BitVec 5) (imm : BitVec 16)
  /-- LUI (R367): Crixa load upper immediate. -/
  | lui (core : Nat) (rd ra : BitVec 5) (imm : BitVec 16)
  /-- CMPI (R362): Crixa compare with immediate. -/
  | cmpi (core : Nat) (rd ra : BitVec 5) (imm : BitVec 16)
  /-- MOVI (R367): Crixa move immediate, tag INT. -/
  | movi (core : Nat) (rd ra : BitVec 5) (imm : BitVec 16)
  /-- LD (R363): Crixa word load with tag, writing its destination after the load slot. -/
  | ld (core : Nat) (rd ra : BitVec 5) (imm : BitVec 16)
  /-- ST (R358): Crixa word store with tag. -/
  | st (core : Nat) (rd ra : BitVec 5) (imm : BitVec 16)
  /-- LDB (R358): Crixa byte load from an INT or SEC word. -/
  | ldb (core : Nat) (rd ra : BitVec 5) (imm : BitVec 16)
  /-- STB (R358): Crixa byte store into an INT or SEC word. -/
  | stb (core : Nat) (rd ra : BitVec 5) (imm : BitVec 16)
  /-- MOV (R357): Crixa register move keeping the tag. -/
  | mov (core : Nat) (rd ra rb : BitVec 5)
  /-- PADD (R357): Crixa pointer add. -/
  | padd (core : Nat) (rd ra rb : BitVec 5)
  /-- PSUB (R357): Crixa pointer subtract. -/
  | psub (core : Nat) (rd ra rb : BitVec 5)
  /-- PTOI (R357): Crixa pointer to integer. -/
  | ptoi (core : Nat) (rd ra rb : BitVec 5)
  /-- MKPTR (R357): Crixa make pointer, supervisor only. -/
  | mkptr (core : Nat) (rd ra rb : BitVec 5)
  /-- HADD (R357): Crixa host-reference offset add. -/
  | hadd (core : Nat) (rd ra rb : BitVec 5)
  /-- VDMAKE (R357): Crixa make a vector descriptor. -/
  | vdmake (core : Nat) (rd ra rb : BitVec 5)
  /-- LA (R367): Crixa load a CODE address. -/
  | la (core : Nat) (rd ra : BitVec 5) (imm : BitVec 16)
  /-- B (R362): Crixa conditional branch, trapping on tainted flags. -/
  | b (core : Nat) (cond : BitVec 4) (offset : BitVec 22)
  /-- CALL (R361): Crixa call: pushes the return stack and parks the frame. -/
  | call (core : Nat) (offset : BitVec 26)
  /-- RET (R361): Crixa return: pops and restores the caller's frame. -/
  | ret (core : Nat) (rest : BitVec 26)
  /-- JR (R367): Crixa jump to a CODE register. -/
  | jr (core : Nat) (rd ra rb : BitVec 5)
  /-- CALLR (R361): Crixa call through a CODE register. -/
  | callr (core : Nat) (rd ra rb : BitVec 5)
  /-- DMAI (R379): Crixa DMA from a host buffer into core memory, tag INT. -/
  | dmai (core : Nat) (rd ra rb : BitVec 5) (outcome : ReadOutcome) (data : Bytes)
  /-- DMAO (R359): Crixa DMA to output staging, refusing any SEC word. -/
  | dmao (core : Nat) (rd ra rb : BitVec 5)
  /-- CSRR (R368): Crixa CSR read. -/
  | csrr (core : Nat) (rd ra : BitVec 5) (csr : BitVec 16)
  /-- CSRW (R368): Crixa CSR write, supervisor only. -/
  | csrw (core : Nat) (rd ra : BitVec 5) (csr : BitVec 16)
  /-- NOP (R367): Crixa no operation. -/
  | nop (core : Nat) (word : BitVec 32 := 0x7C000000)
  /-- ERET (R371): Crixa exception return, restarting the trapped instruction. -/
  | eret (core : Nat)
  /-- TGSEND (R375): Crixa send of a T-gate message. -/
  | tgsend (core : Nat) (rd ra rb : BitVec 5)
  /-- TGRECV (R375): Crixa receive of the next T-gate message. -/
  | tgrecv (core : Nat) (rd ra : BitVec 5)
  /-- KMINT (R153): Core T mints a KREF. -/
  | kmint (core : Nat) (rd ra rb : BitVec 5)
  /-- DECLASS (R359): Core T turns a SEC word into INT. -/
  | declass (core : Nat) (rd ra : BitVec 5)
  /-- STRIP (R369): Crixa sets the vector strip count. -/
  | strip (core : Nat) (rd ra : BitVec 5) (imm : BitVec 16)
  /-- VLOOP (R369): Crixa decrements the strip count register and loops. -/
  | vloop (core : Nat) (rd ra : BitVec 5) (imm : BitVec 16)
  /-- VLD (R372): Vector unit-stride load. -/
  | vld (core : Nat) (op : VOp)
  /-- VLDP (R372): Vector partial unit-stride load that stops at the first faulting element. -/
  | vldp (core : Nat) (op : VOp)
  /-- VST (R371): Vector unit-stride store. -/
  | vst (core : Nat) (op : VOp)
  /-- VLDX (R372): Vector gather. -/
  | vldx (core : Nat) (op : VOp)
  /-- VLDXP (R372): Vector partial gather. -/
  | vldxp (core : Nat) (op : VOp)
  /-- VSTX (R371): Vector scatter. -/
  | vstx (core : Nat) (op : VOp)
  /-- VADD (R370): Vector add. -/
  | vadd (core : Nat) (op : VOp)
  /-- VSUB (R370): Vector subtract. -/
  | vsub (core : Nat) (op : VOp)
  /-- VAND (R370): Vector and. -/
  | vand (core : Nat) (op : VOp)
  /-- VOR (R370): Vector or. -/
  | vor (core : Nat) (op : VOp)
  /-- VXOR (R370): Vector xor. -/
  | vxor (core : Nat) (op : VOp)
  /-- VMUL (R370): Vector multiply. -/
  | vmul (core : Nat) (op : VOp)
  /-- VWMUL_U (R373): Vector unsigned widening multiply. -/
  | vwmulU (core : Nat) (op : VOp)
  /-- VWMUL_S (R373): Vector signed widening multiply. -/
  | vwmulS (core : Nat) (op : VOp)
  /-- VDOT4_U (R373): Vector unsigned 4-way e8 dot product. -/
  | vdot4U (core : Nat) (op : VOp)
  /-- VDOT4_S (R373): Vector signed 4-way e8 dot product. -/
  | vdot4S (core : Nat) (op : VOp)
  /-- VDOT2_U (R373): Vector unsigned 2-way e16 dot product. -/
  | vdot2U (core : Nat) (op : VOp)
  /-- VDOT2_S (R373): Vector signed 2-way e16 dot product. -/
  | vdot2S (core : Nat) (op : VOp)
  /-- VCMPEQ (R367): Vector compare equal into a predicate. -/
  | vcmpeq (core : Nat) (op : VOp)
  /-- VCMPLTU (R367): Vector unsigned less-than into a predicate. -/
  | vcmpltu (core : Nat) (op : VOp)
  /-- VFILL (R367): Vector fill of active elements from a scalar. -/
  | vfill (core : Nat) (op : VOp)
  /-- VEXT (R367): Vector element 0 to a scalar. -/
  | vext (core : Nat) (op : VOp)
  /-- VSUM (R367): Vector sum of active elements to a scalar. -/
  | vsum (core : Nat) (op : VOp)
  /-- NOISE_SAMPLE (R388): A noise source delivers a raw sample, which the health tests and whitening take. -/
  | noiseSample (src : Nat) (outs : List Bool) (edges : List Edges)
  /-- SOURCE_STARTUP_PASS (R397): A source passes 1,024 start-up samples. -/
  | sourceStartupPass (src : Nat)
  /-- CONDITIONED_BLOCK (R390): The conditioner emits a 256-bit block into the reservoir, completing instantiation and STARTUP when the reservoir fills. -/
  | conditionedBlock
  /-- FRAME_BUFFER_REFILL (R395): A frame instance generates 4 KiB into its randomness buffer. -/
  | frameBufferRefill (frame : Nat)
  /-- MASK_GENERATOR_RESEED (R395): Every 10 ms a creel mask generator is reseeded from its frame buffer. -/
  | maskGeneratorReseed (frame creel : Nat)
  /-- TAMPER_EVENT (R436): A tamper source changes to active and fires, and its group's strongest response applies. -/
  | tamperEvent (group : List TamperEv)
  /-- VIGIL_SAMPLE (R444): The vigil samples the mesh, enclosure, light and shield sources every 32 ticks on the cell. -/
  | vigilSample (ticks : Nat) (active : List Nat)
  /-- TEMP_SAMPLE (R435): The two temperature detectors are sampled and compared with the thresholds and with each other. -/
  | tempSample (detA detB : Int)
  /-- SHADOW_MISMATCH (R442): A primary register and its shadow disagree for two cycles, and SHADOW fires. -/
  | shadowMismatch (offset : W32)
  /-- STATE_CODE_INVALID (R443): A state register holds a word outside its codes, and STATE_CODE fires. -/
  | stateCodeInvalid (machine : Nat) (code : BitVec 8)
  /-- CELL_REMOVAL (R445): The backup cell is removed; with main power absent vigil RAM is lost. -/
  | cellRemoval
  /-- THERM_TRIP (R476): A detector reads 125 °C, and THERM_TRIP_N goes low and every clock stops. -/
  | thermTrip
  /-- SPOOL_PRES_EDGE (R470): SPL_x_PRES_N reads high, and the port outputs go high-impedance until it is low again. -/
  | spoolPresEdge (port : Port) (high : Bool)
  /-- SPOOL_INSERT (R283): A cartridge is detected after debounce, and the port enters PROBING. -/
  | spoolInsert (port : Port)
  /-- SPOOL_REMOVE (R297): A cartridge is removed after debounce: session keys wiped, the port EMPTY, and the commit in flight failed. -/
  | spoolRemove (port : Port)
  /-- SPOOL_PROBE_RESULT (R283): Probing ends with UNPAIRED, FOREIGN, INVALID, CLOSED or OPEN. -/
  | spoolProbeResult (port : Port) (report : SpoolReport)
  /-- HELLO (R286): The spool's reply to HELLO is checked and FINISH is sent. -/
  | hello (port : Port) (genuine signatureOk : Bool) (payload signature : Bytes := []) (frame : Option Bytes := none)
  /-- FINISH (R286): The key confirmation after FINISH is checked, and the session keys are derived. -/
  | finish (port : Port) (tagOk : Bool) (report : SpoolReport) (tag : Bytes := []) (frame : Option Bytes := none)
  /-- PAIR (R287): The spool's reply to the sealed PAIR command completes pairing. -/
  | pair (port : Port) (result : SpoolResult) (report : SpoolReport) (frame : Option Bytes := none)
  /-- STATUS (R295): The spool's STATUS reply gives USED, free space, commit number and read-only. -/
  | status (port : Port) (report : SpoolReport) (frame : Option Bytes := none)
  /-- READ (R290): The spool returns a record body, whose tag is checked. -/
  | read (port : Port) (recno : Nat) (tagOk : Bool) (body : Bytes) (result : SpoolResult := .ok) (frame : Option Bytes := none)
  /-- WRITE (R293): The spool acknowledges a staged record write. -/
  | write (port : Port) (result : SpoolResult) (frame : Option Bytes := none)
  /-- COMMIT (R291): The spool acknowledges a commit with its commit number, making the staged records durable. -/
  | commit (port : Port) (result : SpoolResult) (commitNo : Nat) (frame : Option Bytes := none)
  /-- LIST (R293): The spool returns up to 256 record identifiers and a cursor. -/
  | list (port : Port) (records : List SpoolRec) (cursor : Nat) (frame : Option Bytes := none)
  /-- RELEASE (R298): The spool confirms the erasure of the device's records and the clearing of pairing. -/
  | release (port : Port) (result : SpoolResult) (frame : Option Bytes := none)
  /-- CLOSE (R293): The spool confirms the end of the session. -/
  | close (port : Port) (result : SpoolResult) (frame : Option Bytes := none)
  /-- SPOOL_LINK_TIMEOUT (R293): A response does not arrive within 10 ms; the exchange is repeated, or the port fails after the fourth. -/
  | spoolLinkTimeout (port : Port)
  /-- PLY_TRAINING (R13): A ply port trains with a neighbour, refusing a repeated ordinal. -/
  | plyTraining (port : Nat) (refclk : Bool) (neighbour : Nat) (ring : List Nat) (lanes : BitVec 4) (session : Bool)
  /-- EV_PLY (R329): A ply message arrives for the key store, core T or the strand mover. -/
  | evPly (port : Nat) (msg : PlyMsg)
  /-- PLY_HEARTBEAT_MISS (R484): The partner's heartbeat is missed. -/
  | plyHeartbeatMiss (port : Nat)
  /-- PLY_LINK_DOWN (R484): A ply port goes down, and mirroring stops. -/
  | plyLinkDown (port : Nat)
  /-- SHUTTLE_REQUEST (R347): A requester raises a request with its LST at a shuttle instance. -/
  | shuttleRequest (inst slot ctx now : Nat) (jobLst bound : Option Nat) (job : Option Nat := none)
  /-- SHUTTLE_RELEASE (R349): A holder drops its request at its last beat. -/
  | shuttleRelease (inst lane now : Nat)
  /-- HOLD_CUT (R350): A holder reaches its HOLD ceiling and its grant is cut at the next beat. -/
  | holdCut (inst lane now : Nat)
  /-- STARVATION (R351): A requester waits SHT_STARVE cycles and sets STARVE. -/
  | starvation (inst slot ctx now : Nat)
  /-- EMERGENCY_PREEMPT (R345): The emergency requester takes the grant at the holder's next beat boundary. -/
  | emergencyPreempt (inst now : Nat) (lane : Option Nat := none)
  /-- IDENT (R471): SMBus Block Read of GLB_ID and GLB_STEP. -/
  | ident
  /-- STATE (R471): SMBus Block Read of mode, life-cycle state and halt cause. -/
  | state
  /-- TEMP (R471): SMBus Block Read of TMP_TEMP. -/
  | temp
  /-- POWER (R471): SMBus Block Read of power and capping status. -/
  | power
  /-- ALERT (R471): SMBus Block Read of TMP_EVT. -/
  | alert
  /-- CELL (R471): SMBus Block Read of TMP_VBAT. -/
  | cell
  /-- EXTEST (R472): TAP EXTEST, active only while PERST_N is asserted. -/
  | extest
  /-- IDCODE (R472): TAP IDCODE reads 0x1952_86F3. -/
  | idcode
  /-- SAMPLE_PRELOAD (R472): TAP SAMPLE/PRELOAD. -/
  | samplePreload
  /-- EXTEST_PULSE (R472): TAP EXTEST_PULSE, active only while PERST_N is asserted. -/
  | extestPulse
  /-- EXTEST_TRAIN (R472): TAP EXTEST_TRAIN, active only while PERST_N is asserted. -/
  | extestTrain
  /-- BYPASS (R472): TAP BYPASS. -/
  | bypass
  /-- TAP_RESET (R472): The TAP resets on TRST_N low or five TCK cycles with TMS high. -/
  | tapReset
  /-- DEBUG_OPEN (R39): A debug session opened over JTAG enters DEBUG, wipes engine memories and withdraws the storage root. -/
  | debugOpen (path : DebugPath)
  /-- TAMPER_SOURCE_CLEAR (R436): An active tamper source clears, its TMP_STS.ACTIVE bit drops, and it may fire again on its next activation. -/
  | tamperSourceClear (src : Nat)
  /-- STAGING_BANK_RELEASE (R234): The carder has loaded its operands, so its lent bank 7 returns to the spindle and waiting claims of the creel are retried. -/
  | stagingBankRelease (job : Nat)
  /-- SMBUS_TIMEOUT (R471): The SMBus clock has been held low for 25–35 ms, and the target releases the bus. -/
  | smbusTimeout
  /-- FACTORY_OTP_PROGRAM (R422): In ordinal 0, the factory OTP port over JTAG programs SCHEME and the TOKEN_k digests. -/
  | factoryOtpProgram (field : OtpField)
  /-- FACTORY_TEST_MODE (R424): In DEBUG and where the life-cycle state allows, a JTAG instruction enters MBIST array access, repair programming or raw SRAM read. -/
  | factoryTestMode (mode : FactoryMode)
  /-- JTAG_DEBUG_ACCESS (R359): A debugger halts or steps a Crixa core, or reads or writes a word over JTAG; a SEC or KREF word reads 0, and a written word takes tag INT. -/
  | jtagDebugAccess (core : Nat) (action : DebugAction)
  /-- ATS_INVALIDATION (R465): The host sends an ATS invalidation request, which is queued in the 32-entry invalidation queue shown in HST_ATS.INVAL and then carried out. -/
  | atsInvalidation (carriedOut : Bool)
  /-- DOE_REQUEST (R465): The host sends an SPDM or IDE_KM message over DOE, which sets up IDE link or selective streams, as shown in HST_LINK.IDE and SEL_IDE. -/
  | doeRequest (linkStream : Bool) (selective : BitVec 3)
  /-- HBM_CORRECTED_ERROR (R485): The HBM controller corrects an error and adds 1 to HBM_ECC.COR. -/
  | hbmCorrectedError
  /-- CORE_MEMORY_UNCORRECTABLE (R356): An uncorrectable error in a Crixa core's memory tags the word POISON, so any later read of it traps. -/
  | coreMemoryUncorrectable (core : Nat) (address : Nat)
deriving DecidableEq, Repr

end Sys2Proof
end

