-- ==== Sys2Proof/WellFormed.lean ====
section
/-! DEFINITION. Which commands are well formed: every number that names a part of the device names one that exists (R12,
R56, R98, R119, R303, R344, R354, R378, R387, R392, R407), an entry has eight words (R57). -/

namespace Sys2Proof.WellFormed

/-- A frame (R12). -/
def isFrame (n : Nat) : Bool := decide (n < 4)

/-- A creel of a frame (R12). -/
def isCreel (n : Nat) : Bool := decide (n < 11)

/-- A spindle of a creel (R12). -/
def isSpindle (n : Nat) : Bool := decide (n < 12)

/-- A spindle or, as 12, the carder of a creel (R14). -/
def isUnit (n : Nat) : Bool := decide (n < 13)

/-- A Crixa core: G0 to G3, and T as 4 (R354). -/
def isCore (n : Nat) : Bool := decide (n < 5)

/-- A strand (R303). -/
def isStrand (n : Nat) : Bool := decide (1 ≤ n ∧ n ≤ 1023)

/-- A function: the manager, or a strand (R119). -/
def isFn (n : Nat) : Bool := decide (n ≤ 1023)

/-- A ring number (R56). -/
def isRing (n : Nat) : Bool := decide (n < 256)

/-- An MSI-X vector (R465). -/
def isVec (n : Nat) : Bool := decide (n < 256)

/-- A noise source (R387). -/
def isSrc (n : Nat) : Bool := decide (n < 3)

/-- A tamper source (R434). -/
def isTamperSrc (n : Nat) : Bool := decide (1 ≤ n ∧ n ≤ 0x19)

/-- A DRBG instance (R392). -/
def isInst (n : Nat) : Bool := decide (n < 6)

/-- A shuttle instance (R344). -/
def isShuttle (n : Nat) : Bool := decide (n < 8)

/-- A register slot of the digest engine (R407). -/
def isDslot (n : Nat) : Bool := decide (48 ≤ n ∧ n < 64)

/-- A requester slot of a shuttle (R353). -/
def isReqSlot (n : Nat) : Bool := decide (n < 16)

/-- A ply port (R484). -/
def isPlyPort (n : Nat) : Bool := decide (n < 2)

/-- A NumVFs value (R465). -/
def isVfCount (n : Nat) : Bool := decide (n ≤ 1023)

/-- A machine-check cause (R249). -/
def isMchkCause (n : Nat) : Bool := decide (1 ≤ n ∧ n ≤ 5)

/-- A directory index (R119). -/
def isKeyIndex (n : Nat) : Bool := decide (n < 262144)

/-- A call context (R378). -/
def isCtx (n : Nat) : Bool := decide (n < 32)

/-- A grant position of a shuttle (R346). -/
def isLane (n : Nat) : Bool := decide (n < 16)

/-- The eight words of an entry, or none with an error (R57, R65). -/
def isEntry (n : List W64) : Bool := decide (n.length = 8 ∨ n = [])

end Sys2Proof.WellFormed

namespace Sys2Proof

open WellFormed in

/-- A command is well formed. -/
def wellFormed (i : Instr) : Bool :=
  match i with
  | .sourceRestore src failing => isSrc src && failing.all isSrc
  | .drbgReseedRequest inst => isInst inst
  | .drbgReseed inst => isInst inst
  | .spoolCoalesceExpiry _ => true
  | .mirrorEntryTimeout => true
  | .firmwareTimerExpiry _ _ => true
  | .powerOn => true
  | .pwrOkLow => true
  | .perstNAssert => true
  | .perstNRelease _ => true
  | .gatherTimeout => true
  | .gatherComplete _ => true
  | .mainPowerLoss => true
  | .glbResetWrite _ => true
  | .pfFlr => true
  | .vfFlr strand => isStrand strand
  | .vfEnableClear numVfs => isVfCount numVfs
  | .failStop => true
  | .refclkLoss _ => true
  | .doorbellWrite fn ring _ _ => isFn fn && isRing ring
  | .entryFetch fn ring => isFn fn && isRing ring
  | .entryReadCompletion fn ring _ words => isFn fn && isRing ring && isEntry words
  | .dispatch frame => isFrame frame
  | .parse frame => isFrame frame
  | .admitStep _ _ => true
  | .keyFetchComplete _ _ => true
  | .nextJob frame creel unit => isFrame frame && isCreel creel && isUnit unit
  | .stageInClaim _ _ => true
  | .dmaReadCompletion _ _ _ _ _ => true
  | .computeStart _ => true
  | .fanoutAttemptEnd _ spindle _ => isSpindle spindle
  | .evDone _ _ => true
  | .seal _ _ _ => true
  | .retire _ => true
  | .hostWriteAck _ _ _ => true
  | .coalesceTimeout fn ring => isFn fn && isRing ring
  | .vectorUnmask fn vec => isFn fn && isVec vec
  | .deadlineExpiry _ => true
  | .keyExpiry owner index => isFn owner && isKeyIndex index
  | .bucketRefill strand => isStrand strand
  | .xstealWindow frame => isFrame frame
  | .waitForScan => true
  | .warmKeyTimeout frame creel spindle => isFrame frame && isCreel creel && isSpindle spindle
  | .machineCheck frame creel unit cause => isFrame frame && isCreel creel && isUnit unit && isMchkCause cause
  | .watchdogExpiry frame creel spindle => isFrame frame && isCreel creel && isSpindle spindle
  | .mchkRecoveryEnd frame creel unit => isFrame frame && isCreel creel && isUnit unit
  | .mchkWindowSweep => true
  | .cappingInterval _ _ => true
  | .gateStep => true
  | .dvfsStep frame creel => isFrame frame && isCreel creel
  | .ptcLifeCheckpoint => true
  | .spoolCheckpoint => true
  | .ringTeardownEnd fn ring => isFn fn && isRing ring
  | .drainComplete => true
  | .strandDrainEnd strand => isStrand strand
  | .keyActiveFlip owner index => isFn owner && isKeyIndex index
  | .persistRebuild _ => true
  | .hbmUncorrectableError owner index _ => isFn owner && isKeyIndex index
  | .admCfgEnable fn _ => isFn fn
  | .admCfgDisable fn => isFn fn
  | .mbxRingManager _ => true
  | .mbxRingTenant strand _ => isStrand strand
  | .strCommWrite strand _ => isStrand strand
  | .frmXstealWrite frame _ => isFrame frame
  | .hdlWtWrite _ => true
  | .shtReqWrite inst slot _ _ => isShuttle inst && isReqSlot slot
  | .pwrCrlSetWrite _ => true
  | .rngCfgWrite _ => true
  | .plyCfgWrite _ => true
  | .glbLockSet _ => true
  | .ptcBootLowRead => true
  | .mcsWinData0Read => true
  | .trcRdData0Read => true
  | .rcCounterRead _ fn _ _ _ => isFn fn
  | .registerWrite _ fn _ _ _ _ => isFn fn
  | .dgeDataWrite slot _ _ _ _ _ => isDslot slot
  | .dgeLastWrite slot _ => isDslot slot
  | .dgeCtlAbort slot _ => isDslot slot
  | .dgeCtxCfgWrite slot _ => isDslot slot
  | .digestBlockDone slot _ => isDslot slot
  | .capQuery _ => true
  | .ringCreate _ => true
  | .ringDestroy _ => true
  | .irqSet _ => true
  | .attest _ => true
  | .strandEnable _ => true
  | .strandDisable _ => true
  | .strandQuota _ => true
  | .dlogStart _ => true
  | .dlogSwap _ => true
  | .dlogStop _ => true
  | .strandSave _ => true
  | .strandRestore _ => true
  | .drain _ _ => true
  | .resume _ _ => true
  | .powerDownPrep _ _ => true
  | .deviceReset _ _ => true
  | .rawEnter _ _ => true
  | .rawRead _ => true
  | .rawExit _ _ => true
  | .imageLoad _ _ _ _ => true
  | .spoolStatus _ => true
  | .spoolPair _ => true
  | .spoolOpen _ => true
  | .spoolClose _ => true
  | .spoolRespool _ => true
  | .traceCtrl _ => true
  | .tamperCfg _ => true
  | .tamperLog _ => true
  | .tamperRelease _ => true
  | .lcTransition _ _ _ _ => true
  | .keyGenerate _ => true
  | .keyLoadPublic _ => true
  | .keyUnwrap _ => true
  | .keyWrap _ => true
  | .keyImport _ => true
  | .keyExport _ => true
  | .keyReplace _ => true
  | .keyDestroy _ => true
  | .keyPublic _ => true
  | .keyInfo _ => true
  | .keyPolicy _ => true
  | .keyPurge _ => true
  | .mlKemEncapsulate _ => true
  | .mlKemDecapsulate _ => true
  | .hqcEncapsulate _ => true
  | .hqcDecapsulate _ => true
  | .mcelieceEncapsulate _ => true
  | .mcelieceDecapsulate _ => true
  | .mlDsaSign _ => true
  | .mlDsaVerify _ => true
  | .slhDsaSign _ => true
  | .slhDsaVerify _ => true
  | .hssSign _ => true
  | .hssVerify _ => true
  | .xmssSign _ => true
  | .xmssVerify _ => true
  | .xmssMtSign _ => true
  | .xmssMtVerify _ => true
  | .hybridEncapsulate _ => true
  | .hybridDecapsulate _ => true
  | .compositeSign _ => true
  | .compositeVerify _ => true
  | .rsaEncrypt _ => true
  | .rsaDecrypt _ => true
  | .ecdhStored _ => true
  | .ecdhEphemeral _ => true
  | .x25519X448Stored _ => true
  | .x25519X448Ephemeral _ => true
  | .ffdheStored _ => true
  | .ffdheEphemeral _ => true
  | .rsaSign _ => true
  | .rsaVerify _ => true
  | .ecdsaSign _ => true
  | .ecdsaVerify _ => true
  | .eddsaSign _ => true
  | .eddsaVerify _ => true
  | .hash _ => true
  | .hmacGenerate _ => true
  | .hmacVerify _ => true
  | .kmacGenerate _ => true
  | .kmacVerify _ => true
  | .aesCmacGenerate _ => true
  | .aesCmacVerify _ => true
  | .aesEncrypt _ => true
  | .aesDecrypt _ => true
  | .chacha20Poly1305Encrypt _ => true
  | .chacha20Poly1305Decrypt _ => true
  | .tdeaEncrypt _ => true
  | .tdeaDecrypt _ => true
  | .modexp _ => true
  | .modmul _ => true
  | .modinv _ => true
  | .ecadd _ => true
  | .ecmul _ => true
  | .generate _ => true
  | .reseed _ => true
  | .customJob _ => true
  | .microWord frame creel spindle => isFrame frame && isCreel creel && isSpindle spindle
  | .microCall frame creel spindle => isFrame frame && isCreel creel && isSpindle spindle
  | .microReturn frame creel spindle => isFrame frame && isCreel creel && isSpindle spindle
  | .pieceStaged _ => true
  | .hashBegin frame creel spindle => isFrame frame && isCreel creel && isSpindle spindle
  | .absorbKey frame creel spindle => isFrame frame && isCreel creel && isSpindle spindle
  | .absorbX frame creel spindle => isFrame frame && isCreel creel && isSpindle spindle
  | .absorbInput frame creel spindle => isFrame frame && isCreel creel && isSpindle spindle
  | .absorbAux frame creel spindle => isFrame frame && isCreel creel && isSpindle spindle
  | .hashFinal frame creel spindle => isFrame frame && isCreel creel && isSpindle spindle
  | .maskedXor frame creel spindle => isFrame frame && isCreel creel && isSpindle spindle
  | .unmaskOut frame creel spindle => isFrame frame && isCreel creel && isSpindle spindle
  | .appletCall _ => true
  | .callTake ctx => isCtx ctx
  | .contextSlice core => isCore core
  | .appletTimeLimit ctx => isCtx ctx
  | .subjobCompletion _ => true
  | .tgateArrival _ => true
  | .vectorPowerDown core _ => isCore core
  | .vectorWake core => isCore core
  | .exit core => isCore core
  | .submit core => isCore core
  | .wait core => isCore core
  | .poll core => isCore core
  | .yield core => isCore core
  | .time core => isCore core
  | .random core => isCore core
  | .add core _ _ _ => isCore core
  | .sub core _ _ _ => isCore core
  | .and core _ _ _ => isCore core
  | .or core _ _ _ => isCore core
  | .xor core _ _ _ => isCore core
  | .shl core _ _ _ => isCore core
  | .shr core _ _ _ => isCore core
  | .sar core _ _ _ => isCore core
  | .mul core _ _ _ => isCore core
  | .mulhu core _ _ _ => isCore core
  | .cmp core _ _ _ => isCore core
  | .csel core _ _ _ _ => isCore core
  | .addi core _ _ _ => isCore core
  | .andi core _ _ _ => isCore core
  | .ori core _ _ _ => isCore core
  | .xori core _ _ _ => isCore core
  | .lui core _ _ _ => isCore core
  | .cmpi core _ _ _ => isCore core
  | .movi core _ _ _ => isCore core
  | .ld core _ _ _ => isCore core
  | .st core _ _ _ => isCore core
  | .ldb core _ _ _ => isCore core
  | .stb core _ _ _ => isCore core
  | .mov core _ _ _ => isCore core
  | .padd core _ _ _ => isCore core
  | .psub core _ _ _ => isCore core
  | .ptoi core _ _ _ => isCore core
  | .mkptr core _ _ _ => isCore core
  | .hadd core _ _ _ => isCore core
  | .vdmake core _ _ _ => isCore core
  | .la core _ _ _ => isCore core
  | .b core _ _ => isCore core
  | .call core _ => isCore core
  | .ret core _ => isCore core
  | .jr core _ _ _ => isCore core
  | .callr core _ _ _ => isCore core
  | .dmai core _ _ _ _ _ => isCore core
  | .dmao core _ _ _ => isCore core
  | .csrr core _ _ _ => isCore core
  | .csrw core _ _ _ => isCore core
  | .nop core _ => isCore core
  | .eret core => isCore core
  | .tgsend core _ _ _ => isCore core
  | .tgrecv core _ _ => isCore core
  | .kmint core _ _ _ => isCore core
  | .declass core _ _ => isCore core
  | .strip core _ _ _ => isCore core
  | .vloop core _ _ _ => isCore core
  | .vld core _ => isCore core
  | .vldp core _ => isCore core
  | .vst core _ => isCore core
  | .vldx core _ => isCore core
  | .vldxp core _ => isCore core
  | .vstx core _ => isCore core
  | .vadd core _ => isCore core
  | .vsub core _ => isCore core
  | .vand core _ => isCore core
  | .vor core _ => isCore core
  | .vxor core _ => isCore core
  | .vmul core _ => isCore core
  | .vwmulU core _ => isCore core
  | .vwmulS core _ => isCore core
  | .vdot4U core _ => isCore core
  | .vdot4S core _ => isCore core
  | .vdot2U core _ => isCore core
  | .vdot2S core _ => isCore core
  | .vcmpeq core _ => isCore core
  | .vcmpltu core _ => isCore core
  | .vfill core _ => isCore core
  | .vext core _ => isCore core
  | .vsum core _ => isCore core
  | .noiseSample src outs edges => isSrc src && outs.length = [32, 64, 1].getD src 0 &&
      (edges = [] || (src = 0 && edges.length = 32))
  | .sourceStartupPass src => isSrc src
  | .conditionedBlock => true
  | .frameBufferRefill frame => isFrame frame
  | .maskGeneratorReseed frame creel => isFrame frame && isCreel creel
  | .tamperEvent _ => true
  | .vigilSample _ _ => true
  | .tempSample _ _ => true
  | .shadowMismatch _ => true
  | .stateCodeInvalid _ _ => true
  | .cellRemoval => true
  | .thermTrip => true
  | .spoolPresEdge _ _ => true
  | .spoolInsert _ => true
  | .spoolRemove _ => true
  | .spoolProbeResult _ _ => true
  | .hello _ _ _ _ _ _ => true
  | .finish _ _ _ _ _ => true
  | .pair _ _ _ _ => true
  | .status _ _ _ => true
  | .read _ _ _ _ _ _ => true
  | .write _ _ _ => true
  | .commit _ _ _ _ => true
  | .list _ _ _ _ => true
  | .release _ _ _ => true
  | .close _ _ _ => true
  | .spoolLinkTimeout _ => true
  | .plyTraining port _ _ _ _ _ => isPlyPort port
  | .evPly port _ => isPlyPort port
  | .plyHeartbeatMiss port => isPlyPort port
  | .plyLinkDown port => isPlyPort port
  | .shuttleRequest inst slot _ _ _ _ _ => isShuttle inst && isReqSlot slot
  | .shuttleRelease inst lane _ => isShuttle inst && isLane lane
  | .holdCut inst lane _ => isShuttle inst && isLane lane
  | .starvation inst slot _ _ => isShuttle inst && isReqSlot slot
  | .emergencyPreempt inst _ _ => isShuttle inst
  | .ident => true
  | .state => true
  | .temp => true
  | .power => true
  | .alert => true
  | .cell => true
  | .extest => true
  | .idcode => true
  | .samplePreload => true
  | .extestPulse => true
  | .extestTrain => true
  | .bypass => true
  | .tapReset => true
  | .debugOpen _ => true
  | .tamperSourceClear src => isTamperSrc src
  | .stagingBankRelease _ => true
  | .smbusTimeout => true
  | .factoryOtpProgram _ => true
  | .factoryTestMode _ => true
  | .jtagDebugAccess core _ => isCore core
  | .atsInvalidation _ => true
  | .doeRequest _ _ => true
  | .hbmCorrectedError => true
  | .coreMemoryUncorrectable core _ => isCore core

end Sys2Proof
end

