-- ==== Sys2Proof/Decode.lean ====
section
/-! DEFINITION. The command a word spells. The device is a block: the table of commands gives no row any bits (every row's
"fixed_bits" and "fields" are empty), so no word spells a command and nothing is decoded (log 1). The instruction words of the Crixa cores, which are bits by Tables 13.7 and 13.8, are read here all the same. -/

namespace Sys2Proof

/-- The command a word spells by the bits the table gives: none, since the table gives none. -/
def decodeTableWord (_nbits _w : Nat) : Option Instr := none

/-! ## The instruction words of the Crixa cores (R366, R367, Tables 13.7 and 13.8)

The commands of the Crixa cores come decoded, one for each instruction of Table 13.8 and one for each service of SVC. Here is what a
32-bit word spells: the instruction, by OP and FUNC or VFUNC, and the fields of its format. -/

/-- The instructions of Table 13.8, each named as its command is. -/
inductive CrixaOp where
  | add | sub | and | or | xor | shl | shr | sar | mul | mulhu | cmp | csel | addi | andi | ori | xori | lui | cmpi
  | movi | ld | st | ldb | stb | la | svc | csrr | csrw | strip | vloop | mov | padd | psub | ptoi | mkptr | hadd
  | vdmake | b | call | ret | jr | callr | dmai | dmao | nop | eret | tgsend | tgrecv | kmint | declass | vld | vldp
  | vst | vldx | vldxp | vstx | vadd | vsub | vand | vor | vxor | vmul | vwmulU | vwmulS | vdot4U | vdot4S | vdot2U
  | vdot2S | vcmpeq | vcmpltu | vfill | vext | vsum
deriving DecidableEq, Repr

/-- The instruction formats (Table 13.7). -/
inductive CrixaFormat where
  | r | i | b | j | v
deriving DecidableEq, Repr

/-- OP, and FUNC or VFUNC where the format has one, of an instruction (Table 13.8); CSEL is FUNC [10:4] = 0x7F. -/
def CrixaOp.code : CrixaOp → CrixaFormat × Nat × Nat
  | .add => (.r, 0x00, 0x001)
  | .sub => (.r, 0x00, 0x002)
  | .and => (.r, 0x00, 0x003)
  | .or => (.r, 0x00, 0x004)
  | .xor => (.r, 0x00, 0x005)
  | .shl => (.r, 0x00, 0x006)
  | .shr => (.r, 0x00, 0x007)
  | .sar => (.r, 0x00, 0x008)
  | .mul => (.r, 0x00, 0x009)
  | .mulhu => (.r, 0x00, 0x00A)
  | .cmp => (.r, 0x00, 0x00B)
  | .csel => (.r, 0x00, 0x7F0)
  | .addi => (.i, 0x01, 0x000)
  | .andi => (.i, 0x02, 0x000)
  | .ori => (.i, 0x03, 0x000)
  | .xori => (.i, 0x04, 0x000)
  | .lui => (.i, 0x05, 0x000)
  | .cmpi => (.i, 0x06, 0x000)
  | .movi => (.i, 0x07, 0x000)
  | .ld => (.i, 0x08, 0x000)
  | .st => (.i, 0x09, 0x000)
  | .ldb => (.i, 0x0A, 0x000)
  | .stb => (.i, 0x0B, 0x000)
  | .la => (.i, 0x0D, 0x000)
  | .svc => (.i, 0x1C, 0x000)
  | .csrr => (.i, 0x1D, 0x000)
  | .csrw => (.i, 0x1E, 0x000)
  | .strip => (.i, 0x20, 0x000)
  | .vloop => (.i, 0x26, 0x000)
  | .mov => (.r, 0x0C, 0x000)
  | .padd => (.r, 0x0C, 0x001)
  | .psub => (.r, 0x0C, 0x002)
  | .ptoi => (.r, 0x0C, 0x003)
  | .mkptr => (.r, 0x0C, 0x004)
  | .hadd => (.r, 0x0C, 0x005)
  | .vdmake => (.r, 0x0C, 0x006)
  | .b => (.b, 0x10, 0x000)
  | .call => (.j, 0x11, 0x000)
  | .ret => (.j, 0x12, 0x000)
  | .jr => (.r, 0x13, 0x001)
  | .callr => (.r, 0x13, 0x002)
  | .dmai => (.r, 0x18, 0x001)
  | .dmao => (.r, 0x18, 0x002)
  | .nop => (.r, 0x1F, 0x000)
  | .eret => (.r, 0x1F, 0x001)
  | .tgsend => (.r, 0x1F, 0x010)
  | .tgrecv => (.r, 0x1F, 0x011)
  | .kmint => (.r, 0x1F, 0x020)
  | .declass => (.r, 0x1F, 0x021)
  | .vld => (.v, 0x21, 0x000)
  | .vldp => (.v, 0x21, 0x001)
  | .vst => (.v, 0x21, 0x002)
  | .vldx => (.v, 0x22, 0x000)
  | .vldxp => (.v, 0x22, 0x001)
  | .vstx => (.v, 0x22, 0x002)
  | .vadd => (.v, 0x24, 0x001)
  | .vsub => (.v, 0x24, 0x002)
  | .vand => (.v, 0x24, 0x003)
  | .vor => (.v, 0x24, 0x004)
  | .vxor => (.v, 0x24, 0x005)
  | .vmul => (.v, 0x24, 0x006)
  | .vwmulU => (.v, 0x24, 0x007)
  | .vwmulS => (.v, 0x24, 0x008)
  | .vdot4U => (.v, 0x24, 0x009)
  | .vdot4S => (.v, 0x24, 0x00A)
  | .vdot2U => (.v, 0x24, 0x00B)
  | .vdot2S => (.v, 0x24, 0x00C)
  | .vcmpeq => (.v, 0x25, 0x010)
  | .vcmpltu => (.v, 0x25, 0x011)
  | .vfill => (.v, 0x25, 0x020)
  | .vext => (.v, 0x25, 0x021)
  | .vsum => (.v, 0x25, 0x022)

/-- Every instruction of Table 13.8. -/
def crixaOps : List CrixaOp :=
  [.add, .sub, .and, .or, .xor, .shl, .shr, .sar, .mul, .mulhu, .cmp, .csel, .addi, .andi, .ori, .xori, .lui, .cmpi,
   .movi, .ld, .st, .ldb, .stb, .la, .svc, .csrr, .csrw, .strip, .vloop, .mov, .padd, .psub, .ptoi, .mkptr, .hadd,
   .vdmake, .b, .call, .ret, .jr, .callr, .dmai, .dmao, .nop, .eret, .tgsend, .tgrecv, .kmint, .declass, .vld, .vldp,
   .vst, .vldx, .vldxp, .vstx, .vadd, .vsub, .vand, .vor, .vxor, .vmul, .vwmulU, .vwmulS, .vdot4U, .vdot4S, .vdot2U,
   .vdot2S, .vcmpeq, .vcmpltu, .vfill, .vext, .vsum]

/-- Bits of an instruction word. -/
def crixaField (w lo n : Nat) : Nat := w / 2 ^ lo % 2 ^ n

/-- An instruction's OP, and its FUNC or VFUNC, stand in a word. -/
def CrixaOp.spelledBy (o : CrixaOp) (w : Nat) : Bool :=
  let (fmt, op, func) := o.code
  crixaField w 26 6 = op &&
    (match fmt with
     | .r => if func = 0x7F0 then crixaField w 4 7 = 0x7F else crixaField w 0 11 = func
     | .v => crixaField w 0 6 = func
     | _ => true)

/-- The instruction that a word spells; none: the encoding is undefined, and takes ILLEGAL (R367). -/
def crixaOp (w : Nat) : Option CrixaOp := crixaOps.find? (fun o => o.spelledBy w)

/-- The operand fields of a word, by the names of Table 13.7: rd (wd), ra (wa), rb (wb), IMM, cond of B and of CSEL, the offsets of
B and J, and q and EW of V. -/
structure CrixaFields where
  rd : BitVec 5
  ra : BitVec 5
  rb : BitVec 5
  imm : BitVec 16
  cond : BitVec 4
  offset22 : BitVec 22
  offset26 : BitVec 26
  q : BitVec 3
  ew : BitVec 2
deriving DecidableEq, Repr

/-- The operand fields that a word of an instruction has; those that its format lacks are 0. -/
def crixaFields (o : CrixaOp) (w : Nat) : CrixaFields :=
  let fmt := o.code.1
  let has (l : List CrixaFormat) (lo n : Nat) : Nat := if l.contains fmt then crixaField w lo n else 0
  { rd := BitVec.ofNat 5 (has [.r, .i, .v] 21 5), ra := BitVec.ofNat 5 (has [.r, .i, .v] 16 5)
    rb := BitVec.ofNat 5 (has [.r, .v] 11 5), imm := BitVec.ofNat 16 (has [.i] 0 16)
    cond := BitVec.ofNat 4 (if o = .csel then crixaField w 0 4 else has [.b] 22 4)
    offset22 := BitVec.ofNat 22 (has [.b] 0 22), offset26 := BitVec.ofNat 26 (has [.j] 0 26)
    q := BitVec.ofNat 3 (has [.v] 8 3), ew := BitVec.ofNat 2 (has [.v] 6 2) }

/-- The word of an instruction with its operand fields. -/
def crixaWord (o : CrixaOp) (f : CrixaFields) : Nat :=
  let (fmt, op, func) := o.code
  op * 2 ^ 26 +
    (match fmt with
     | .r => f.rd.toNat * 2 ^ 21 + f.ra.toNat * 2 ^ 16 + f.rb.toNat * 2 ^ 11 + func + (if o = .csel then f.cond.toNat else 0)
     | .i => f.rd.toNat * 2 ^ 21 + f.ra.toNat * 2 ^ 16 + f.imm.toNat
     | .b => f.cond.toNat * 2 ^ 22 + f.offset22.toNat
     | .j => f.offset26.toNat
     | .v => f.rd.toNat * 2 ^ 21 + f.ra.toNat * 2 ^ 16 + f.rb.toNat * 2 ^ 11 + f.q.toNat * 2 ^ 8 + f.ew.toNat * 2 ^ 6 + func)

end Sys2Proof
end

