-- ==== Sys2Proof/Config.lean ====
section
/-! DEFINITION. What one implementation fixes and the spec leaves open: the free values (opaque constants with no body,
so that no proof can see one) and the results of the published algorithms the spec names but does not contain. -/

namespace Sys2Proof.Config

/-- The n-th free byte: the random and the undefined bytes of the device, drawn by the counter `State.free` (log 2). -/
opaque freeByte : Nat → Byte

/-- The n-th free number: a cycle count or a length the spec leaves open, drawn by the counter `State.free` (log 2). -/
opaque freeNat : Nat → Nat

/-- The n-th free truth value, drawn by the counter `State.free` (log 2). -/
opaque freeBool : Nat → Bool

/-- Byte `i` of the output of the published algorithm that opcode or label `op` names, on the listed inputs (R157, log 3):
FIPS 203 to 205, RFC 8554 and the other documents of Table 6.1, FIPS 180-4, FIPS 202, SP 800-38 and SP 800-185 are not part
of the spec, so their results are functions of all their inputs and nothing more is known of them. -/
opaque algo : (op : Nat) → (inputs : List Bytes) → (i : Nat) → Byte

/-- Whether the published check that opcode or label `op` names accepts the listed inputs (a signature, a tag, a public-key
check, an authentication): a function of the inputs (R157, log 3). -/
opaque accepts : (op : Nat) → (inputs : List Bytes) → Bool

/-- The number the published algorithm `op` gives for the inputs where it gives a number and not a string: the length of a
recovered message, the number of rejection-loop attempts (R157, R165, log 3). -/
opaque count : (op : Nat) → (inputs : List Bytes) → Nat

/-- The vendor microcode's micro-word at an address: Idfezel's image is not in the spec (R257, log 4). -/
opaque vendorMicro : (version address : Nat) → BitVec 40

/-- The vendor microcode's nano-word at an address (R257, log 4). -/
opaque vendorNano : (version address : Nat) → BitVec 192

/-- The firmware and vendor microcode version fields of the release installed: minor and build; the major field is 3 (R103,
log 5). -/
opaque releaseMinor : (which : Nat) → BitVec 24

/-- Where the firmware of a Crixa core handles its traps: firmware is not in the spec (R365, log 14). -/
opaque trapHandler : (core : Nat) → W64

/-- The Idfezel certificate of the device identity, which HELLO carries: its layout is not in the spec (R286, log 10). -/
opaque deviceCert : Bytes

/-- The address of a core's memory that an offset of its debug window shows: the windows' layout is not in the spec (R486,
log 69). -/
opaque debugAddr : (core offset : Nat) → Nat

/-- Whether the vigil's uncalibrated clock ticks within a microsecond of PTC_BOOT: its rate is not fixed (R446, log 73). -/
opaque vigilTick : (now : Nat) → Bool

/-- The conditioner's 256-bit key, which is fixed in ROM (R390, log 3). -/
opaque conditionKey : List (BitVec 8)

end Sys2Proof.Config
end

