-- ==== Sys2Proof/Machine/State.lean ====
section
/-! DEFINITION. The state of the device as plain data: every register, queue, buffer, counter and pin the spec gives the
AKN-9528, and the queue of the commands that wait. Each field's docstring gives what it is, its width, the rule and file of
spec/ that name it, and its value in `State.reset` where that is not the default written after it. A field's default value
IS its reset value. -/

namespace Sys2Proof.Machine

/-! ## What a step can stop with -/

/-- The reasons a step can stop with a fault. No command of this device stops the model: an access the hardware refuses has
an answer on the bus (`HostIf.ur`), an error of a job has a status, and a failed power-up enters HALTED. -/
inductive Fault where
  /-- Raised by nothing: kept so that the type is closed and inhabited. Safe. -/
  | unreachable
deriving DecidableEq, Repr

/-- The reasons a step can be refused. -/
inductive Refusal where
  /-- Raised by an arm of `exec` that has no meaning yet. Safe: no statement about such a command can be proved. -/
  | notModelled (mnemonic : String)
deriving DecidableEq, Repr

/-! ## Modes, power, time -/

/-- How far the power-up sequence has come (R46). -/
inductive Phase where
  | vigil | held | kindle | gather | running
deriving DecidableEq, Repr

/-- What a drain is for (R33, R108, R109, R111, R112, R429). -/
inductive DrainFor where
  | none | standalone | powerDown | update | raw | lifeCycle
deriving DecidableEq, Repr

/-- The GLB_ block's registers and the conditions behind GLB_MODE (R32 to R54). -/
structure Glb where
  /-- power-up phase; the model's own view of Table 2.7; R46 02 (log 7: held, PERST_N asserted) -/
  phase : Phase := .held
  /-- GLB_MODE.MODE, 8 bits; R42 02 -/
  mode : Byte := 0x33
  /-- GLB_MODE.PREV, 8 bits; R42 02 -/
  prev : Byte := 0
  /-- GLB_MODE.HALT_CAUSE, 8 bits; R42 02 -/
  haltCause : Byte := 0
  /-- condition ZEROIZED, 1 bit; R34 02 -/
  zeroized : Bool := false
  /-- condition HALTED, 1 bit; R34 02 -/
  halted : Bool := false
  /-- condition DEBUG, 1 bit; R34 02 -/
  debug : Bool := false
  /-- condition RAW, 1 bit; R34 02 -/
  raw : Bool := false
  /-- condition UPDATE, 1 bit; R34 02 -/
  update : Bool := false
  /-- condition UNSEEDED, 1 bit; R34 02 -/
  unseeded : Bool := false
  /-- condition DRAIN and what it is for; R34, R108 02/04 -/
  drain : DrainFor := .none
  /-- the drain in force beside that of a life-cycle transition; R34 02, R429 16 -/
  drainUnder : DrainFor := .none
  /-- GLB_KINDLE_STS.FAIL, 8 bits; R42 02 -/
  fail : Byte := 0
  /-- GLB_KINDLE_STS.STEP, 4 bits; R42 02 -/
  step : BitVec 4 := 0
  /-- GLB_KINDLE_STS.CAUSE, 4 bits; R42 02 -/
  cause : BitVec 4 := 0
  /-- GLB_KINDLE_STS.FROZEN, 1 bit; R42 02 -/
  frozen : Bool := false
  /-- GLB_KINDLE_STS.EPOCH_NEW, 1 bit; R42 02 -/
  epochNew : Bool := false
  /-- GLB_KINDLE_STS.ZEROIZED_IN_VIGIL, 1 bit; R42 02 -/
  zeroizedInVigil : Bool := false
  /-- GLB_KINDLE_STS.LC_RESUMED, 1 bit; R42 02 -/
  lcResumed : Bool := false
  /-- GLB_KINDLE_STS.FIRST_START, 1 bit; R42 02 -/
  firstStart : Bool := false
  /-- GLB_KINDLE_STS.DRS_SLOT, 1 bit; R42 02 -/
  drsSlot : Bool := false
  /-- GLB_KINDLE_STS.DRS_SLOT0_SPOILED, 1 bit; R42 02 -/
  drsSlot0Spoiled : Bool := false
  /-- GLB_KINDLE_STS.CREEL_HELD, 1 bit; R42 02 -/
  creelHeld : Bool := false
  /-- GLB_LOCK.LOCK, 1 bit; R481 19 -/
  lock : Bool := false
  /-- GLB_PTC_BOOT, 64 bits; R51 02 -/
  ptcBoot : W64 := 0
  /-- upper half latched by a 4-byte read of PTC_BOOT, 32 bits; R51 02 -/
  ptcBootLatch : W32 := 0
  /-- GLB_PTC_LIFE [31:0], 32 bits; R52 02 -/
  ptcLife : W32 := 0
  /-- PTC_BOOT at which PTC_LIFE was last counted up, 64 bits; R52 02 -/
  lifeAt : W64 := 0
  /-- GLB_BOOTS, 32 bits; R53 02 -/
  boots : W32 := 0
  /-- GLB_TIME_STS.BOOTS_RESTARTED, 1 bit; R42 02 -/
  bootsRestarted : Bool := false
  /-- GLB_TIME_STS.LIFE_SRC, 2 bits; R42 02 -/
  lifeSrc : BitVec 2 := 0
  /-- GLB_TIME_STS.OSC_USED, 1 bit; R42 02 -/
  oscUsed : Bool := false
  /-- GLB_TIME_STS.OSC, 1 bit; R42 02 -/
  osc : Bool := false
  /-- the point of this boot from which rings are accepted has been reached, 1 bit; R37 02 -/
  ringsOpen : Bool := false
  /-- storage root available (KST_STS.ROOT), 1 bit; R483 19 -/
  root : Bool := false
  /-- a zeroize took place in this boot (attestation FLAGS [2]), 1 bit; R155 05 -/
  zeroizedThisBoot : Bool := false
  /-- DEBUG was entered in this boot (attestation FLAGS [3]), 1 bit; R155 05 -/
  debugThisBoot : Bool := false
  /-- STARTUP of the entropy island has ended in this boot, 1 bit; R406 14 -/
  seededThisBoot : Bool := false
  /-- the reset that will be CAUSE of the next KINDLE, 4 bits; R42 02 -/
  nextCause : BitVec 4 := 0
  /-- a device reset is due (DEVICE_RESET completed, or a life-cycle step t6), 1 bit; R110 04 -/
  resetDue : Bool := false
  /-- the command whose completion starts that reset; R110 04 -/
  resetJob : Option Nat := none
  /-- every clock but the vigil's is stopped (THERM_TRIP_N low), 1 bit; R476 18 -/
  tripped : Bool := false
  /-- vigil RAM was valid at t2 of this boot, 1 bit; the model's; R52 02 -/
  vigilSeen : Bool := false
  /-- vigil RAM held a PTC_LIFE checkpoint at t2 of this boot, 1 bit; the model's; R52 02 -/
  lifeSeen : Bool := false
  /-- FAIL codes of earlier KINDLE failures whose cause is not known to be removed; the model's, kept through every reset; R48 02 -/
  failCauses : List Byte := []
  /-- commands waiting in DRAIN for its end, newest last, a list; R108 04 -/
  drainWaiters : List Nat := []
deriving DecidableEq, Repr

/-- The pins and rails as the model sees them (R447, R448, R463, R464, R468, R476). -/
structure Pins where
  /-- main power present, 1 bit; R464 18 (log 7) -/
  mainPower : Bool := true
  /-- PWR_OK, 1 bit; R463 18 (log 7) -/
  pwrOk : Bool := true
  /-- PERST_N asserted, 1 bit; R43 02 (log 7) -/
  perst : Bool := true
  /-- the vigil runs from VBAT, 1 bit; R464 18 -/
  onCell : Bool := false
  /-- backup cell fitted, 1 bit; R445 17 (log 7) -/
  cell : Bool := true
  /-- REFCLK present, 1 bit; R51 02 (log 7) -/
  refclk : Bool := true
  /-- supply and clock comparators armed, 1 bit; R435 17 -/
  armed : Bool := false
  /-- ALARM_N low, 1 bit; R448 17 -/
  alarm : Bool := false
  /-- TAMPER_OUT_N low, 1 bit; R448 17 -/
  tamperOut : Bool := false
  /-- THERM_TRIP_N low, 1 bit; R476 18 -/
  thermTrip : Bool := false
deriving DecidableEq, Repr

/-! ## The host link -/

/-- A transaction the device sends to the host, in order (log 10). -/
inductive HostMsg where
  /-- A write of `data` at `addr` in the address space of function `fn`. -/
  | write (fn addr : Nat) (data : Bytes)
  /-- The read-modify-write of a dirty bitmap word in the PF's space: the bits of `mask` are set (R322). -/
  | dlogOr (addr : Nat) (mask : W64)
  /-- A read request of `len` bytes at `addr` in the space of function `fn`. -/
  | readReq (fn addr len : Nat)
  /-- An MSI-X message of vector `vec` of function `fn`. -/
  | msix (fn vec : Nat)
deriving DecidableEq, Repr

/-- One MSI-X table entry (R477; PCIe 6.0 layout). -/
structure MsixVec where
  /-- message address, 64 bits; R477 19 (log 9) -/
  addr : W64 := 0
  /-- message data, 32 bits; R477 19 (log 9) -/
  data : W32 := 0
  /-- vector control, bit 0 = masked, 32 bits; R477 19 (log 9: masked) -/
  ctrl : W32 := 1
deriving DecidableEq, Repr

/-- A notice whose record has been written and whose N_HEAD has not (R319). -/
structure NoticeOut where
  /-- strand, 0 to 1023; R319 11 -/
  fn : Nat
  /-- N_HEAD value after the notice, 32 bits; R319 11 -/
  head : W32
  /-- the record write is acknowledged, 1 bit; R319 11 -/
  acked : Bool := false
deriving DecidableEq, Repr

/-- The host interface (R465, R477, R482). -/
structure HostIf where
  /-- HST_LINK.WIDTH, 8 bits; R482 19 -/
  width : Byte := 0
  /-- HST_LINK.FLIT, 1 bit; R482 19 -/
  flit : Bool := false
  /-- HST_LINK.IDE, 1 bit; R482 19 -/
  ide : Bool := false
  /-- HST_LINK.SEL_IDE, 3 bits; R482 19 -/
  selIde : BitVec 3 := 0
  /-- HST_LINK.SPEED, 3 bits; R482 19 -/
  speed : BitVec 3 := 0
  /-- HST_ERR, 4 bits used; R482 19 -/
  err : BitVec 4 := 0
  /-- HST_CNT_DMAERR, 32 bits; R482 19 -/
  cntDmaErr : W32 := 0
  /-- HST_ATS.INVAL, 6 bits; R482 19 -/
  atsInval : Nat := 0
  /-- VFs enabled in SR-IOV, 0 to 1023; R305 11 -/
  numVfs : Nat := 0
  /-- MSI-X tables, vector v of function f at 256 f + v; R477 19 -/
  msix : Tbl MsixVec := []
  /-- PBA bits that are set, vector v of function f at 256 f + v; R477 19 -/
  pba : Tbl Bool := []
  /-- transactions sent to the host, oldest first, a list; the model's log of R77 03 (log 10) -/
  out : List HostMsg := []
  /-- data of the last read that has an effect, 64 bits; the model's (log 10) -/
  lastRead : W64 := 0
  /-- the last access completed as an Unsupported Request, 1 bit; R8 00 -/
  ur : Bool := false
  /-- the last access of configuration space was answered with Request Retry Status, 1 bit; R37 02 -/
  rrs : Bool := false
  /-- BAR0 setting of the PF, 64 bits; R44 02 (log 126: 0) -/
  bar0 : W64 := 0
  /-- BAR2 setting of the PF, 64 bits; R44 02 (log 126: 0) -/
  bar2 : W64 := 0
  /-- Command register of the PF, 16 bits; R44 02 (log 126: 0) -/
  command : BitVec 16 := 0
  /-- notices whose N_HEAD is still to be written, oldest first, a list; R319 11 -/
  notices : List NoticeOut := []
deriving DecidableEq, Repr

/-- The registers of one function's BAR0 page (R90, R92, R317, R327). -/
structure FnPage where
  /-- FN_STS.HALTED, 1 bit; R90 03 -/
  halted : Bool := false
  /-- FN_FAULT, 64 bits; R90 03 -/
  fault : W64 := 0
  /-- FN_DB_DROP, 32 bits; R90 03 -/
  dbDrop : W32 := 0
  /-- STR_LATE, 32 bits; R327 11 -/
  late : W32 := 0
  /-- ADM_BASE, 64 bits; R92 04 -/
  admBase : W64 := 0
  /-- ADM_CFG without DESTROYING, 32 bits; R92 04 -/
  admCfg : W32 := 0
  /-- MBX_STS, 2 bits used; R317 11 -/
  mbxSts : BitVec 2 := 0
deriving DecidableEq, Repr

/-! ## OTP, vigil RAM, tamper -/

/-- A 256-bit OTP slot with its 8-bit valid field (R49, R270). -/
structure OtpSlot where
  /-- 256 data bits, low first; R49 02 (log 7: blank) -/
  data : Bytes := []
  /-- valid field, 8 bits; R49 02 (log 7: blank) -/
  valid : Byte := 0
deriving DecidableEq, Repr

/-- Antifuse OTP (R49, R270, R426, R437). An unprogrammed device: every bit 0 (log 7). -/
structure Otp where
  /-- SCHEME, 8 bits; R426 16 (log 7) -/
  scheme : Byte := 0
  /-- INTENT_k, 8 bits each, k = 1 to 4; R426 16 (log 7) -/
  intent : Tbl Byte := []
  /-- STATE_k, 8 bits each; R426 16 (log 7) -/
  state : Tbl Byte := []
  /-- DONE_k, 8 bits each; R426 16 (log 7) -/
  done : Tbl Byte := []
  /-- TOKEN_k, 32 bytes each, absent = all zeros; R426 16 (log 7) -/
  token : Tbl Bytes := []
  /-- DRS slot 0; R49 02 (log 7) -/
  drs0 : OtpSlot := {}
  /-- DRS slot 1; R49 02 (log 7) -/
  drs1 : OtpSlot := {}
  /-- integrator key slot 0; R270 09 (log 7) -/
  ikey0 : OtpSlot := {}
  /-- integrator key slot 1; R270 09 (log 7) -/
  ikey1 : OtpSlot := {}
  /-- TMP_FUSE, 32 bits; R437 17 (log 7) -/
  fuse : W32 := 0
deriving DecidableEq, Repr

/-- One entry of the tamper configuration (R440). -/
structure TmpEntry where
  /-- RESP, 2 bits; R440 17 -/
  resp : BitVec 2
  /-- N, 1 to 15; R440 17 -/
  n : Nat := 1
  /-- W in vigil ticks; R440 17 -/
  w : Nat := 0
deriving DecidableEq, Repr

/-- One tamper-log record (R449). -/
structure TmpRec where
  /-- SEQ, 32 bits; R449 17 -/
  seq : W32
  /-- SOURCE, 8 bits; R449 17 -/
  source : Byte
  /-- RESP, 8 bits; R449 17 -/
  resp : Byte
  /-- FLAGS, 16 bits; R449 17 -/
  flags : BitVec 16
  /-- BOOTS, 32 bits; R449 17 -/
  boots : W32
  /-- PTC_LIFE, 32 bits; R449 17 -/
  life : W32
  /-- PTC_BOOT, 64 bits; R449 17 -/
  boot : W64
  /-- GROUP, 32 bits; R449 17 -/
  group : W32
  /-- DETAIL, 32 bits; R449 17 -/
  detail : W32
deriving DecidableEq, Repr

/-- Vigil RAM: what survives loss of main power while the cell or VDD_IO18 holds it (R52, R53, R132, R137, R285, R440, R449). -/
structure Vigil where
  /-- vigil RAM valid, 1 bit; R445 17 (log 7: lost) -/
  valid : Bool := false
  /-- BOOTS checkpoint, 32 bits; R53 02 -/
  boots : W32 := 0
  /-- a BOOTS value has been written since vigil RAM was lost, 1 bit; R53 02 -/
  bootsOk : Bool := false
  /-- BOOTS has been provisional since vigil RAM was lost: no t11 has fixed it yet, 1 bit; R53 02 (log 125) -/
  bootsProv : Bool := false
  /-- PTC_LIFE checkpoint, 32 bits; R52 02 -/
  life : W32 := 0
  /-- a PTC_LIFE checkpoint has been written since vigil RAM was lost, 1 bit; R52 02 -/
  lifeOk : Bool := false
  /-- epoch nonce, 256 bits, when present; R132 05 -/
  nonce : Option Bytes := none
  /-- number of the storage-root epoch (distinguishes roots without showing them), the model's; R132 05 -/
  rootEpoch : Nat := 0
  /-- FREEZE latch, 1 bit; R41 02 -/
  freeze : Bool := false
  /-- a zeroize took place on the cell, 1 bit; R444 17 -/
  zeroized : Bool := false
  /-- sources whose ALARM waits for TMP_EVT at t2, 32 bits; R444 17 -/
  alarms : W32 := 0
  /-- vigil ticks at a zeroize in VIGIL, while TAMPER_OUT_N is still low; R444 17 (log 145) -/
  outTicks : Option Nat := none
  /-- T_LOW in °C; R435 17 -/
  tLow : Int := -30
  /-- T_HIGH in °C; R435 17 -/
  tHigh : Int := 115
  /-- MFP_ENCL, 1 bit; R440 17 -/
  mfpEncl : Bool := false
  /-- COUNT_EN, 1 bit; R440 17 -/
  countEn : Bool := false
  /-- configured entries that differ from Table 17.1's defaults, by source; R440 17 -/
  entries : Tbl TmpEntry := []
  /-- ticks of the counted events in each source's window, newest last; R446 17 -/
  counting : Tbl (List Nat) := []
  /-- vigil tick count, the model's (paces W only); R446 17 -/
  ticks : Nat := 0
  /-- the records retained, oldest first, at most 512; R449 17 -/
  log : List TmpRec := []
  /-- next SEQ, 32 bits; R449 17 -/
  logSeq : W32 := 0
  /-- sources whose last logged change was to active, 32 bits; R436 17 -/
  logged : W32 := 0
  /-- serial of the primary spool, when one is named; R285 10 -/
  primSerial : Option Bytes := none
  /-- SW_SEQ of the primary; R285 10 -/
  primSwSeq : Nat := 0
  /-- last commit number of the primary; R288 10 -/
  primCommit : Nat := 0
  /-- DWK wrap counts by function, 32 bits each; R137 05 -/
  dwkWraps : Tbl Nat := []
deriving DecidableEq, Repr

/-- The tamper block's live state (R434 to R452). -/
structure Tmp where
  /-- TMP_STS.STATE, 8 bits; R452 17 -/
  state : Byte := 0x3C
  /-- TMP_STS.ACTIVE, 32 bits; R452 17 -/
  active : W32 := 0
  /-- TMP_EVT, 32 bits; R452 17 -/
  evt : W32 := 0
  /-- TMP_TEMP.DET_A, signed 0.1 °C; R452 17 -/
  detA : Int := 0
  /-- TMP_TEMP.DET_B, signed 0.1 °C; R452 17 -/
  detB : Int := 0
  /-- consecutive samples in which the detectors disagree; R435 17 -/
  disagree : Nat := 0
  /-- consecutive wrong samples of the mesh, enclosure, light and shield sources; R435 17 -/
  wrong : Tbl Nat := []
  /-- TMP_VBAT.PRESENT, 1 bit; R452 17 -/
  vbatPresent : Bool := false
  /-- PTC_BOOT from which ENCL4 to 7 are sampled; R447 17 -/
  enclFrom : Nat := 0
  /-- TMP_VBAT.MV, 16 bits; R452 17 -/
  vbatMv : Nat := 0
  /-- values have been loaded at t2 of this KINDLE, 1 bit; R452 17 -/
  loaded : Bool := false
deriving DecidableEq, Repr

/-- A life-cycle transition in progress on core T (R429). -/
structure LcRun where
  /-- job of LC_TRANSITION; R429 16 -/
  job : Nat
  /-- target ordinal k; R429 16 -/
  target : Nat
  /-- last step done: 0 token, 1 drained, 2 intent, 3 erased, 4 state; R429 16 -/
  at_ : Nat
deriving DecidableEq, Repr

/-- The LCS_ block (R432): values loaded at t1 and the transition in progress. -/
structure Lcs where
  /-- LCS_STATE.STATE, 8 bits; R432 16 -/
  state : Byte := 0
  /-- LCS_STATE.SCHEME, 8 bits; R432 16 -/
  scheme : Byte := 0
  /-- LCS_STATE.PENDING, 8 bits; R432 16 -/
  pending : Byte := 0
  /-- ordinal of the state in force (the model's), 0 to 4; R427 16 -/
  ordinal : Nat := 0
  /-- LCS_ACCESS, 12 bits used; R432 16 -/
  access : BitVec 12 := 0
  /-- LCS_STS.TOKENS, 4 bits; R432 16 -/
  tokens : BitVec 4 := 0
  /-- LCS_STS.RESUMED, 1 bit; R432 16 -/
  resumed : Bool := false
  /-- LCS_STS.FAILS, 8 bits; R432 16 -/
  fails : Byte := 0
  /-- transition in progress; R429 16 -/
  run : Option LcRun := none
  /-- a stopped transition waits for the next KINDLE, 1 bit; R429 16 -/
  stopped : Bool := false
deriving DecidableEq, Repr

/-! ## Rings -/

/-- A job ring, an administrative ring or a trace mirror ring (R55, R98, R62). -/
structure Ring where
  /-- BASE, 64 bits; R98 04 -/
  base : W64
  /-- LOG2_SIZE, 4 to 16; R98 04 -/
  log2 : Nat
  /-- KIND 1: trace mirror ring; R98 04 -/
  mirror : Bool := false
  /-- CEIL, 0 to 3; R98 04 -/
  ceil : Nat := 3
  /-- OGRP, 12 bits; R98 04 -/
  ogrp : Nat := 0
  /-- VEC, 8 bits; R82 03 -/
  vec : Nat := 0
  /-- CNT, 1 to 256; R82 03 -/
  cnt : Nat := 1
  /-- TMO in µs, 12 bits; R82 03 -/
  tmo : Nat := 0
  /-- home frame, 0 to 3; R231 08 -/
  home : Nat := 0
  /-- firmware major version in force at creation, 8 bits; R99 04 -/
  fwMajor : Nat := 3
  /-- doorbell TAIL, 32 bits; R62 03 -/
  tail : W32 := 0
  /-- doorbell DONE, 32 bits; R62 03 -/
  done : W32 := 0
  /-- count of entries whose read has been issued, 32 bits; R64 03 -/
  fetched : W32 := 0
  /-- counts of entries whose read is outstanding, oldest first; R65 03 -/
  reading : List Nat := []
  /-- entries read and not yet made part of a token: count and the eight words; R68 03 -/
  held : List (Nat × List W64) := []
  /-- doorbells still to give a deadline base: TAIL written and PTC_BOOT then; R73 03 -/
  bells : List (W32 × W64) := []
  /-- spans of entries written back beyond DONE: start count and number; R80 03 -/
  spans : List (W32 × Nat) := []
  /-- pending completions for the interrupt; R82 03 -/
  pendIrq : Nat := 0
  /-- coalescing timer running, 1 bit; R82 03 -/
  timer : Bool := false
  /-- being destroyed, 1 bit; R100 04 -/
  destroying : Bool := false
deriving DecidableEq, Repr

/-- A token of a ready list, or its entries in a frame's parse buffer (R329, R330). -/
structure Token where
  /-- owning function; R329 12 -/
  fn : Nat
  /-- ring; R329 12 -/
  ring : Nat
  /-- class after the ceiling; R330 12 -/
  cls : Nat
  /-- count of the first entry; R329 12 -/
  start : Nat
  /-- the chain's entries, eight words each; R68 03 -/
  entries : List (List W64)
  /-- PTC_BOOT of the doorbell that first covered the last entry; R73 03 -/
  bellAt : W64
deriving DecidableEq, Repr

/-! ## Keys -/

/-- The policy block of a key (R123). -/
structure Policy where
  /-- OPS, 16 bits; R123 05 -/
  ops : BitVec 16 := 0
  /-- FLAGS, 16 bits; R123 05 -/
  flags : BitVec 16 := 0
  /-- MASK, 8 bits; R123 05 -/
  mask : Nat := 0
  /-- FANOUT, 8 bits; R123 05 -/
  fanout : Nat := 0
  /-- MAX_USES, 64 bits; R123 05 -/
  maxUses : Nat := 0
  /-- NOT_BEFORE, 32 bits; R123 05 -/
  notBefore : Nat := 0
  /-- NOT_AFTER, 32 bits; R123 05 -/
  notAfter : Nat := 0
deriving DecidableEq, Repr

/-- A replacement in progress (R141, Table 5.10); its shadow's run is the inactive half's. -/
structure Replacing where
  /-- the KEY_REPLACE job, 0 for a replacement that runs on the ply partner; R141 05 -/
  job : Nat
  /-- step of Table 5.10: 0 t0 done, at admission, 1 waits for the record of the spool, 2 the shadow is filled, 3 waits for the mirror,
  4 waits for the spool, 5 waits for the flip, 6 waits for the old half; R141 05 -/
  step : Nat
  /-- shadow half: private material; R141 05 -/
  mat : Bytes
  /-- shadow half: public key; R141 05 -/
  pub : Bytes
  /-- shadow half: CHECK field; R141 05 -/
  check : Bytes
deriving DecidableEq, Repr

/-- A key object: its header entry, its active half and its cache state (R122, R123, R128, R130, R145). -/
structure KeyObj where
  /-- identity that distinguishes a slot's successive keys; the model's; R149 05 -/
  uid : Nat
  /-- TYPE, 8 bits; R122 05 -/
  type : Nat
  /-- stored private form; R122 05 -/
  mat : Bytes := []
  /-- public key; R122 05 -/
  pub : Bytes := []
  /-- LEN, stored material bytes per half, 32 bits; R128 05 -/
  len : Nat := 0
  /-- POLICY; R128 05 -/
  policy : Policy := {}
  /-- USES, 64 bits; R126 05 -/
  uses : Nat := 0
  /-- RESERVED, uses reserved at admission; R126 05 -/
  reserved : Nat := 0
  /-- NEXT, 64 bits; R145 05 -/
  next : Nat := 0
  /-- CEIL, 64 bits; R145 05 -/
  ceil : Nat := 0
  /-- BURNED, 64 bits; R145 05 -/
  burned : Nat := 0
  /-- one-time signatures of the key, the last index plus 1; R145 05 -/
  last : Nat := 0
  /-- the first use after KINDLE has been made, 1 bit; R148 05 -/
  opened : Bool := false
  /-- signing frozen by STRAND_SAVE, 1 bit; R324 11 -/
  savedAway : Bool := false
  /-- a reservation commit is in flight for this new CEIL; R146 05 -/
  resvTo : Option Nat := none
  /-- CHECK, 32 bytes; R128 05 -/
  check : Bytes := []
  /-- SPOOL_REC: record number and version, when PERSIST; R128 05 -/
  spoolRec : Option (Nat × Nat) := none
  /-- UNUSABLE, 1 bit; R131 05 -/
  unusable : Bool := false
  /-- ACTIVE, 0 = half A; R128 05 -/
  active : Bool := false
  /-- replacement in progress (SHADOW_PENDING); R141 05 -/
  repl : Option Replacing := none
  /-- marked expired by its NOT_AFTER entry, 1 bit; R125 05 -/
  expired : Bool := false
  /-- the header's entry of the key table; R128 05 (log 137) -/
  hdr : Nat := 0
  /-- HALF_A: first entry of the run that holds half A; none: it has no run; R128 05 (log 137) -/
  halfA : Option Nat := some 0
  /-- HALF_B: as HALF_A; R128 05 -/
  halfB : Option Nat := none
  /-- material that is not in the key table lies in the fill buffer, 1 bit; R129, R130 05 -/
  inBuffer : Bool := false
  /-- the record of SPOOL_REC is on the spool and current, 1 bit; R129 05 -/
  recOk : Bool := false
  /-- a reset interrupted a replacement in t4: the records of the spool decide, 1 bit; R143 05 -/
  commitDue : Bool := false
  /-- last-level tree whose nodes, with the paths above it, the cached form holds; of XMSS, the index its traversal state stands
  at; R186 06 -/
  tree : Option Nat := none
  /-- cached form held in the key cache, 1 bit; R130 05 -/
  cached : Bool := false
  /-- last use, for least-recently-used eviction; the model's clock; R130 05 -/
  lru : Nat := 0
  /-- wraps made under this key-encryption key, 32 bits; R137 05 -/
  wraps : Nat := 0
  /-- parameter list of the type: stateful codes, RSA sizes, FFDHE group, secret length; R122, R183 05/06 -/
  param : List Nat := []
  /-- messages encrypted under the key with GEN_IV; R221 07 -/
  genIvs : Nat := 0
  /-- MAC function whose state set the cached form holds, 0 none, p HMAC, 16 + p KMAC; R130 05 -/
  macFn : Nat := 0
deriving DecidableEq, Repr

/-- The key store (R119 to R156, R483). Directory slots are numbered 262,144 × owner + INDEX. -/
structure Kst where
  /-- key objects by directory slot; R120 05 -/
  keys : Tbl KeyObj := []
  /-- EPOCH of each directory slot, 4 bits; R119 05 -/
  epoch : Tbl (BitVec 4) := []
  /-- quarantined slots; R150 05 -/
  quarantine : Tbl Bool := []
  /-- destroyed keys whose last jobs have not retired; R149 05 -/
  dying : List (Nat × KeyObj) := []
  /-- next uid; the model's -/
  nextUid : Nat := 1
  /-- clock of the least-recently-used order; the model's -/
  clock : Nat := 0
  /-- KST_CNT_MISS_HBM, 32 bits; R483 19 -/
  cntMissHbm : W32 := 0
  /-- KST_CNT_MISS_SPOOL, 32 bits; R483 19 -/
  cntMissSpool : W32 := 0
  /-- KST_CNT_EVICT, 32 bits; R483 19 -/
  cntEvict : W32 := 0
  /-- KST_STS.REBUILD, 1 bit; R483 19 -/
  rebuild : Bool := false
  /-- a rebuild is due once a primary is open, 1 bit; the model's; R292 10 -/
  rebuildDue : Bool := false
  /-- slots named by KEY records not yet rebuilt; R488 05 -/
  claimed : Tbl (BitVec 4) := []
  /-- RECNOs of the spool records of keys that a save has frozen, until KEY_PURGE; R324 11 (log 146) -/
  frozenRecs : List Nat := []
  /-- tombstones awaiting their commit: slot and the KEY_DESTROY job; R149 05 -/
  tombs : List (Nat × Nat) := []
deriving DecidableEq, Repr

/-! ## Jobs -/

/-- Why a job waits at S3 (R229, R146, R94, R95, R115). -/
inductive Wait where
  | randomness | inflight | token | index | spoolKey | cache | tgate | header
deriving DecidableEq, Repr

/-- Where a job is (R21, R329). -/
inductive Stage where
  /-- parsed, at S3, not yet admitted -/
  | s3
  /-- waits at S3 -/
  | waiting (why : Wait)
  /-- dealt to the deque of creel c of frame f -/
  | deque (frame creel : Nat)
  /-- S4: claims held, data staged -/
  | s4
  /-- S5: computing -/
  | s5
  /-- compute ended; the unit keeps the job until S6 takes it -/
  | ended
  /-- raised to service firmware (class F) or core T (class 5) -/
  | firmware
  /-- an APPLET call in the call queue -/
  | called
  /-- an APPLET call in a context -/
  | applet (ctx : Nat)
  /-- in S6 -/
  | s6
  /-- sealed, waits for S7 -/
  | s7wait
  /-- held for its ordering group -/
  | held
  /-- S7 write-back, step of R77 begun -/
  | s7 (step : Nat)
deriving DecidableEq, Repr

/-- An extent of a buffer (R58). -/
structure Ext where
  /-- KIND, 0 input, 1 output, 2 auxiliary; R59 03 -/
  kind : Nat
  /-- address, 64 bits; R58 03 -/
  addr : Nat
  /-- length, 32 bits; R58 03 -/
  len : Nat
deriving DecidableEq, Repr

/-- One fan-out spindle of a job (R245). -/
structure Fan where
  /-- spindle; R244 08 -/
  spn : Nat
  /-- attempt number, none when it has stopped; R245 08 -/
  attempt : Option Nat
  /-- its attempt was accepted, 1 bit; R245 08 -/
  accepted : Bool := false
deriving DecidableEq, Repr

/-- A transaction of a job's write-back that the host link has not acknowledged (R77, R487). -/
inductive HostWait where
  /-- a write of output data: its address and length -/
  | data (addr len : Nat)
  /-- a write of an entry of the chain, 0 the head -/
  | entry (i : Nat)
  /-- the read of a word of the dirty bitmap, and the bits to set in it -/
  | bitRead (addr : Nat) (mask : W64)
  /-- the write of such a word once it has been read, and whether it has been issued -/
  | bitWrite (addr : Nat) (mask : W64) (sent : Bool)
deriving DecidableEq, Repr

/-- One of an applet image's records (R376). -/
structure AppletRec where
  /-- START, code offset, 32 bits; R376 13 -/
  start : Nat
  /-- ENTRIES, 0 = absent; R376 13 -/
  entries : Nat
  /-- FORERUNNER, 1 bit; R376 13 -/
  forerunner : Bool
  /-- TLIM in µs; R376 13 -/
  tlim : Nat
deriving DecidableEq, Repr

/-- An applet image in force (R376). -/
structure AppletImg where
  /-- AVER, 32 bits; R376 13 -/
  aver : Nat
  /-- the sixteen applet records; R376 13 -/
  recs : List AppletRec
  /-- code bytes; R376 13 -/
  code : Bytes
deriving DecidableEq, Repr

/-- A job from S2 on: what its entries say, what S3 tagged it with, what it holds, and its result (R57 to R61, R309). -/
structure Job where
  /-- owning function; R57 03 -/
  fn : Nat
  /-- ring; R57 03 -/
  ring : Nat
  /-- count of the head entry; R56 03 -/
  start : Nat
  /-- entries of the chain, 1 to 16; R68 03 -/
  n : Nat
  /-- SEQ, 16 bits; R57 03 -/
  seq : BitVec 16
  /-- OPCODE, 16 bits; R57 03 -/
  opcode : Nat
  /-- CLASS after the ceiling; R74 03 -/
  cls : Nat
  /-- ORDER, 1 bit; R57 03 -/
  order : Bool
  /-- IRQ, 1 bit; R57 03 -/
  irq : Bool
  /-- head words 1 to 6 as read; R57 03 -/
  words : List W64
  /-- extents in chain order; R58 03 -/
  exts : List Ext
  /-- absolute deadline in µs of PTC_BOOT; R73 03 -/
  deadline : Option Nat
  /-- generation tagged at admission, 16 bits; R309 11 -/
  gen : BitVec 16
  /-- stage; R21 01 -/
  stage : Stage := .s3
  /-- S3 has tagged the job, 1 bit; R241 08 -/
  tagged : Bool := false
  /-- S3 has completed every check, 1 bit; R241 08 -/
  checked : Bool := false
  /-- first admission made, 1 bit, and its place among admissions; R243 08 -/
  admitted : Option Nat := none
  /-- ordering group of the ring; R75 03 -/
  ogrp : Nat := 0
  /-- stamp in the ordering group; R333 12 -/
  stamp : Option W32 := none
  /-- the S3 wait's start, or the block's start, in µs; R339 12 -/
  since : Nat := 0
  /-- the job takes a key, as S3 found when it tagged it, 1 bit; R39, R241 02/08 -/
  keyed : Bool := false
  /-- FANOUT and verify-after-sign have been read, 1 bit; R243 08 -/
  shaped : Bool := false
  /-- the key of a job that has run ahead is being fetched, 1 bit; R130, R241 05/08 -/
  fetching : Bool := false
  /-- FANOUT kept from the first admission; R243 08 -/
  fanout : Nat := 1
  /-- verify-after-sign kept from the first admission; R248 08 -/
  vas : Bool := false
  /-- masking order fixed at admission; R247 08 -/
  mask : Nat := 0
  /-- the key as admitted: directory slot and object; R142 05 -/
  key : Option (Nat × KeyObj) := none
  /-- a second key named by PARAM; R119 05 -/
  key2 : Option (Nat × KeyObj) := none
  /-- use reserved and not yet counted, 1 bit; R126 05 -/
  reserved : Bool := false
  /-- use counted at compute start, 1 bit; R126 05 -/
  used : Bool := false
  /-- stateful index assigned; R147 05 -/
  index : Option Nat := none
  /-- random bytes reserved and drawn for the job; R395 14 -/
  rnd : Bytes := []
  /-- key pinned in the cache, 1 bit; R130 05 -/
  pinned : Bool := false
  /-- the cache quota in lines that the job was admitted under; R130 05 -/
  lines : Nat := 0
  /-- frame, creel of the units held; R234 08 -/
  place : Option (Nat × Nat) := none
  /-- spindles held, 0 to 11; R234 08 -/
  spns : List Nat := []
  /-- carder held, 1 bit; R234 08 -/
  carder : Bool := false
  /-- spindle whose bank 7 is lent to the job's carder; R240 08 -/
  bank : Option Nat := none
  /-- header bytes of an inline RSA key that S3 has read; R201 07 -/
  hdr : Option Bytes := none
  /-- the digest lane has hashed the message: bit 0 in S4, bit 1 the second EdDSA pass; R208 07 -/
  hashed : Nat := 0
  /-- the job's index is the first of a last-level tree that the job has to generate, 1 bit; R186 06 -/
  newTree : Bool := false
  /-- applet image that an APPLET call was admitted under; R112 04 -/
  img : Option AppletImg := none
  /-- digest job slot held, 0 to 47; R408 15 -/
  dslot : Option Nat := none
  /-- the unit a spindle or carder claims the job from, chosen by NEXT_JOB; R236 08 -/
  thief : Option (Nat × Nat × Nat) := none
  /-- PTC_BOOT of entry into its deque, and requeued ripe; R236 08 -/
  dealtAt : Nat := 0
  /-- requeued as a ripe entry, 1 bit; R250 08 -/
  ripe : Bool := false
  /-- staged input; R71 03 -/
  input : Option Bytes := none
  /-- staged auxiliary data; R71 03 -/
  aux : Option Bytes := none
  /-- attempts of a fan-out job; R245 08 -/
  fan : List Fan := []
  /-- next unassigned attempt number; R245 08 -/
  nextAttempt : Nat := 0
  /-- winning spindle; R245 08 -/
  winner : Option Nat := none
  /-- machine checks met; R250 08 -/
  mchk : Nat := 0
  /-- STATUS_MAJOR, 8 bits; R60 03 -/
  major : Nat := 0
  /-- STATUS_DETAIL, 16 bits; R60 03 -/
  detail : Nat := 0
  /-- HELD flag; R60 03 -/
  fHeld : Bool := false
  /-- KEY_FETCHED flag; R60 03 -/
  fKeyFetched : Bool := false
  /-- FANOUT_USED flag; R60 03 -/
  fFanout : Bool := false
  /-- RETRIED flag; R60 03 -/
  fRetried : Bool := false
  /-- LATE flag; R60 03 -/
  fLate : Bool := false
  /-- ENGINE, 16 bits; R16 01 -/
  engine : BitVec 16 := 0
  /-- cycles of the unit that computed; R61 03 -/
  cycles : Nat := 0
  /-- result bytes (OK), held until written; R70 03 -/
  result : Bytes := []
  /-- RES_LEN, 32 bits; R60 03 -/
  resLen : Nat := 0
  /-- transactions of the write-back in progress that are not acknowledged, in order of issue; R487 03 -/
  due : List HostWait := []
  /-- pages whose dirty-log bits have been asked for; R220, R321 07/11 -/
  marked : List Nat := []
  /-- outputs issued: the write of output data has begun, 1 bit; R72 03 -/
  issued : Bool := false
  /-- the job ended before S5, 1 bit; R22 01 -/
  early : Bool := false
  /-- how its first failed output write ended; R71 03 -/
  outFailed : Option WriteOutcome := none
  /-- step of a multi-step command (drain, reset after completion, spool wait); the model's; R95 04 -/
  phase : Nat := 0
  /-- a value a multi-step command keeps; the model's -/
  note : Nat := 0
  /-- the applet context and ticket a sub-job belongs to; R382 13 -/
  sub : Option (Nat × Nat) := none
  /-- scratch address of a sub-job's output; R382 13 -/
  subOut : Nat := 0
  /-- a sub-job reads a SEC input word, 1 bit; R383 13 -/
  secIn : Bool := false
  /-- bitmap the job's dirty-log bits go to, fixed at step 2; R106 04 -/
  dlogBuf : Option Bool := none
deriving DecidableEq, Repr

/-! ## Strands -/

/-- A strand's quota (R105, Table 4.7). The spec gives no reset value (log 8: zeros). -/
structure Quota where
  /-- MAX_RINGS; R105 04 (log 8) -/
  maxRings : Nat := 0
  /-- CEIL; R105 04 (log 8) -/
  ceil : Nat := 0
  /-- INFLIGHT; R105 04 (log 8) -/
  inflight : Nat := 0
  /-- RATE; R105 04 (log 8) -/
  rate : Nat := 0
  /-- BURST; R105 04 (log 8) -/
  burst : Nat := 0
  /-- KEY_ENTRIES; R105 04 (log 8) -/
  keyEntries : Nat := 0
  /-- CACHE_KIB; R105 04 (log 8) -/
  cacheKib : Nat := 0
  /-- OG_BASE; R105 04 (log 8) -/
  ogBase : Nat := 0
  /-- OG_COUNT; R105 04 (log 8) -/
  ogCount : Nat := 0
deriving DecidableEq, Repr

/-- The state of a strand (Table 11.1). -/
inductive StrandState where
  | disabled | enabled | draining | stopped
deriving DecidableEq, Repr

/-- One strand (R303 to R328). -/
structure Strand where
  /-- STATE, 4 bits; R303 11 -/
  state : StrandState := .disabled
  /-- GEN, 16 bits; R309 11 -/
  gen : BitVec 16 := 0
  /-- quota in force; R105 04 -/
  quota : Quota := {}
  /-- token-bucket level, 20 fractional bits; R308 11 -/
  level : Nat := 0
  /-- STR_COMM, 64 bits; R328 11 -/
  comm : W64 := 0
  /-- STR_MBX, 32 bits; R328 11 -/
  mbx : W32 := 0
  /-- N_HEAD of the comm page, 32 bits; R315 11 -/
  nHead : W32 := 0
  /-- STR_LATE_TOT, 32 bits; R328 11 -/
  lateTot : W32 := 0
  /-- STR_DLOG_OUT, 32 bits; R328 11 -/
  dlogOut : W32 := 0
  /-- DLOG_ON, 1 bit; R328 11 -/
  dlogOn : Bool := false
  /-- DLOG_BUF, 1 bit; R328 11 -/
  dlogBuf : Bool := false
  /-- dirty-log window base; R106 04 -/
  dlogBase : Nat := 0
  /-- dirty-log window length; R106 04 -/
  dlogLen : Nat := 0
  /-- bitmap A; R106 04 -/
  dlogA : Nat := 0
  /-- bitmap B; R106 04 -/
  dlogB : Nat := 0
  /-- late completions since the last advance, for the LATE notice; R319 11 -/
  lateSince : Nat := 0
  /-- PTC_BOOT of the last discard; R319 11 -/
  lastDiscard : W64 := 0
  /-- a LATE notice is due when the last old job leaves, 1 bit; R319 11 -/
  lateDue : Bool := false
deriving DecidableEq, Repr

/-! ## Frames, creels, units -/

/-- One frame pipeline (R255, R331). -/
structure Frame where
  /-- FRM_CFG, 32 bits; R255 08 -/
  cfg : W32 := 0x00202101
  /-- FRM_XSTEAL, 32 bits; R255 08 -/
  xsteal : W32 := 0x00640100
  /-- FRM_FANOUT, 32 bits; R255 08 -/
  fanout : W32 := 0x00001111
  /-- FRM_VAS, 32 bits; R255 08 -/
  vas : W32 := 0
  /-- FRM_CNT_XSTEAL, 32 bits; R255 08 -/
  cntXsteal : W32 := 0
  /-- FRM_CNT_UNDO, 32 bits; R255 08 -/
  cntUndo : W32 := 0
  /-- FRM_CNT_MCHK, 32 bits; R255 08 -/
  cntMchk : W32 := 0
  /-- budget(f) of the window in progress; R237 08 -/
  budget : Nat := 256
  /-- tokens in the S2 parse buffer, oldest first; R228 08 -/
  parse : List Token := []
  /-- class the round is at, 3 down to 0; R331 12 -/
  rrClass : Nat := 3
  /-- tokens the class may still dispatch in this round; R331 12 -/
  rrLeft : Nat := 8
  /-- weights of the round in progress; R332 12 -/
  rrWt : W32 := 0x08040201
  /-- queue served last in each class; R331 12 -/
  rrPtr : Tbl Nat := []
deriving DecidableEq, Repr

/-- One creel (R255, R251, R252, R265). -/
structure Creel where
  /-- FRM_CRL_CTL, 32 bits; R255 08 -/
  ctl : W32 := 0x00640002
  /-- deque, bottom first: jobs dealt and not claimed; R228 08 -/
  deque : List Nat := []
  /-- clock in units of 50 MHz; R252 08 -/
  freq : Nat := 25
  /-- held by a readback failure (t6 or an image load), 1 bit; R46 02 -/
  heldLoad : Bool := false
  /-- held by retirements, 1 bit; R251 08 -/
  heldRetired : Bool := false
  /-- MCHK TOTAL, 16 bits; R255 08 -/
  mchkTotal : BitVec 16 := 0
  /-- MCHK CAUSE, 4 bits; R255 08 -/
  mchkCause : BitVec 4 := 0
  /-- MCHK LOC, 32 bits; R255 08 -/
  mchkLoc : W32 := 0
  /-- PTC_BOOT of the cause-2 checks of the last hour; R251 08 -/
  nano : List Nat := []
  /-- nano-store banks being reloaded, bit i = bank i; R265 09 -/
  reloading : BitVec 4 := 0
  /-- seed of the mask generator, 256 bits, empty while it is not seeded; R247, R395 08/14 -/
  maskSeed : Bytes := []
  /-- output has stopped since that seeding: no new masked job until a reseed arrives, 1 bit; R25, R399 01/14 -/
  maskHeld : Bool := false
  /-- PTC_BOOT of the mask generator's last seeding; R395 14 -/
  maskAt : Nat := 0
  /-- the frame instance has taken a forced reseed since then, 1 bit; R395 14 -/
  maskForced : Bool := false
deriving DecidableEq, Repr

/-- The creel's mask generator is seeded (R247). -/
def Creel.maskSeeded (c : Creel) : Bool := c.maskSeed ≠ []

/-- A flag of a routine with its taint bit (R275). -/
structure MFlag where
  /-- value; R259 09 -/
  v : Bool := false
  /-- taint; R275 09 -/
  t : Bool := false
deriving DecidableEq, Repr

/-- A hash context of the gate routines (R279). -/
structure GateHash where
  /-- algorithm, IMM of HASH_BEGIN; R279 09 -/
  alg : Nat
  /-- bytes absorbed; R279 09 -/
  data : Bytes
  /-- key bytes absorbed, 1 bit; R279 09 -/
  sec : Bool
deriving DecidableEq, Repr

/-- The sequencer, registers and local memory of a spindle in a routine (R258 to R275). -/
structure Micro where
  /-- the routine has been started, 1 bit; R273 09 -/
  on : Bool := false
  /-- micro address, 12 bits; R259 09 -/
  pc : Nat := 0
  /-- micro return stack, newest first, at most 4; R260 09 -/
  stack : List Nat := []
  /-- X0 to X15, 64 bits each; R274 09 -/
  x : Tbl W64 := []
  /-- AR0 to AR15; R274 09 -/
  ar : Tbl W64 := []
  /-- stride registers of AR0 to AR15, which no operation writes; R262, R274 09 -/
  stride : Tbl W64 := []
  /-- LC0; R259 09 -/
  lc0 : Nat := 0
  /-- LC1; R259 09 -/
  lc1 : Nat := 0
  /-- scalar zero flag; R259 09 -/
  z : MFlag := {}
  /-- scalar negative flag; R259 09 -/
  neg : MFlag := {}
  /-- scalar carry flag; R259 09 -/
  c : MFlag := {}
  /-- lane-zero flag LZ; R259 09 -/
  lz : MFlag := {}
  /-- sampler-reject flag SREJ; R259 09 -/
  srej : MFlag := {}
  /-- norm-check flag ACC; R259 09 -/
  acc : MFlag := {}
  /-- loadable moduli Q2 to Q7; R262 09 -/
  q : Tbl Nat := []
  /-- local memory, 65,536 bytes; R274 09 -/
  mem : Tbl Byte := []
  /-- SECRET bit per 256 bytes; R275 09 -/
  sec : Tbl Bool := []
  /-- input bytes already moved through the window; R274 09 -/
  inPos : Nat := 0
  /-- an input piece has been requested and is not staged, 1 bit; R274 09 -/
  wantPiece : Bool := false
  /-- Keccak state slots 0 to 15, 200 bytes each, unset = zeros; R262 09 -/
  kslot : Tbl Bytes := []
  /-- a SECRET operand has entered the slot, 1 bit each; R275 09 -/
  ksec : Tbl Bool := []
  /-- the Keccak core has been used, 1 bit; R259 09 -/
  kused : Bool := false
  /-- algorithm of the SHA-2 core: 0 none, 1 SHA-256, 2 SHA-512; R263 09 -/
  shaMode : Nat := 0
  /-- state of the SHA-2 core, 32 or 64 bytes; R263 09 -/
  sha : Bytes := []
  /-- a SECRET operand has entered the SHA-2 core, 1 bit; R275 09 -/
  shaSec : Bool := false
  /-- the SHA-2 core has been used, 1 bit; R259 09 -/
  hused : Bool := false
  /-- gate hash context; R279 09 -/
  hash : Option GateHash := none
  /-- cycles since compute start; R277 09 -/
  cycles : Nat := 0
  /-- the next word has waited for the reload of its nano-store bank, 1 bit; R265 09 -/
  stalled : Bool := false
deriving DecidableEq, Repr

/-- A spindle (units 0 to 11 of a creel) or its carder (unit 12) (R226, R250, R251, R238, R240). -/
structure Unit' where
  /-- job that holds the unit; R234 08 -/
  job : Option Nat := none
  /-- computing (spindle of a started job), 1 bit; R255 08 -/
  busy : Bool := false
  /-- retired, 1 bit; R251 08 -/
  retired : Bool := false
  /-- retired for cause 3, 1 bit; R251 08 -/
  retired3 : Bool := false
  /-- out of dealing until its recovery ends: the cause, plus 16 times the nano-store bank for cause 2; R250 08 -/
  recovering : Option Nat := none
  /-- PTC_BOOT of the unit's machine checks of the last hour; R251 08 -/
  mchks : List Nat := []
  /-- warm key: slot and uid; R238 08 -/
  warm : Option (Nat × Nat) := none
  /-- PTC_BOOT since which the spindle is idle; R239 08 -/
  idleAt : Nat := 0
  /-- job that holds this spindle's bank 7 as carder staging; R240 08 -/
  lent : Option Nat := none
  /-- operand memory of a carder, 32 KiB; R202, R204 07 -/
  opMem : Bytes := []
  /-- sequencer and local memory of a CUSTOM routine; R274 09 -/
  micro : Micro := {}
deriving DecidableEq, Repr

/-- Creel set point and capping (R252 to R255). -/
structure Cap where
  /-- PWR_CRL_SET, 32 bits; R255 08 -/
  set : W32 := 0x19
  /-- PWR_CAP, 32 bits; R255 08 -/
  cap : W32 := 0x00010000
  /-- UNMET, 1 bit; R255 08 -/
  unmet : Bool := false
  /-- GATED, 1 bit; R255 08 -/
  gated : Bool := false
  /-- THERM, 1 bit; R255 08 -/
  therm : Bool := false
  /-- PKG_DW, 16 bits; R255 08 -/
  pkgDw : Nat := 0
  /-- GATE_N, 4 to 12; R255 08 -/
  gateN : Nat := 12
  /-- capping has lowered the clocks and they have not come back, 1 bit; R253 08 -/
  lowered : Bool := false
  /-- consecutive clear intervals; R253 08 -/
  clear : Nat := 0
  /-- intervals at 0.80 GHz with the condition holding; R254 08 -/
  floorMs : Nat := 0
  /-- the condition of R253 held in the last interval, 1 bit; R254 08 -/
  above : Bool := false
  /-- consecutive intervals with the condition clear, for the gate; R254 08 -/
  gateClear : Nat := 0
deriving DecidableEq, Repr

/-! ## Heddle, trace, shuttles -/

/-- An entry of a delay list (R335): when it expires, the command it makes, its order of insertion. -/
structure DlEntry where
  /-- PTC_BOOT of expiry; R335 12 -/
  at_ : Nat
  /-- the command its expiry makes; R335 12 (log 12) -/
  cmd : Instr
deriving DecidableEq, Repr

/-- The heddle (R329 to R340, R353). -/
structure Heddle where
  /-- HDL_WT, 32 bits; R353 12 -/
  wt : W32 := 0x08040201
  /-- HDL_WF, 32 bits; R353 12 -/
  wf : W32 := 0x03E80001
  /-- EV_TIMER tokens that list 6 made for firmware, oldest first; R335 12 -/
  fwTimers : List Nat := []
  /-- timers that list 6 refused to the firmware that asked for them, oldest first; R336 12 -/
  fwRefused : List Nat := []
  /-- commands of list-5 entries that fired early to free their pool entry; R336 12 -/
  early : List Instr := []
  /-- HDL_CNT_EARLY, 32 bits; R353 12 -/
  cntEarly : W32 := 0
  /-- HDL_CNT_EVICT, 32 bits; R353 12 -/
  cntEvict : W32 := 0
  /-- HDL_CNT_ROLLBACK, 32 bits; R353 12 -/
  cntRollback : W32 := 0
  /-- HDL_OG_SEL, 32 bits; R353 12 -/
  ogSel : W32 := 0
  /-- ASEQ and RSEQ of each ordering group; R333 12 -/
  og : Tbl (W32 × W32) := []
  /-- the eight delay lists, entries in order of insertion; R335 12 -/
  dl : Tbl (List DlEntry) := []
  /-- HIGH of each delay list, 17 bits; R353 12 -/
  high : Tbl Nat := []
  /-- JOB_READY tokens, oldest first (the 256 ready lists by class and function); R330 12 -/
  ready : List Token := []
  /-- S1 has stopped on every ring and resumes ring by ring, 1 bit; R228 08 -/
  resuming : Bool := false
  /-- ring number from which S1 looks for the next ring to resume; R228 08 -/
  nextRing : Nat := 0
deriving DecidableEq, Repr

/-- The decision trace (R341 to R343, R353). -/
structure Trace where
  /-- ENABLE, 1 bit; R353 12 -/
  enable : Bool := false
  /-- PORT, 1 bit; R353 12 -/
  port : Bool := false
  /-- MIRROR, 1 bit; R353 12 -/
  mirror : Bool := false
  /-- PORT_BLOCKED, 1 bit; R353 12 -/
  blocked : Bool := false
  /-- mirror ring, 8 bits; R114 04 -/
  mirrorRing : Nat := 0
  /-- source mask, 32 bits; R342 12 -/
  mask : W32 := 0
  /-- SEQ of the next record, 32 bits; R353 12 -/
  seq : W32 := 0
  /-- the 8,192 record slots, four words each; R341 12 -/
  buf : Tbl (List W64) := []
  /-- TRC_RD_IDX, 32 bits; R353 12 -/
  rdIdx : W32 := 0
  /-- latched record, four words; R353 12 -/
  latch : List W64 := [0, 0, 0, 0]
  /-- TRC_CNT_PORT_DROP, 32 bits; R353 12 -/
  cntDrop : W32 := 0
  /-- records sent on the trace port, oldest first; R343, R473 18 -/
  portOut : List (List W64) := []
  /-- microsecond of the last of them, from which the port may still be busy; R343 12 -/
  portAt : Option Nat := none
  /-- records not yet written to the mirror ring, oldest first; R343 12 -/
  mirQ : List (List W64) := []
deriving DecidableEq, Repr

/-- A request waiting at a shuttle instance (R347). -/
structure ShtReq where
  /-- slot; R344 12 -/
  slot : Nat
  /-- context of the slot; R346 12 -/
  ctx : Nat
  /-- deadline of its job in cycles, the part of LST that LAT does not give; R347 12 -/
  lst : Option Nat
  /-- cycle the request was raised, from which LAT counts; R347 12 -/
  raised : Nat
  /-- cycle the request was raised, or came back after a cut; R351 12 -/
  since : Nat
  /-- class of the job it is made for, at a port that is no pool of lanes; R74 03 -/
  cls : Option Nat := none
  /-- STARVE already raised for this wait, 1 bit; R351 12 -/
  starved : Bool := false
  /-- suspended lane a job context is bound to; R346 12 -/
  lane : Option Nat := none
deriving DecidableEq, Repr

/-- A grant held on a lane (R346, R349, R350). -/
structure ShtGrant where
  /-- slot; R344 12 -/
  slot : Nat
  /-- context; R346 12 -/
  ctx : Nat
  /-- deadline of its job in cycles; R347 12 -/
  lst : Option Nat
  /-- cycle its request was raised; R347 12 -/
  raised : Nat
  /-- cycle the grant began; R350 12 -/
  since : Nat
  /-- class of the job it is held for; R74 03 -/
  cls : Option Nat := none
  /-- grant of the emergency requester, 1 bit; R345 12 -/
  emerg : Bool := false
  /-- holder suspended by an emergency grant, as its request was, and the cycles it has held; R345 12 -/
  susp : Option (ShtReq × Nat) := none
deriving DecidableEq, Repr

/-- One shuttle instance (R344 to R353). -/
structure Shuttle where
  /-- SHT_CFG, 32 bits; R353 12 -/
  cfg : W32 := 0x08000000
  /-- SHT_STARVE, 32 bits; R353 12 -/
  starve : W32 := 0x00100000
  /-- SHT_EVT, 32 bits; R353 12 -/
  evt : W32 := 0
  /-- SHT_IRQ_EN, 32 bits; R353 12 -/
  irqEn : W32 := 0xFFFFFFFF
  /-- SHT_CNT_PREEMPT, 32 bits; R353 12 -/
  cntPreempt : W32 := 0
  /-- SHT_CNT_STALE, 32 bits; R353 12 -/
  cntStale : W32 := 0
  /-- SHT_REQr where it differs from Table 12.13's reset: HOLD, LAT, CLASS; R353 12 -/
  req : Tbl W64 := []
  /-- SHT_CNTr, 64 bits each; R353 12 -/
  cnt : Tbl W64 := []
  /-- requests not granted, oldest first; R347 12 -/
  waiting : List ShtReq := []
  /-- grants by lane (0 for a single port); R346 12 -/
  grants : Tbl ShtGrant := []
  /-- last cycle of the last grant of each lane, in which the decision for the lane is made; R348 12 -/
  freed : Tbl Nat := []
  /-- urgent_ptr; R348 12 -/
  urgentPtr : Nat := 15
  /-- class_ptr of each class; R348 12 -/
  classPtr : Tbl Nat := []
deriving DecidableEq, Repr

/-! ## Crixa cores -/

/-- A tagged word (R356). -/
structure CWord where
  /-- tag, 3 bits; R356 13 -/
  tag : Tag := .int
  /-- payload, 64 bits; R356 13 -/
  val : W64 := 0
deriving DecidableEq, Repr

/-- A wide register with its SEC flag (R369, R370). -/
structure Wide where
  /-- 1,024 bits; R369 13 -/
  val : BitVec 1024 := 0
  /-- SEC flag; R370 13 -/
  sec : Bool := false
deriving DecidableEq, Repr

/-- A predicate register with its SEC flag (R369, R370). -/
structure Pred where
  /-- 128 bits; R369 13 -/
  val : BitVec 128 := 0
  /-- SEC flag; R370 13 -/
  sec : Bool := false
deriving DecidableEq, Repr

/-- The registers a Crixa context holds (R360 to R374). -/
structure CRegs where
  /-- pc, 64 bits; R366 13 (log 14) -/
  pc : W64 := 0
  /-- a0 to a7 and s0 to s7 (names 0 to 15), unset = POISON; R360 13 -/
  shared : Tbl CWord := []
  /-- resident frames, current first, each f0 to f15 (names 16 to 31), unset = POISON; R361 13 -/
  frames : List (Tbl CWord) := [[]]
  /-- parked frames in the spill area, newest first, at most 49; R361 13 -/
  spill : List (Tbl CWord) := []
  /-- flag N; R362 13 -/
  n : Bool := false
  /-- flag Z; R362 13 -/
  z : Bool := false
  /-- flag C; R362 13 -/
  c : Bool := false
  /-- flag V; R362 13 -/
  v : Bool := false
  /-- taint flag T; R362 13 -/
  t : Bool := false
  /-- STATUS mode, 1 = applet; R368 13 -/
  applet : Bool := false
  /-- RSM, 2 bits; R364 13 -/
  rsm : BitVec 2 := 0
  /-- RSP; R368 13 -/
  rsp : CWord := { tag := .ptr, val := 0 }
  /-- hardware return stack, newest first, at most 32; R364 13 -/
  rstack : List W64 := []
  /-- SC, the strip count; R369 13 -/
  sc : Nat := 0
  /-- EPC, 64 bits; R368 13 -/
  epc : W64 := 0
  /-- CAUSE, 8 bits; R368 13 -/
  cause : Nat := 0
  /-- TVAL, 64 bits; R368 13 -/
  tval : W64 := 0
  /-- a trap handler runs with nesting off, 1 bit; R365 13 -/
  inTrap : Bool := false
  /-- the load in its load slot: register name and the word to come; R363 13 -/
  slot : Option (Nat × CWord) := none
  /-- wide registers w0 to w31; R369 13 -/
  wide : Tbl Wide := []
  /-- predicates q1 to q7; R369 13 -/
  pred : Tbl Pred := []
deriving DecidableEq, Repr

/-- A Crixa core (R354, R385). Cores 0 to 3 are G0 to G3, core 4 is T. -/
structure Core where
  /-- registers of the context on the core; R360 13 -/
  r : CRegs := {}
  /-- context on the core, none = firmware; R378 13 -/
  ctx : Option Nat := none
  /-- running firmware (RUN), 1 bit; R385 13 -/
  run : Bool := false
  /-- halted by a debugger, 1 bit; R359 13 -/
  dbgHalt : Bool := false
  /-- the debugger has asked for one instruction, 1 bit; R424 16 -/
  dbgStep : Bool := false
  /-- addresses of debug breakpoints, a list; R365 13 -/
  breaks : List W64 := []
  /-- carder interrupt of a raw BIGNUM sub-job pending, 1 bit; R383 13 -/
  irqCarder : Bool := false
  /-- local or private memory, words; R356 13 (log 14) -/
  mem : Tbl CWord := []
  /-- VPG.EN; R368 13 -/
  vpgEn : Bool := true
  /-- VPG.GATED; R368 13 -/
  gated : Bool := false
  /-- power-down of the vector unit in progress, 1 bit; R374 13 -/
  downing : Bool := false
  /-- VPG.WAKING; R368 13 -/
  waking : Bool := false
  /-- context whose vector instruction waits for the wake, none = firmware or none; R374 13 -/
  wakeFor : Option Nat := none
  /-- TRAPS, 32 bits; R385 13 -/
  traps : W32 := 0
  /-- LAST_TRAP, 8 bits; R385 13 -/
  lastTrap : Nat := 0
  /-- firmware registers while an applet context runs; R378 13 -/
  fw : CRegs := {}
  /-- PTC_BOOT when the context on the core began its slice; R378 13 -/
  sliceAt : Nat := 0
  /-- PTC_BOOT of the last vector instruction or wake; R374 13 -/
  vecAt : Nat := 0
deriving DecidableEq, Repr

/-- A sub-job ticket of a context (R381, R382). -/
structure Ticket where
  /-- sub-job; R382 13 -/
  job : Nat
  /-- completion: major, detail, RES_LEN; R381 13 -/
  done : Option (Nat × Nat × Nat) := none
deriving DecidableEq, Repr

/-- A call context: 32 in all, eight per G core (R378). -/
structure Ctx where
  /-- the APPLET call; R378 13 -/
  job : Option Nat := none
  /-- registers while the context is off its core; R378 13 -/
  r : CRegs := {}
  /-- scratch, 8,192 words; R378 13 -/
  scratch : Tbl CWord := []
  /-- data stack and return-stack area, 2,048 words; R378 13 -/
  stack : Tbl CWord := []
  /-- output staging in the retire buffer; R379 13 -/
  outBuf : Tbl Byte := []
  /-- image the call runs on; R380 13 -/
  img : Option AppletImg := none
  /-- PTC_BOOT when a context took the call; R380 13 -/
  takenAt : Nat := 0
  /-- core cycles of the call; R380 13 -/
  cycles : Nat := 0
  /-- sub-jobs by ticket 0 to 7; R381 13 -/
  tickets : Tbl Ticket := []
  /-- ticket a WAIT blocks on; R381 13 -/
  blocked : Option Nat := none
  /-- waiting for randomness in RANDOM, 1 bit; R381 13 -/
  rndWait : Bool := false
  /-- cancelled: to be stopped by service firmware, 1 bit; R380 13 -/
  cancelled : Bool := false
deriving DecidableEq, Repr

/-- The Crixa complex (R354 to R386). -/
structure Crx where
  /-- CRX_CFG, 32 bits; R385 13 -/
  cfg : W32 := 0x000000A0
  /-- the five cores; R354 13 -/
  cores : Tbl Core := []
  /-- the 32 call contexts; R378 13 -/
  ctxs : Tbl Ctx := []
  /-- shared memory of G0 to G3, words; R356 13 (log 14) -/
  shared : Tbl CWord := []
  /-- T-gate messages toward T, oldest first, at most 64; R375 13 -/
  g2t : List (List CWord) := []
  /-- T-gate messages toward G0 to G3; R375 13 -/
  t2g : List (List CWord) := []
  /-- interrupt pending on the G side, then on T, from the T-gate; R375 13 -/
  irqG : Bool := false
  /-- T-gate interrupt pending on core T, 1 bit; R375 13 -/
  irqT : Bool := false
  /-- call queue, oldest first, at most 4,096; R377 13 -/
  callQ : List Nat := []
  /-- applet image in force; R376 13 -/
  img : Option AppletImg := none
  /-- CRX_CNT_CALLS, 32 bits; R385 13 -/
  cntCalls : W32 := 0
  /-- CRX_CNT_AFAULT, 32 bits; R385 13 -/
  cntAfault : W32 := 0
  /-- CRX_CNT_VWAKE, 32 bits; R385 13 -/
  cntVwake : W32 := 0
deriving DecidableEq, Repr

/-! ## Entropy -/

/-- The unit test of one oscillator pair of SRC_A or latch of SRC_B (R388). -/
structure NoiseUnit where
  /-- left out of its source's XOR, 1 bit; R388 14 -/
  out : Bool := false
  /-- consecutive windows within ±1 of a pair, releases with the same value of a latch; R388 14 -/
  run : Nat := 0
  /-- value of a latch at its last release; R388 14 -/
  last : Option Bool := none
  /-- consecutive passing windows or releases; R388 14 -/
  good : Nat := 0
  /-- a latch has shown both values in its passing releases, 1 bit; R388 14 -/
  both : Bool := false
deriving DecidableEq, Repr

/-- One noise source (R387, R388, R397, R400). -/
structure Src where
  /-- STATE: 0 start-up, 1 healthy, 2 failed, 3 disabled; R405 14 -/
  state : Nat := 0
  /-- last raw sample; R388 14 -/
  last : Option Bool := none
  /-- run length of the RCT; R388 14 -/
  run : Nat := 0
  /-- samples of the APT window taken; R388 14 -/
  aptPos : Nat := 0
  /-- first sample of the APT window; R388 14 -/
  aptFirst : Bool := false
  /-- occurrences of the first sample in the window; R388 14 -/
  aptCount : Nat := 0
  /-- samples of the toggle window taken (SRC_C); R388 14 -/
  togPos : Nat := 0
  /-- transitions in the toggle window (SRC_C); R388 14 -/
  toggles : Nat := 0
  /-- consecutive passing start-up samples; R397 14 -/
  startPass : Nat := 0
  /-- start-up failures in this STARTUP; R397 14 -/
  startFails : Nat := 0
  /-- PTC_BOOT since which a failed source has passed every test; R400 14 -/
  okSince : Nat := 0
  /-- whitening shift register, 64 bits; R389 14 (log 16) -/
  sr : W64 := 0
  /-- RCT_FAILS, 16 bits; R405 14 -/
  rctFails : BitVec 16 := 0
  /-- APT_FAILS, 16 bits; R405 14 -/
  aptFails : BitVec 16 := 0
  /-- UNIT_FAILS, 16 bits; R405 14 -/
  unitFails : BitVec 16 := 0
  /-- UNITS, 8 bits; R405 14 -/
  units : Nat := 0
  /-- the unit test of each oscillator pair or latch, a list; R388 14 -/
  tests : List NoiseUnit := []
  /-- whitened bits of its start-up samples, newest first, at most 1,024; R397 14 -/
  white : List Bool := []
deriving DecidableEq, Repr

/-- One DRBG instance (R392 to R394). -/
structure Inst where
  /-- instantiated and seeded, 1 bit; R405 14 -/
  seeded : Bool := false
  /-- a reseed has been asked for, 1 bit; R394 14 -/
  asked : Bool := false
  /-- a forced reseed is pending, 1 bit; R398 14 -/
  forced : Bool := false
  /-- generate requests since the last seeding; R394 14 -/
  reqs : Nat := 0
  /-- PTC_BOOT of the last seeding; R394 14 -/
  seededAt : Nat := 0
  /-- working state, Key and V of CTR_DRBG, 48 bytes; R392, R393 14 -/
  state : Bytes := []
deriving DecidableEq, Repr

/-- The entropy island (R387 to R406). -/
structure Rng where
  /-- RNG_STS.STATE: 0 STARTUP, 1 RUN3, 2 RUN2, 3 STOPPED, 4 RAW; R405 14 -/
  state : Nat := 0
  /-- the reservoir, at most 96 bytes; R391 14 -/
  res : Bytes := []
  /-- the conditioner's accumulation: whitened bits, each with its source, oldest first, a list; R389, R390 14 -/
  acc : List (Nat × Bool) := []
  /-- PTC_BOOT at which STARTUP began; R396 14 -/
  startAt : Nat := 0
  /-- the three sources; R387 14 -/
  srcs : Tbl Src := []
  /-- the six instances; R392 14 -/
  insts : Tbl Inst := []
  /-- instances instantiated in this STARTUP, in code order; R397 14 -/
  instantiated : Nat := 0
  /-- unreserved bytes of each frame buffer, at most 16,384; R395 14 -/
  bufs : Tbl Bytes := []
  /-- RNG_CFG, 32 bits; R405 14 -/
  cfg : W32 := 0
  /-- RNG_EVT, 32 bits; R405 14 -/
  evt : W32 := 0
  /-- RNG_CNT_RESEED, 32 bits; R405 14 -/
  cntReseed : W32 := 0
  /-- RNG_PERS0 to 3, 64 bits each; R405 14 -/
  pers : Tbl W64 := []
deriving DecidableEq, Repr

/-- RES_BITS: the reservoir's fill (Table 14.8). -/
def Rng.resBits (r : Rng) : Nat := 8 * r.res.length

/-! ## Digest slots, microcode stores, HBM, ply, spool, SMBus, TAP -/

/-- A register slot of the digest engine (R407 to R421). -/
structure DSlot where
  /-- DGE_CTX_CFG, 32 bits; R410 15 -/
  cfg : W32 := 0
  /-- DGE_LEN, 64 bits; R410 15 -/
  len : W64 := 0xFFFFFFFFFFFFFFFF
  /-- DGE_KEY with its tag; R410 15 -/
  key : CWord := {}
  /-- STATE: 0 IDLE, 1 ABSORB, 2 FINISH, 3 DONE, 4 ERROR; R410 15 -/
  state : Nat := 0
  /-- ERR, 8 bits; R410 15 -/
  err : Nat := 0
  /-- MSGS, 16 bits; R410 15 -/
  msgs : BitVec 16 := 0
  /-- CMP pattern, 2 bits; R410 15 -/
  cmp : BitVec 2 := 1
  /-- SEC, 1 bit; R410 15 -/
  sec : Bool := false
  /-- words in the FIFO, 0 to 32; R413 15 -/
  fifo : Nat := 0
  /-- words of stores that stall until a word of the FIFO is free, oldest first, a list; R413 15 -/
  held : List CWord := []
  /-- bytes of the message taken so far (FIFO and absorbed); R411 15 -/
  msg : Bytes := []
  /-- bytes already absorbed by a lane; R409 15 -/
  absorbed : Nat := 0
  /-- DGE_LAST_DATA with its tag; R410 15 -/
  lastData : CWord := {}
  /-- DGE_OUT0 to 7, at most 64 bytes; R410 15 -/
  out : Bytes := []
  /-- DGE_EXP0 to 7, 64 bits each; R410 15 -/
  exp : Tbl W64 := []
  /-- DGE_CUST0 to 3, 64 bits each; R410 15 -/
  cust : Tbl W64 := []
  /-- directory slot and uid of the key whose use the message has reserved; R412 15 -/
  resv : Option (Nat × Nat) := none
  /-- key object taken at the start of the message; R412 15 -/
  keyObj : Option KeyObj := none
deriving DecidableEq, Repr

/-- The digest engine (R407 to R421). -/
structure Dge where
  /-- register slots 48 to 63; R410 15 -/
  slots : Tbl DSlot := []
  /-- DGE_CNT_MISUSE, 32 bits; R410 15 -/
  cntMisuse : W32 := 0
  /-- DGE_CNT_RESTART, 32 bits; R410 15 -/
  cntRestart : W32 := 0
  /-- DGE_CNT_CMPFAULT, 32 bits; R410 15 -/
  cntCmpFault : W32 := 0
deriving DecidableEq, Repr

/-- An entry record of a customer routine image (R269). -/
structure RtnEntry where
  /-- ADDR; R269 09 -/
  addr : Nat
  /-- FOOT8; R269 09 -/
  foot8 : Bool
  /-- KEY; R269 09 -/
  key : Bool
  /-- KTYPE; R269 09 -/
  ktype : Nat
  /-- OPS; R269 09 -/
  ops : BitVec 16
  /-- IN_MAX; R269 09 -/
  inMax : Nat
  /-- AUX_MAX; R269 09 -/
  auxMax : Nat
  /-- OUT_MAX; R269 09 -/
  outMax : Nat
  /-- BOUND_BASE; R269 09 -/
  base : Nat
  /-- BOUND_SLOPE; R269 09 -/
  slope : Nat
deriving DecidableEq, Repr

/-- A customer routine image in force (R268). -/
structure RtnImg where
  /-- CVER; R268 09 -/
  cver : Nat
  /-- entries in use; R268 09 -/
  entries : List RtnEntry
  /-- micro-words from address 3,584; R268 09 -/
  micro : List (BitVec 40)
  /-- nano-words from address 896; R268 09 -/
  nano : List (BitVec 192)
deriving DecidableEq, Repr

/-- The microcode stores, versions and window, and the firmware releases (R257, R266, R272, R280, R103). -/
structure Mcs where
  /-- MCS_VER, 32 bits; R280 09 -/
  ver : W32 := 0
  /-- MCS_CVER, 32 bits; R280 09 -/
  cver : W32 := 0
  /-- LOAD_HELD, 8 bits; R280 09 -/
  loadHeld : Nat := 0
  /-- GOLDEN_HBM, 1 bit; R280 09 -/
  goldenHbm : Bool := false
  /-- LOADING, 1 bit; R280 09 -/
  loading : Bool := false
  /-- MCS_WIN_SEL, 32 bits; R280 09 -/
  winSel : W32 := 0
  /-- MCS_WIN_ADDR, 32 bits; R280 09 -/
  winAddr : W32 := 0
  /-- latched word, 192 bits; R280 09 -/
  latch : BitVec 192 := 0
  /-- customer image in the stores; R268 09 -/
  cust : Option RtnImg := none
  /-- HBM golden copy: vendor version and customer image; R266 09 -/
  hbmVendor : Option W32 := none
  /-- HBM golden copy of the customer image; R266 09 -/
  hbmCust : Option RtnImg := none
  /-- measurement M_MCSC, 32 bytes; R155 05 -/
  mMcsc : Bytes := []
  /-- TFW_VER in force, 32 bits; R103 04 -/
  tfw : W32 := 0
  /-- trusted-firmware patch version that waits for the next device reset; R112 04 -/
  tfwNext : Option W32 := none
  /-- SFW_VER in force, 32 bits; R103 04 -/
  sfw : W32 := 0
  /-- measurement M_TFW, 32 bytes; R155 05 -/
  mTfw : Bytes := []
  /-- measurement M_SFW; R155 05 -/
  mSfw : Bytes := []
  /-- measurement M_MCS; R155 05 -/
  mMcs : Bytes := []
  /-- measurement M_APPLET; R155 05 -/
  mApplet : Bytes := []
deriving DecidableEq, Repr

/-- The HBM controller (R485). -/
structure Hbm where
  /-- TRAINED, 1 bit; R485 19 -/
  trained : Bool := false
  /-- SELF_REFRESH, 1 bit; R485 19 -/
  selfRefresh : Bool := false
  /-- XTS, 1 bit; R485 19 -/
  xts : Bool := false
  /-- the contents are lost, 1 bit; R43 02 (log 7: lost) -/
  lost : Bool := true
  /-- HBM_ECC.COR, 32 bits; R485 19 -/
  cor : W32 := 0
  /-- HBM_ECC.UNC, 32 bits; R485 19 -/
  unc : W32 := 0
  /-- HBM_ERR_ADDR, 64 bits; R485 19 -/
  errAddr : W64 := 0
deriving DecidableEq, Repr

/-- A ply port (R484). -/
structure PlyPort where
  /-- STATE, 3 bits; R484 19 -/
  state : Nat := 0
  /-- LANES, 4 bits; R484 19 -/
  lanes : BitVec 4 := 0
  /-- SESSION, 1 bit; R484 19 -/
  session : Bool := false
  /-- PARTNER, when valid; R484 19 -/
  partner : Option Nat := none
deriving DecidableEq, Repr

/-- A message the device sends on the ply link (R329, R141, R323). -/
inductive PlyOut where
  | shadow (owner index : Nat) (mat : Bytes) | shadowAck (owner index : Nat) (ok : Bool)
  | flip (owner index : Nat) | wipeShadow (owner index : Nat)
  | destroy (owner index : Nat) | strandBlob (strand ordinal : Nat) (blob : Bytes) | blobTaken (strand : Nat) (ok : Bool)
deriving DecidableEq, Repr

/-- The ply link (R484). -/
structure Ply where
  /-- PLY_CFG, 32 bits; R484 19 -/
  cfg : W32 := 3
  /-- ordinal in force: sampled when a port begins training; R484 19 -/
  ord : Nat := 0
  /-- port 0; R484 19 -/
  p0 : PlyPort := {}
  /-- port 1; R484 19 -/
  p1 : PlyPort := {}
  /-- PLY_EVT, 32 bits; R484 19 -/
  evt : W32 := 0
  /-- PLY_CNT_ERR, 32 bits; R484 19 -/
  cntErr : W32 := 0
  /-- messages sent, oldest first; R329 12 (log 10) -/
  out : List PlyOut := []
  /-- messages for trusted firmware, oldest first; R329 12 -/
  inbox : List (Nat × List W64) := []
  /-- strand blob received and not yet restored: strand and bytes; R107 04 -/
  blob : Option (Nat × Bytes) := none
deriving DecidableEq, Repr

/-- What a record write or commit of the spool is for (R291, Table 10.5). -/
inductive SplWork where
  /-- a reservation of stateful indices up to `ceil` for a key slot -/
  | index (slot ceil : Nat)
  /-- the KEY record of a new or replaced key, for a job -/
  | key (slot job : Nat)
  /-- the commit record of a replacement -/
  | commitRec (slot job : Nat)
  /-- the shadow record of a replacement -/
  | shadowRec (slot job : Nat)
  /-- a tombstone for a KEY_DESTROY or KEY_PURGE job: the record number of the key's KEY record and its handle -/
  | tomb (slot job recno handle : Nat)
  /-- the PTC_LIFE checkpoint -/
  | ckpt
  /-- the BOOTS mirror -/
  | boots
  /-- the role record -/
  | role
  /-- the ROLE record PRIMARY of a re-spooling's switch, with its SW_SEQ -/
  | primary (swSeq : Nat)
  /-- a record copied in re-spooling: its identifier and its content -/
  | copy (id : SpoolRec) (content : Bytes)
  /-- the KEY record of a restored key, for a job -/
  | restKey (slot job : Nat)
  /-- the INDEX record of a restored key, for a job -/
  | restIndex (slot job : Nat)
deriving DecidableEq, Repr

/-- A frame the device sends to a spool (Table 10.7). -/
inductive SplOut where
  | hello | finish | pair | status | read (recno : Nat) | write (work : SplWork) | commit (works : List SplWork)
  | list | release | close
deriving DecidableEq, Repr

/-- A spool port (R283 to R301). -/
structure Spl where
  /-- STATE, Table 10.1, 4 bits; R283 10 -/
  state : Nat := 0
  /-- ROLE, Table 10.2, 4 bits; R283 10 -/
  role : Nat := 0
  /-- PRES, 1 bit; R301 10 (log 7: empty) -/
  pres : Bool := false
  /-- port outputs high-impedance, 1 bit; R470 18 -/
  highZ : Bool := false
  /-- rollback seen (RB), 1 bit; R301 10 -/
  rb : Bool := false
  /-- read-only (RO), 1 bit; R301 10 -/
  ro : Bool := false
  /-- WARN, 1 bit; R301 10 -/
  warn : Bool := false
  /-- USED, 32 bits; R301 10 -/
  used : Nat := 0
  /-- FREE_MIB, 16 bits; R300 10 -/
  freeMib : Nat := 0
  /-- RECORDS, 32 bits; R300 10 -/
  records : Nat := 0
  /-- SERIAL, 16 bytes; R300 10 -/
  serial : Bytes := []
  /-- last commit number; R288 10 -/
  commitNo : Nat := 0
  /-- SW_SEQ of the role record; R285 10 -/
  swSeq : Nat := 0
  /-- PTC_LIFE checkpoint read at open; R52 02 -/
  ckpt : Option Nat := none
  /-- BOOTS mirror read at open; R53 02 -/
  mirror : Option Nat := none
  /-- the cartridge is paired to this device, 1 bit; R283 10 -/
  mine : Bool := false
  /-- session keys present, 1 bit; R286 10 -/
  session : Bool := false
  /-- session keys, device to spool and spool to device, and until the tag is checked the confirmation key, 96 bytes; R286 10 -/
  keys : Bytes := []
  /-- device nonce of the handshake, 32 bytes; R286 10 -/
  nonce : Bytes := []
  /-- core T's further random values of the handshake, for ct1 and the device signature, 64 bytes; R286 10 -/
  rnd : Bytes := []
  /-- transcript hash H3 of the handshake, until the t3 tag is checked, 32 bytes; R286 10 -/
  h3 : Bytes := []
  /-- payload of FINISH: ct1 and the device signature; R286 10 -/
  finish : Bytes := []
  /-- handshake step: 0 none, 1 HELLO sent, 2 FINISH sent, 3 PAIR sent; R286 10 -/
  shake : Nat := 0
  /-- pairing intended by the handshake, 1 bit; R287 10 -/
  pairing : Bool := false
  /-- command job that waits for the handshake, close or re-spooling; R113 04 -/
  job : Option Nat := none
  /-- frame SEQ, 64 bits; R293 10 -/
  seq : Nat := 0
  /-- SEQ of the next response, 64 bits; R293 10 -/
  rseq : Nat := 0
  /-- consecutive link errors; R293 10 -/
  errors : Nat := 0
  /-- exchange in flight; R293 10 -/
  flight : Option SplOut := none
  /-- exchanges that wait for the link, oldest first; R293 10 -/
  wants : List SplOut := []
  /-- works staged and not committed; R291 10 -/
  staged : List SplWork := []
  /-- works of the commit in flight; R291 10 -/
  inCommit : List SplWork := []
  /-- bytes written since the last commit; R291 10 -/
  commitBytes : Nat := 0
  /-- device records waiting for the coalescing time; R291 10 -/
  coalesce : List SplWork := []
  /-- next RECNO, 64 bits; R289 10 -/
  nextRec : Nat := 1
  /-- VERSION last written of each record number, 32 bits each; R289 10 -/
  vers : Tbl Nat := []
  /-- identifier and sealed body of the records written, oldest first, a list; R290 10 (log 10) -/
  written : List (Bytes × Bytes) := []
  /-- exchanges begun, oldest first; R293 10 (log 10) -/
  out : List SplOut := []
  /-- the bytes of the frames sent, oldest first; R293 10 (log 10) -/
  frames : List Bytes := []
deriving DecidableEq, Repr

/-- A re-spooling in progress (R298). -/
structure Respool where
  /-- command job; R298 10 -/
  job : Nat
  /-- source port is SPL_B, 1 bit; R298 10 -/
  srcB : Bool
  /-- last step of Table 10.9 done, 0 to 3; R298 10 -/
  step : Nat
  /-- a merge of a STALE source, 1 bit; R298 10 -/
  merge : Bool
  /-- cursor of the next LIST; R293 10 -/
  cursor : Nat := 0
  /-- identifiers listed and not yet copied, a list; R298 10 -/
  todo : List SpoolRec := []
  /-- copies read and not yet written, at most 256; R298 10 -/
  batch : List SplWork := []
deriving DecidableEq, Repr

/-- The spool block (R283 to R302). -/
structure SplBlk where
  /-- SPL_CFG, 32 bits; R301 10 -/
  cfg : W32 := 0x00C80001
  /-- SPL_EVT, 32 bits; R301 10 -/
  evt : W32 := 0
  /-- SPL_CNT_ERR, 32 bits; R301 10 -/
  cntErr : W32 := 0
  /-- port SPL_A; R283 10 -/
  a : Spl := {}
  /-- port SPL_B; R283 10 -/
  b : Spl := {}
  /-- re-spooling in progress; R298 10 -/
  respool : Option Respool := none
deriving DecidableEq, Repr

/-- The SMBus target (R471). -/
structure Smb where
  /-- SMB_ADDR[2:0] sampled at PWR_OK, 3 bits; R471 18 (log 7: 0) -/
  addr : BitVec 3 := 0
  /-- bytes of the last Block Read answered; R471 18 -/
  data : Bytes := []
  /-- the target drives the bus, 1 bit; R471 18 -/
  driving : Bool := false
deriving DecidableEq, Repr

/-- The test access port and debug session (R424, R472). -/
structure Tap where
  /-- instruction register, 8 bits; R472 18 (log 17: IDCODE) -/
  ir : Byte := 0x01
  /-- JTAG debug open, 1 bit; R424 16 -/
  jtag : Bool := false
  /-- debug of G0 to G3 open, 1 bit; R424 16 -/
  crxG : Bool := false
  /-- debug of core T open, 1 bit; R424 16 -/
  crxT : Bool := false
  /-- factory test mode entered: 0 none, 1 MBIST, 2 repair, 3 raw SRAM; R424 16 -/
  factory : Nat := 0
  /-- data register last captured, 64 bits; R472 18 -/
  dr : W64 := 0
deriving DecidableEq, Repr

/-! ## The state -/

/-- The device. Structures are one per block of the spec; a `Tbl` lists only what differs from the block's reset value. -/
structure State where
  /-- modes, reset and time; 02 -/
  glb : Glb := {}
  /-- pins and rails; 18 -/
  pins : Pins := {}
  /-- host interface; 19 -/
  host : HostIf := {}
  /-- antifuse OTP; 16 -/
  otp : Otp := {}
  /-- vigil RAM; 17 -/
  vigil : Vigil := {}
  /-- tamper block; 17 -/
  tmp : Tmp := {}
  /-- life cycle; 16 -/
  lcs : Lcs := {}
  /-- BAR0 pages by function 0 to 1,023; 03 -/
  fns : Tbl FnPage := []
  /-- MBX_PEND bits that are set, by strand; R317 11 -/
  mbxPend : Tbl Bool := []
  /-- rings, ring r of function f at 256 f + r; 03 -/
  rings : Tbl Ring := []
  /-- jobs by the model's number; 03 -/
  jobs : Tbl Job := []
  /-- next job number; the model's -/
  nextJob : Nat := 1
  /-- admissions made, for their order; the model's; R339 12 -/
  admissions : Nat := 0
  /-- strands 1 to 1,023; 11 -/
  strands : Tbl Strand := []
  /-- key store; 05 -/
  kst : Kst := {}
  /-- frames 0 to 3; 08 -/
  frames : Tbl Frame := []
  /-- creels, creel c of frame f at 11 f + c; 08 -/
  creels : Tbl Creel := []
  /-- units, unit u of creel k at 13 k + u; 08 -/
  units : Tbl Unit' := []
  /-- set point and capping; 08 -/
  cap : Cap := {}
  /-- heddle; 12 -/
  hdl : Heddle := {}
  /-- decision trace; 12 -/
  trc : Trace := {}
  /-- shuttle instances 0 to 7; 12 -/
  sht : Tbl Shuttle := []
  /-- Crixa complex; 13 -/
  crx : Crx := {}
  /-- entropy island; 14 -/
  rng : Rng := {}
  /-- digest engine; 15 -/
  dge : Dge := {}
  /-- microcode and firmware images; 09 -/
  mcs : Mcs := {}
  /-- HBM controller; 19 -/
  hbm : Hbm := {}
  /-- ply link; 19 -/
  ply : Ply := {}
  /-- key spool; 10 -/
  spl : SplBlk := {}
  /-- SMBus target; 18 -/
  smb : Smb := {}
  /-- test access port; 18 -/
  tap : Tap := {}
  /-- the model's own field, not the spec's: the counter of free values drawn (log 2, DESIGN CHOICE 0) -/
  free : Nat := 0
  /-- the commands that wait, first in first out (log 1) -/
  pending : List Instr := []
deriving DecidableEq, Repr

/-- The machine right after reset (log 7): PERST_N asserted, every register at the value the spec gives for reset. -/
def State.reset : State := {}

end Sys2Proof.Machine
end

