-- ==== Sys2Proof/Machine/Operands.lean ====
section
/-! DEFINITION. Operand forms: sparse tables, bit fields, byte strings in little-endian order, and the fields of a job's
head entry (R57), of a key handle (R119) and of the location codes (R14, R16). -/

namespace Sys2Proof

/-! ## Sparse tables -/

/-- What is listed under a key. -/
def Tbl.get? {α : Type} : Tbl α → Nat → Option α
  | [], _ => none
  | (k, v) :: t, i => if i = k then some v else Tbl.get? t i

/-- What is listed under a key, or the table's default. -/
def Tbl.getD {α : Type} (t : Tbl α) (i : Nat) (d : α) : α := (Tbl.get? t i).getD d

/-- List a value under a key, keeping the keys rising. -/
def Tbl.insert {α : Type} : Tbl α → Nat → α → Tbl α
  | [], i, x => [(i, x)]
  | (k, v) :: t, i, x =>
    if i < k then (i, x) :: (k, v) :: t else if i = k then (i, x) :: t else (k, v) :: Tbl.insert t i x

/-- List nothing under a key. -/
def Tbl.erase {α : Type} : Tbl α → Nat → Tbl α
  | [], _ => []
  | (k, v) :: t, i => if i = k then Tbl.erase t i else (k, v) :: Tbl.erase t i

/-- Set the value under a key in a table whose unlisted keys hold the default `d`: the default itself is not listed. -/
def Tbl.put {α : Type} [DecidableEq α] (t : Tbl α) (d : α) (i : Nat) (x : α) : Tbl α :=
  if x = d then Tbl.erase t i else Tbl.insert t i x

/-- The table's keys rise strictly: its canonical form. -/
def Tbl.sorted {α : Type} : Tbl α → Bool
  | [] => true
  | (k, _) :: t => t.all (fun p => k < p.1) && Tbl.sorted t

/-- Keep the entries of which the test holds. -/
def Tbl.keep {α : Type} (t : Tbl α) (p : Nat → α → Bool) : Tbl α := t.filter (fun e => p e.1 e.2)

/-- Apply a function to every listed value. -/
def Tbl.each {α : Type} (t : Tbl α) (f : Nat → α → α) : Tbl α := t.map (fun e => (e.1, f e.1 e.2))

/-! ## Numbers as bit fields and byte strings -/

/-- Bits [lo + n − 1 : lo] of a number. -/
def fld (w lo n : Nat) : Nat := w / 2 ^ lo % 2 ^ n

/-- Bit `i` of a number. -/
def bitOf (w i : Nat) : Bool := w / 2 ^ i % 2 == 1

/-- A truth value as a bit. -/
def b2n (b : Bool) : Nat := if b then 1 else 0

/-- The `n` bytes of a number, least significant first (R6). -/
def leBytes : Nat → Nat → Bytes
  | 0, _ => []
  | n + 1, w => BitVec.ofNat 8 w :: leBytes n (w / 256)

/-- The number a little-endian byte string spells. -/
def ofLe : Bytes → Nat
  | [] => 0
  | b :: t => b.toNat + 256 * ofLe t

/-- The `n` bytes of a number, most significant first. -/
def beBytes (n w : Nat) : Bytes := (leBytes n w).reverse

/-- The number a big-endian byte string spells. -/
def ofBe (b : Bytes) : Nat := ofLe b.reverse

/-- `n` bytes of a string from an offset; missing bytes read 0. -/
def slice (b : Bytes) (off n : Nat) : Bytes :=
  ((b.drop off).take n) ++ List.replicate (n - (b.length - off)) 0

/-- The little-endian number of `n` bytes at an offset. -/
def leAt (b : Bytes) (off n : Nat) : Nat := ofLe (slice b off n)

/-- A string cut or padded with zeros to `n` bytes. -/
def padTo (n : Nat) (b : Bytes) : Bytes := slice b 0 n

/-- Put a byte string into a table of bytes from a key on. -/
def Tbl.putBytes (t : Tbl Byte) (a : Nat) : Bytes → Tbl Byte
  | [] => t
  | b :: bs => Tbl.putBytes (Tbl.put t 0 a b) (a + 1) bs

/-- `n` bytes of a table of bytes from a key on. -/
def Tbl.bytes (t : Tbl Byte) (a n : Nat) : Bytes := (List.range n).map (fun i => Tbl.getD t (a + i) 0)

/-- Zero bytes. -/
def zeros (n : Nat) : Bytes := List.replicate n 0

/-- The XOR of two strings over the shorter length. -/
def xorBytes (a b : Bytes) : Bytes := List.zipWith (· ^^^ ·) a b

/-- Divide, rounding up. -/
def ceilDiv (a b : Nat) : Nat := (a + b - 1) / b

/-- Add 1 to a register and stay at all ones (R480). -/
def satInc {n : Nat} (x : BitVec n) : BitVec n := if x = BitVec.allOnes n then x else x + 1

/-- Add a number to a register and stay at all ones. -/
def satAdd {n : Nat} (x : BitVec n) (m : Nat) : BitVec n := BitVec.ofNat n (min (x.toNat + m) (2 ^ n - 1))

/-- `x` with the field of `n` bits at `lo` replaced by `v`. -/
def setFld (x lo n v : Nat) : Nat := x - fld x lo n * 2 ^ lo + v % 2 ^ n * 2 ^ lo

/-- A register with bit `i` set or cleared. -/
def setBit {n : Nat} (x : BitVec n) (i : Nat) (b : Bool) : BitVec n :=
  if b then x ||| BitVec.ofNat n (2 ^ i) else x &&& ~~~ (BitVec.ofNat n (2 ^ i))

/-- The least number below a bound of which a test holds. -/
def firstBelow (n : Nat) (p : Nat → Bool) : Option Nat := (List.range n).find? p

/-- The position after `p` in a ring of `n`, in order, of which a test holds (round robin). -/
def nextAfter (n p : Nat) (test : Nat → Bool) : Option Nat :=
  ((List.range n).map (fun i => (p + 1 + i) % n)).find? test

namespace Machine

/-! ## Fields of a job's head entry (Table 3.1) -/

/-- Head word `i`, 1 to 6. -/
def Job.word (j : Job) (i : Nat) : Nat := ((j.words[i - 1]?).getD 0).toNat

/-- KEY. -/
def Job.handle (j : Job) : Nat := fld (j.word 1) 32 32
/-- BUDGET. -/
def Job.budget (j : Job) : Nat := fld (j.word 1) 0 32
/-- IN_IOVA. -/
def Job.inIova (j : Job) : Nat := j.word 2
/-- OUT_CAP. -/
def Job.outCap (j : Job) : Nat := fld (j.word 3) 32 32
/-- IN_LEN. -/
def Job.inLen (j : Job) : Nat := fld (j.word 3) 0 32
/-- OUT_IOVA. -/
def Job.outIova (j : Job) : Nat := j.word 4
/-- AUX_IOVA. -/
def Job.auxIova (j : Job) : Nat := j.word 5
/-- PARAM. -/
def Job.param (j : Job) : Nat := fld (j.word 6) 32 32
/-- AUX_LEN. -/
def Job.auxLen (j : Job) : Nat := fld (j.word 6) 0 32

/-- OPCODE [15:12]. -/
def Job.opClass (j : Job) : Nat := fld j.opcode 12 4
/-- OPCODE [11:8]. -/
def Job.opFamily (j : Job) : Nat := fld j.opcode 8 4
/-- OPCODE [7:4]. -/
def Job.opOp (j : Job) : Nat := fld j.opcode 4 4
/-- OPCODE [3:0]. -/
def Job.opParam (j : Job) : Nat := fld j.opcode 0 4

/-- The pieces of a buffer of a KIND, in order: the head address, or the extents (R69). -/
def Job.pieces (j : Job) (kind : Nat) : List (Nat × Nat) :=
  let addr := if kind = 0 then j.inIova else if kind = 1 then j.outIova else j.auxIova
  let len := if kind = 0 then j.inLen else if kind = 1 then j.outCap else j.auxLen
  if len = 0 then []
  else if addr ≠ 0 then [(addr, len)]
  else (j.exts.filter (fun e => e.kind = kind && e.len ≠ 0)).map (fun e => (e.addr, e.len))

/-- Blocks or uses a job of an opcode takes from a key (R126, R223): TDEA encryption counts blocks, TDEA decryption none; a key-store
command with a key reserves one, and returns it where it computes nothing under the key (log 22). -/
def Job.useCount (x : Job) : Nat :=
  if x.opClass = 5 then b2n (decide (0x5003 ≤ x.opcode ∧ x.opcode ≤ 0x500B))
  else if x.opClass = 4 && x.opFamily = 3 then (if x.opOp = 1 then x.inLen / 8 else 0)
  else 1

/-! ## Key handles (Table 5.1) -/

/-- OWNER. -/
def handleOwner (h : Nat) : Nat := fld h 22 10
/-- INDEX. -/
def handleIndex (h : Nat) : Nat := fld h 4 18
/-- EPOCH. -/
def handleEpoch (h : Nat) : Nat := fld h 0 4
/-- A handle from its fields. -/
def mkHandle (owner index epoch : Nat) : Nat := owner * 2 ^ 22 + index * 16 + epoch
/-- The directory slot of an owner's index. -/
def keySlot (owner index : Nat) : Nat := owner * 262144 + index
/-- The handle names the owner's device-wrap key (R120). -/
def isDwk (h : Nat) : Bool := handleIndex h == 0 && handleEpoch h == 15

/-! ## Location codes -/

/-- The location code word of Table 1.2 with no lane. -/
def locCode (dev frm crl spn : Nat) : W32 := BitVec.ofNat 32 (dev * 2 ^ 14 + frm * 2 ^ 12 + crl * 2 ^ 8 + spn * 16)

/-- The ENGINE field of a completion (R16). -/
def engineCode (frm crl spn : Nat) : BitVec 16 := BitVec.ofNat 16 (frm * 2 ^ 14 + crl * 2 ^ 10 + spn * 64)

/-- Number of creel `c` of frame `f` in the tables of creels. -/
def creelNo (f c : Nat) : Nat := 11 * f + c
/-- Number of unit `u` of creel `c` of frame `f` in the table of units; 12 is the carder. -/
def unitNo (f c u : Nat) : Nat := 13 * creelNo f c + u
/-- Number of ring `r` of function `f`. -/
def ringNo (f r : Nat) : Nat := 256 * f + r
/-- Number of vector `v` of function `f`. -/
def vecNo (f v : Nat) : Nat := 256 * f + v

end Machine
end Sys2Proof
end

