-- ==== Sys2Proof/Machine/Flags.lean ====
section
/-! DEFINITION. Every flag the device computes: the flags byte of a completion (Table 3.4), the N, Z, C and V flags and the
conditions of the Crixa cores (R362, Table 13.5), the scalar flags of a routine (R259), CTIME (R61), and even parity (R264). -/

namespace Sys2Proof.Machine

/-! ## STATUS_MAJOR (R60) -/

/-- VERIFY_FAIL -/
abbrev verifyFail : Nat := 0x01
/-- INPUT -/
abbrev inputErr : Nat := 0x02
/-- KEY -/
abbrev keyErr : Nat := 0x03
/-- RNG_UNAVAILABLE -/
abbrev rngErr : Nat := 0x04
/-- DEADLINE -/
abbrev deadlineErr : Nat := 0x05
/-- DMA -/
abbrev dmaErr : Nat := 0x06
/-- ABORTED -/
abbrev abortedErr : Nat := 0x07
/-- RESOURCE -/
abbrev resourceErr : Nat := 0x08
/-- INTEGRITY -/
abbrev integrityErr : Nat := 0x09
/-- SPOOL -/
abbrev spoolErr : Nat := 0x0A
/-- CONFLICT -/
abbrev conflictErr : Nat := 0x0B
/-- UNSUPPORTED -/
abbrev unsupportedErr : Nat := 0x0C
/-- FROZEN -/
abbrev frozenErr : Nat := 0x0D
/-- APPLET -/
abbrev appletErr : Nat := 0x0E
/-- BUSY -/
abbrev busyErr : Nat := 0x0F

/-- The FLAGS byte of a completion, bits [7:3] of head word 0, with the echoed LAST and FIRST and OWN = 0 (R60). -/
def completionFlags (j : Job) (last first : Bool) : Nat :=
  b2n j.fHeld * 128 + b2n j.fKeyFetched * 64 + b2n j.fFanout * 32 + b2n j.fRetried * 16 + b2n j.fLate * 8 +
    b2n last * 4 + b2n first * 2

/-- Word 0 of an entry as the device writes it back (Table 3.4, R78). -/
def completionWord (j : Job) (last first : Bool) : W64 :=
  BitVec.ofNat 64 (j.seq.toNat * 2 ^ 48 + j.engine.toNat * 2 ^ 32 + j.detail * 2 ^ 16 + j.major * 2 ^ 8 +
    completionFlags j last first)

/-- CTIME: cycles in units of 256, rounded up, saturating (R61, Table 3.5). -/
def ctime (cycles : Nat) : Nat := min (ceilDiv cycles 256) 0xFFFFFFFF

/-- Word 7 of the head entry as the device writes it (Table 3.5). -/
def completionWord7 (j : Job) : W64 := BitVec.ofNat 64 (ctime j.cycles * 2 ^ 32 + j.resLen % 2 ^ 32)

/-- The four flags of the Crixa scalar unit (R362). -/
structure Nzcv where
  /-- negative -/
  n : Bool
  /-- zero -/
  z : Bool
  /-- carry: no borrow of a subtraction -/
  c : Bool
  /-- overflow -/
  v : Bool
deriving DecidableEq, Repr

/-- Flags of a result with a carry and an overflow. -/
def nzcvOf (r : W64) (c v : Bool) : Nzcv := { n := r.msb, z := r == 0, c := c, v := v }

/-- Flags of `a + b` (R362). -/
def nzcvAdd (a b : W64) : Nzcv :=
  nzcvOf (a + b) (decide (2 ^ 64 ≤ a.toNat + b.toNat)) (a.msb == b.msb && (a + b).msb != a.msb)

/-- Flags of `a − b`; C = 1 when there is no borrow, so that GEU and LTU read as unsigned comparisons (Table 13.5). -/
def nzcvSub (a b : W64) : Nzcv :=
  nzcvOf (a - b) (decide (b.toNat ≤ a.toNat)) (a.msb != b.msb && (a - b).msb != a.msb)

/-- The conditions of Table 13.5. -/
def condHolds (cond : Nat) (f : Nzcv) : Bool :=
  match cond with
  | 0 => true
  | 1 => f.z
  | 2 => !f.z
  | 3 => f.n != f.v
  | 4 => f.n == f.v
  | 5 => !f.z && f.n == f.v
  | 6 => f.z || f.n != f.v
  | 7 => !f.c
  | 8 => f.c
  | 9 => f.c && !f.z
  | 10 => !f.c || f.z
  | 11 => f.n
  | 12 => !f.n
  | 13 => f.v
  | 14 => !f.v
  | _ => false

/-- The precedence of a writer of a register (R10). -/
def writerRank : RegWriter → Nat
  | .trusted => 2 | .manager => 1 | .strand => 0

/-- The value that takes effect of those written to one register in one cycle: that of the first writer in precedence (R10). -/
def cycleWins (c : Cycle) (value : W64) : W64 :=
  (c.rivals.foldl (fun (b : RegWriter × W64) r => if writerRank b.1 < writerRank r.1 then r else b) (c.writer, value)).2

/-- The number of 1 bits of a number below 2^n. -/
def popCount : Nat → Nat → Nat
  | 0, _ => 0
  | n + 1, w => w % 2 + popCount n (w / 2)

/-- Even parity over `n` bits: an even number of 1 bits (R264). -/
def evenParity (n w : Nat) : Bool := popCount n w % 2 == 0

/-- A micro-word's parity holds (R258). -/
def microParity (w : BitVec 40) : Bool := evenParity 40 w.toNat

/-- A nano-word's eight parities hold (Table 9.4: PAR[i] over bits [23i + 22 : 23i]). -/
def nanoParity (w : BitVec 192) : Bool :=
  (List.range 8).all (fun i => fld w.toNat (184 + i) 1 == popCount 23 (fld w.toNat (23 * i) 23) % 2)

/-- The scalar flags of a routine's arithmetic: Z and N of the 64-bit result (R259, Table 9.3). -/
def microZ (r : W64) : Bool := r == 0

end Sys2Proof.Machine
end

