-- ==== Sys2Proof/Machine/BigNum.lean ====
section
/-! DEFINITION. The arithmetic of the raw big-number jobs (R216, R217, Tables 7.8 and 7.9) on natural numbers: modular powers,
products and inverses, and the addition and multiplication of points of y² = x³ + ax + b over the field of a prime p. -/

namespace Sys2Proof.Machine

/-- base^e mod m by squaring; `n` bits of the exponent are processed. -/
def powMod : Nat → Nat → Nat → Nat → Nat
  | 0, _, _, m => 1 % m
  | n + 1, b, e, m =>
    let h := powMod n (b * b % m) (e / 2) m
    if e % 2 = 1 then b * h % m else h

/-- Extended Euclid: (g, x) with a x ≡ g modulo the second argument; `n` bounds the divisions. -/
def euclid : Nat → Nat → Nat → Int → Int → Nat × Int
  | 0, r, _, x, _ => (r, x)
  | n + 1, r, r', x, x' => if r' = 0 then (r, x) else euclid n r' (r % r') x' (x - Int.ofNat (r / r') * x')

/-- The inverse of a modulo m, where a is coprime to m (MODINV); `bits` bounds the operands. -/
def invMod (bits a m : Nat) : Option Nat :=
  let (g, x) := euclid (2 * bits + 2) a m 1 0
  if a = 0 || g ≠ 1 then none else some (x % Int.ofNat m).toNat

/-- A point: none is the point at infinity. -/
abbrev Pt : Type := Option (Nat × Nat)

/-- The sum of two points of a curve over the field of a prime p. -/
def ptAdd (bits p a : Nat) (P Q : Pt) : Pt :=
  match P, Q with
  | none, _ => Q
  | _, none => P
  | some (x1, y1), some (x2, y2) =>
    if x1 = x2 && (y1 + y2) % p = 0 then none
    else
      let num := if x1 = x2 then 3 * x1 * x1 + a else y2 + (p - y1)
      let den := if x1 = x2 then 2 * y1 else x2 + (p - x1)
      let l := num * powMod bits (den % p) (p - 2) p % p
      let x3 := (l * l + (p - x1) + (p - x2)) % p
      some (x3, (l * (x1 + (p - x3)) + (p - y1)) % p)

/-- k P by doubling and adding over `n` bits of k. -/
def ptMul (bits p a : Nat) : Nat → Nat → Pt → Pt
  | 0, _, _ => none
  | n + 1, k, P =>
    let h := ptMul bits p a n (k / 2) (ptAdd bits p a P P)
    if k % 2 = 1 then ptAdd bits p a P h else h

/-! ## Layouts (Table 7.9) -/

/-- L of a raw job. -/
def rawL (x : Job) : Nat := fld x.param 0 9

/-- The `i`-th operand of L words of a raw job's input. -/
def rawOp (x : Job) (i : Nat) : Nat := leAt (x.input.getD []) (8 * rawL x * i) (8 * rawL x)

/-- The point at an offset of a raw job's input: its tag and its coordinates. -/
def rawPt (x : Job) (off : Nat) : Nat × Nat × Nat :=
  let b := x.input.getD []
  let n := 8 * rawL x
  (leAt b (off + 2 * n) 8, leAt b off n, leAt b (off + n) n)

/-- The bytes of a raw point; of the point at infinity, whose x and y are ignored, x and y are given (R217). -/
def rawPtBytes (L : Nat) (ignored : Bytes) : Pt → Bytes
  | none => ignored ++ leBytes 8 1
  | some (x, y) => leBytes (8 * L) x ++ leBytes (8 * L) y ++ leBytes 8 0

/-- A strong probable-prime test of p to one base: from a^(p−1) = 1 down by square roots. -/
def strongProbable (bits p a : Nat) : Nat → Nat → Bool
  | 0, _ => true
  | n + 1, e =>
    let y := powMod bits a (e / 2) p
    if y + 1 = p then true else if y ≠ 1 then false else if e / 2 % 2 = 1 then true else strongProbable bits p a n (e / 2)

/-- p is composite: a base among the first primes is a witness (log 23). -/
def knownComposite (bits p : Nat) : Bool :=
  [2, 3, 5, 7, 11, 13, 17, 19, 23, 29, 31, 37].any (fun a =>
    a % p ≠ 0 && !(powMod bits a (p - 1) p = 1 && strongProbable bits p a bits (p - 1)))

/-- Input length of a raw job. -/
def rawInLen (op L : Nat) : Nat := [24 * L, 24 * L, 16 * L, 56 * L + 16, 48 * L + 8].getD (op - 1) 0

/-- Output length of a raw job. -/
def rawOutLen (op L : Nat) : Nat := if op ≤ 3 then 8 * L else 16 * L + 8

/-- Cycles of a raw job (Table 7.9); a fraction of a cycle counts as one. -/
def rawCycles (op L : Nat) : Nat :=
  [48 * L ^ 3 + 4800 * L + 2000, ceilDiv (3 * L ^ 2) 5 + 2000, 32 * L ^ 2 + 1024 * L + 2000, 12 * L ^ 2 + 3200,
    768 * L ^ 3 + 76800 * L + 2000].getD (op - 1) 0

/-- The curve of ECADD and ECMUL is refused (Table 7.8). -/
def curveBad (p a b : Nat) : Bool :=
  p % 2 = 0 || decide (p < 5) || decide (p ≤ a) || decide (p ≤ b) || (4 * a ^ 3 + 27 * b ^ 2) % p = 0

/-- The check of one raw point (Table 7.8). -/
def rawPtErr (p a b : Nat) (pt : Nat × Nat × Nat) : Option (Nat × Nat) :=
  let (tag, x, y) := pt
  if 2 ≤ tag then some (inputErr, 0x0310)
  else if tag = 1 then none
  else if p ≤ x || p ≤ y then some (inputErr, 0x0304)
  else if y * y % p ≠ (x ^ 3 + a * x + b) % p then some (inputErr, 0x0302)
  else none

/-- A raw point as a value. -/
def rawPtVal (pt : Nat × Nat × Nat) : Pt := if pt.1 = 1 then none else some (pt.2.1, pt.2.2)

/-- The check phase of a raw job (Table 7.8). -/
def rawErr (x : Job) : Option (Nat × Nat) :=
  let L := rawL x
  let m := rawOp x 0
  if x.opOp ≤ 3 then
    if m ≤ 1 || m % 2 = 0 then some (inputErr, 0x0309)
    else if m ≤ rawOp x 1 || (x.opOp = 2 && decide (m ≤ rawOp x 2)) then some (inputErr, 0x0301)
    else none
  else
    let a := rawOp x 1
    let b := rawOp x 2
    if curveBad m a b then some (inputErr, 0x0309)
    else
      (rawPtErr m a b (rawPt x (24 * L))).or
        (if x.opOp = 4 then rawPtErr m a b (rawPt x (40 * L + 8)) else none)

end Sys2Proof.Machine
end

