-- ==== Sys2Proof/Machine/Ops.lean ====
section
/-! DEFINITION. The named operations every command is built from: reading and writing the parts of the state, the free
values, GLB_MODE as the conditions give it (R32 to R34), MSI-X messages and coalescing (R82 to R84), delay lists (R335,
R336), the decision trace (R341 to R343), notices (R319), ordering groups (R333). -/

namespace Sys2Proof.Machine

/-! ## Parts of the state -/

/-- BAR0 page of a function. -/
def State.page (s : State) (f : Nat) : FnPage := s.fns.getD f {}
/-- Set the BAR0 page of a function. -/
def State.setPage (s : State) (f : Nat) (p : FnPage) : State := { s with fns := s.fns.put {} f p }
/-- A strand; strand 0, the manager, is always enabled at generation 0 (R309, R327). -/
def State.strand (s : State) (f : Nat) : Strand :=
  if f = 0 then { state := .enabled } else s.strands.getD f {}
/-- Set a strand; the manager's entry does not exist. -/
def State.setStrand (s : State) (f : Nat) (x : Strand) : State :=
  if f = 0 then s else { s with strands := s.strands.put {} f x }
/-- A ring. -/
def State.ring? (s : State) (f r : Nat) : Option Ring := s.rings.get? (ringNo f r)
/-- Set a ring. -/
def State.setRing (s : State) (f r : Nat) (x : Ring) : State := { s with rings := s.rings.insert (ringNo f r) x }
/-- A job. -/
def State.job? (s : State) (j : Nat) : Option Job := s.jobs.get? j
/-- Set a job. -/
def State.setJob (s : State) (j : Nat) (x : Job) : State := { s with jobs := s.jobs.insert j x }
/-- A frame pipeline. -/
def State.frame (s : State) (f : Nat) : Frame := s.frames.getD f {}
/-- Set a frame pipeline. -/
def State.setFrame (s : State) (f : Nat) (x : Frame) : State := { s with frames := s.frames.put {} f x }
/-- A creel. -/
def State.creel (s : State) (f c : Nat) : Creel := s.creels.getD (creelNo f c) {}
/-- Set a creel. -/
def State.setCreel (s : State) (f c : Nat) (x : Creel) : State := { s with creels := s.creels.put {} (creelNo f c) x }
/-- A spindle, or the carder as unit 12. -/
def State.unit (s : State) (f c u : Nat) : Unit' := s.units.getD (unitNo f c u) {}
/-- Set a unit. -/
def State.setUnit (s : State) (f c u : Nat) (x : Unit') : State := { s with units := s.units.put {} (unitNo f c u) x }
/-- A Crixa core; 4 is core T. -/
def State.core (s : State) (n : Nat) : Core := s.crx.cores.getD n {}
/-- Set a Crixa core. -/
def State.setCore (s : State) (n : Nat) (x : Core) : State :=
  { s with crx := { s.crx with cores := s.crx.cores.put {} n x } }
/-- A call context. -/
def State.ctx (s : State) (n : Nat) : Ctx := s.crx.ctxs.getD n {}
/-- Set a call context. -/
def State.setCtx (s : State) (n : Nat) (x : Ctx) : State :=
  { s with crx := { s.crx with ctxs := s.crx.ctxs.put {} n x } }
/-- A noise source. -/
def State.src (s : State) (n : Nat) : Src := s.rng.srcs.getD n {}
/-- Set a noise source. -/
def State.setSrc (s : State) (n : Nat) (x : Src) : State :=
  { s with rng := { s.rng with srcs := s.rng.srcs.put {} n x } }
/-- A DRBG instance. -/
def State.inst (s : State) (n : Nat) : Inst := s.rng.insts.getD n {}
/-- Set a DRBG instance. -/
def State.setInst (s : State) (n : Nat) (x : Inst) : State :=
  { s with rng := { s.rng with insts := s.rng.insts.put {} n x } }
/-- A register slot of the digest engine. -/
def State.dslot (s : State) (n : Nat) : DSlot := s.dge.slots.getD n {}
/-- Set a register slot of the digest engine. -/
def State.setDslot (s : State) (n : Nat) (x : DSlot) : State :=
  { s with dge := { s.dge with slots := s.dge.slots.put {} n x } }
/-- A shuttle instance. -/
def State.shuttle (s : State) (n : Nat) : Shuttle := s.sht.getD n {}
/-- Set a shuttle instance. -/
def State.setShuttle (s : State) (n : Nat) (x : Shuttle) : State := { s with sht := s.sht.put {} n x }
/-- A spool port. -/
def State.port (s : State) (p : Port) : Spl := match p with | .a => s.spl.a | .b => s.spl.b
/-- Set a spool port. -/
def State.setPort (s : State) (p : Port) (x : Spl) : State :=
  match p with
  | .a => { s with spl := { s.spl with a := x } }
  | .b => { s with spl := { s.spl with b := x } }
/-- The other spool port. -/
def otherPort : Port → Port | .a => .b | .b => .a
/-- The number of a spool port: 0 SPL_A, 1 SPL_B. -/
def portNo : Port → Nat | .a => 0 | .b => 1
/-- A key object by directory slot. -/
def State.key? (s : State) (slot : Nat) : Option KeyObj := s.kst.keys.get? slot
/-- Set a key object. -/
def State.setKey (s : State) (slot : Nat) (k : KeyObj) : State :=
  { s with kst := { s.kst with keys := s.kst.keys.insert slot k } }

/-- PTC_BOOT as a number of microseconds. -/
def State.now (s : State) : Nat := s.glb.ptcBoot.toNat

/-- The largest strand number: GLB_CAP0.MAX_VF of the AKN-9528 (R3). -/
def maxVf : Nat := 1023

/-- A strand number names an enabled VF (R104). -/
def State.vfEnabled (s : State) (f : Nat) : Bool := decide (1 ≤ f) && decide (f ≤ maxVf) && decide (f ≤ s.host.numVfs)

/-! ## Free values (log 2) -/

/-- Draw `n` free bytes. -/
def State.freeBytes (s : State) (n : Nat) : Bytes × State :=
  ((List.range n).map (fun i => Config.freeByte (s.free + i)), { s with free := s.free + n })
/-- Draw a free number. -/
def State.freeNum (s : State) : Nat × State := (Config.freeNat s.free, { s with free := s.free + 1 })
/-- Draw a free truth value. -/
def State.freeBit (s : State) : Bool × State := (Config.freeBool s.free, { s with free := s.free + 1 })

/-! ## GLB_MODE (R32 to R34) -/

/-- The set point of the creel islands in units of 50 MHz (R252). -/
def State.setPoint (s : State) : Nat := max 16 (min 30 (fld s.cap.set.toNat 0 5))

/-- Capping holds a creel island below its set point (R253, Table 2.1). -/
def State.capped (s : State) : Bool :=
  s.cap.lowered && (List.range 44).any (fun k => decide ((s.creels.getD k {}).freq < s.setPoint))

/-- The mode of Table 2.1 that the phase and the conditions call for, in the order of R34. -/
def State.modeNow (s : State) : Byte :=
  let g := s.glb
  if g.phase = .vigil then 0x0F
  else if g.zeroized then 0xC3
  else if g.halted then 0xAA
  else if g.phase = .held || g.phase = .kindle then 0x33
  else if g.debug then 0xA5
  else if g.phase = .gather then (if g.unseeded then 0x55 else 0x3C)
  else if g.raw then 0x99
  else if g.update then 0x96
  else if g.drain ≠ .none then 0x69
  else if g.unseeded then 0x55
  else if s.capped then 0x66
  else 0x5A

/-- GLB_MODE follows the conditions: PREV takes the code reported before a change (R34, Table 2.3). -/
def State.settle (s : State) : State :=
  if s.modeNow = s.glb.mode then s
  else { s with glb := { s.glb with mode := s.modeNow, prev := s.glb.mode } }

/-- The end of every command: the next state, with GLB_MODE settled. -/
def finish (s : State) : Host.Outcome State Fault Refusal := .next s.settle

/-- The twelve codes of Table 2.1. -/
def modeCodes : List Byte := [0x0F, 0x33, 0x3C, 0x55, 0x5A, 0x66, 0x69, 0x96, 0x99, 0xA5, 0xAA, 0xC3]

/-- Main power is present, reset released, the clocks run: the device can act on a command of its pipeline. -/
def State.live (s : State) : Bool :=
  s.pins.mainPower && !s.pins.perst && !s.glb.tripped && !s.glb.halted &&
    (s.glb.phase = .running || s.glb.phase = .gather)

/-- Registers can be read and written over BAR0 and BAR2 (R37: from the start of GATHER; HALTED included). -/
def State.barsOpen (s : State) : Bool :=
  s.pins.mainPower && !s.pins.perst && !s.glb.tripped &&
    (s.glb.phase = .running || s.glb.phase = .gather || (s.glb.halted && s.glb.phase = .kindle))

/-- The mode fetches descriptors (R33, R36). -/
def State.fetches (s : State) : Bool :=
  s.live && s.glb.ringsOpen && s.glb.drain = .none && !s.glb.update && !s.glb.raw

/-! ## The host link (log 10) -/

/-- Issue a transaction. -/
def State.send (s : State) (m : HostMsg) : State := { s with host := { s.host with out := s.host.out ++ [m] } }

/-- A vector of a function is masked (PCIe: vector control bit 0). -/
def State.masked (s : State) (f v : Nat) : Bool := bitOf (s.host.msix.getD (vecNo f v) {}).ctrl.toNat 0

/-- An access that R8 does not accept: Unsupported Request, no effect. -/
def State.unsupported (s : State) : State := { s with host := { s.host with ur := true } }

/-- Signal a vector: a message, or the PBA bit while it is masked (R83). -/
def State.signal (s : State) (f v : Nat) : State :=
  if s.masked f v then { s with host := { s.host with pba := s.host.pba.put false (vecNo f v) true } }
  else s.send (.msix f v)

/-- Count a host error met by a job or a ring read and set its HST_ERR bit (R482): 0 UR/CA, 1 translation, 2 time-out,
3 poison. -/
def State.hostError (s : State) (bit : Nat) : State :=
  { s with host := { s.host with err := setBit s.host.err bit true, cntDmaErr := satInc s.host.cntDmaErr } }

/-- The HST_ERR bit of a failed read; a short read sets none (log 18). -/
def readErrBit : ReadOutcome → Option Nat
  | .ok | .short => none
  | .error => some 0
  | .translation => some 1
  | .timeout => some 2
  | .poison => some 3

/-- Count a failed host read. -/
def State.readError (s : State) (o : ReadOutcome) : State :=
  match readErrBit o with
  | some b => s.hostError b
  | none => if o = .short then { s with host := { s.host with cntDmaErr := satInc s.host.cntDmaErr } } else s

/-! ## Delay lists (R335, R336) -/

/-- Reserve of a delay list (Table 12.2). -/
def dlReserve : Nat → Nat
  | 0 => 8192 | 1 => 64 | 2 => 1024 | 5 => 16 | 6 => 256 | 7 => 64 | _ => 0

/-- Entries of a delay list in order of insertion. -/
def State.dl (s : State) (l : Nat) : List DlEntry := s.hdl.dl.getD l []

/-- Free entries of the pool (HDL_STS.POOL_FREE). -/
def State.poolFree (s : State) : Nat :=
  55920 - ((List.range 8).map (fun l => (s.dl l).length - dlReserve l)).sum

/-- Replace the entries of a delay list, keeping HIGH. -/
def State.setDl (s : State) (l : Nat) (es : List DlEntry) : State :=
  { s with hdl := { s.hdl with
      dl := s.hdl.dl.put [] l es
      high := s.hdl.high.put 0 l (max (s.hdl.high.getD l 0) es.length) } }

/-- Remove the entries of a command from a delay list. -/
def State.dlRemove (s : State) (l : Nat) (c : Instr) : State := s.setDl l ((s.dl l).filter (fun e => e.cmd ≠ c))

/-- The entry of least expiry, the first inserted among equals. -/
def earliest : List DlEntry → Option DlEntry
  | [] => none
  | e :: es =>
    match earliest es with
    | none => some e
    | some m => if m.at_ < e.at_ then some m else some e

/-- The entry of greatest expiry, the first inserted among equals. -/
def latest : List DlEntry → Option DlEntry
  | [] => none
  | e :: es =>
    match latest es with
    | none => some e
    | some m => if e.at_ < m.at_ then some m else some e

/-! ## Trace records (R341) -/

/-- What a trace record says beside its SEQ and TIME. -/
structure Ev where
  /-- EVENT. -/
  event : Nat
  /-- source bit, none for an event recorded always -/
  src : Option Nat
  /-- CLASS -/
  cls : Nat := 0
  /-- FUNC -/
  fn : Nat := 0
  /-- LOC; none: the event names no place, and the field is a free value -/
  loc : Option W32 := none
  /-- JSEQ -/
  jseq : Nat := 0
  /-- RING -/
  ring : Nat := 0
  /-- ARG -/
  arg : Nat := 0

/-- The record is kept: its event is always recorded, or ENABLE and its source bit are set (R342). -/
def State.records (s : State) (e : Ev) : Bool :=
  match e.src with
  | none => true
  | some b => s.trc.enable && bitOf s.trc.mask.toNat b

/-- A record goes to the trace port, or is dropped there and counted while the port is busy (R343). A record keeps the port busy
for 40 ns: in its microsecond and the next one the model does not tell, and a free value does. -/
def State.tracePort (s : State) (r : List W64) : State :=
  if s.trc.port then
    let near := match s.trc.portAt with | some t => decide (s.now ≤ t + 1) | none => false
    let (b, s) := s.freeBit
    if near && b then { s with trc := { s.trc with cntDrop := satInc s.trc.cntDrop } }
    else { s with trc := { s.trc with portOut := s.trc.portOut ++ [r], portAt := some s.now } }
  else s

/-- The location code that a free number picks: each code of Table 1.2 that is produced, on this device (R14, R15). -/
def someLoc (dev n : Nat) : Nat :=
  let crl := if n / 4 % 12 = 11 then 15 else n / 4 % 12
  let spn := if crl = 15 || n / 48 % 14 = 13 then 15 else n / 48 % 14
  let lane := if spn < 12 && decide (n / 672 % 17 < 16) then 2 ^ 17 + n / 672 % 17 else 0
  lane + dev % 8 * 2 ^ 14 + n % 4 * 2 ^ 12 + crl * 2 ^ 8 + spn * 2 ^ 4

/-- Write a record to the buffer and queue it for the mirror ring (R341, R343). The nanoseconds within the microsecond are
a free value, and so is LOC, among the codes of Table 1.2, where the event names no place. -/
def State.traceBuf (s : State) (e : Ev) : State :=
  if s.records e then
    let (ns, s) := s.freeNum
    let (loc, s) := match e.loc with
      | some l => (l.toNat, s)
      | none => let (n, s) := s.freeNum; (someLoc s.ply.ord n, s)
    let w0 := BitVec.ofNat 64 (s.trc.seq.toNat + e.event * 2 ^ 32 + e.cls % 4 * 2 ^ 40 + e.fn * 2 ^ 48)
    let w1 := BitVec.ofNat 64 (s.now * 1024 + ns % 1000)
    let w2 := BitVec.ofNat 64 (loc + e.jseq * 2 ^ 32 + e.ring * 2 ^ 48)
    let r := [w0, w1, w2, BitVec.ofNat 64 e.arg]
    let s : State := { s with trc := { s.trc with
        seq := s.trc.seq + 1
        buf := s.trc.buf.insert (s.trc.seq.toNat % 8192) r
        mirQ := if s.trc.mirror then s.trc.mirQ ++ [r] else s.trc.mirQ } }
    s.tracePort r
  else s

/-! ## Interrupt coalescing (R82, R83) -/

/-- The ring's message is sent and its pending count returns to 0; its timer ends. -/
def State.sendRingIrq (s : State) (f r : Nat) : State :=
  match s.ring? f r with
  | none => s
  | some g => ((s.setRing f r { g with pendIrq := 0, timer := false }).dlRemove 3 (.coalesceTimeout f r)).signal f g.vec

/-- Free an entry of the pool by the steps of R336: the IRQ entry of earliest expiry fires at once; with none, the SPOOL entry of
earliest expiry, where list 5 has more than its reserve, and its command is carried out with the next tick (log 148); with neither,
the KEYWIN entry of latest expiry is dropped. -/
def State.dlFree (s : State) : State :=
  match earliest (s.dl 3) with
  | some e =>
    let s := s.setDl 3 ((s.dl 3).filter (fun x => x.cmd ≠ e.cmd))
    let s := { s with hdl := { s.hdl with cntEarly := satInc s.hdl.cntEarly } }
    let s := s.traceBuf { event := 0x0F, src := none, arg := 3 }
    match e.cmd with
    | .coalesceTimeout f r => s.sendRingIrq f r
    | _ => s
  | none =>
  match (if (s.dl 5).length ≤ dlReserve 5 then none else earliest (s.dl 5)) with
  | some e =>
    let s := s.setDl 5 ((s.dl 5).filter (fun x => x.cmd ≠ e.cmd))
    let s := { s with hdl := { s.hdl with cntEarly := satInc s.hdl.cntEarly, early := s.hdl.early ++ [e.cmd] } }
    s.traceBuf { event := 0x0F, src := none, arg := 5 }
  | none =>
    match latest (s.dl 4) with
    | some e =>
      let s := s.setDl 4 ((s.dl 4).filter (fun x => x.cmd ≠ e.cmd))
      let s := { s with hdl := { s.hdl with cntEvict := satInc s.hdl.cntEvict } }
      s.traceBuf { event := 0x0F, src := none, arg := 4 + 8 }
    | none => s

/-- Insert an entry: from the list's reserve, then from the pool, freeing one where R336 says so; a KEYWIN entry that finds
none is counted and not inserted. -/
def State.dlPut (s : State) (l at_ : Nat) (c : Instr) : State :=
  let fits (s : State) : Bool := decide ((s.dl l).length < dlReserve l) || decide (0 < s.poolFree)
  let s := if fits s then s else s.dlFree
  if fits s then s.setDl l (s.dl l ++ [{ at_ := at_, cmd := c }])
  else if l = 4 then { s with hdl := { s.hdl with cntEvict := satInc s.hdl.cntEvict } }
  else s

/-- A completion with IRQ = 1 counts for its ring; the first pending one starts the timer (R82, R102). -/
def State.countIrq (s : State) (f r : Nat) : State :=
  match s.ring? f r with
  | none => s
  | some g =>
    let n := g.pendIrq + 1
    let s := s.setRing f r { g with pendIrq := n }
    if g.cnt ≤ n then s.sendRingIrq f r
    else if g.tmo ≠ 0 && n = 1 && !g.timer then
      (s.setRing f r { g with pendIrq := n, timer := true }).dlPut 3 (s.now + g.tmo) (.coalesceTimeout f r)
    else s

/-! ## The mirror ring and the trace port (R343) -/

/-- Write one 64-byte mirror entry of two records at the mirror ring's next slot. -/
def State.mirrorEntry (s : State) (a b : List W64) : State :=
  match s.ring? 0 s.trc.mirrorRing with
  | none => s
  | some g =>
    let addr := g.base.toNat + 64 * (g.done.toNat % 2 ^ g.log2)
    let data := ((a ++ b).map (fun w => leBytes 8 w.toNat)).flatten
    let s := s.send (.write 0 addr data)
    let s := s.setRing 0 s.trc.mirrorRing { g with done := g.done + 1 }
    s.countIrq 0 s.trc.mirrorRing

/-- Write every complete pair of queued records; `fuel` bounds the pairs. -/
def State.mirrorFlush (s : State) : Nat → State
  | 0 => s
  | fuel + 1 =>
    match s.trc.mirQ with
    | a :: b :: rest => (({ s with trc := { s.trc with mirQ := rest } } : State).mirrorEntry a b).mirrorFlush fuel
    | _ => s

/-- Every complete pair of queued records goes to the mirror ring; a pair's own coalescing may add a record to the queue. -/
def State.mirrorAll (s : State) : State := s.mirrorFlush (2 * s.trc.mirQ.length)

/-- Record an event of the trace. -/
def State.trace (s : State) (e : Ev) : State := (s.traceBuf e).mirrorAll

/-- Insert an entry into a delay list; the record of an entry freed early goes to the mirror ring (R336, R343). -/
def State.dlInsert (s : State) (l at_ : Nat) (c : Instr) : State := (s.dlPut l at_ c).mirrorAll

/-- The trace identity of a job. -/
def Job.ev (j : Job) (event : Nat) (src : Option Nat) (loc : W32) (arg : Nat) : Ev :=
  { event := event, src := src, cls := j.cls, fn := j.fn, loc := some loc, jseq := j.seq.toNat, ring := j.ring, arg := arg }

/-- The device ordinal of a location code. -/
def State.dev (s : State) : Nat := s.ply.ord

/-! ## Notices (R319) -/

/-- Write the record of a notice to a strand's comm page; N_HEAD follows its acknowledgement (`noticeHead`). -/
def State.notice (s : State) (f code arg0 arg1 : Nat) : State :=
  let x := s.strand f
  if f ≠ 0 && bitOf x.comm.toNat 0 then
    let h := x.nHead + 1
    let base := x.comm.toNat / 4096 * 4096
    let rec_ := leBytes 4 h.toNat ++ leBytes 2 code ++ leBytes 2 x.gen.toNat ++ leBytes 8 s.now ++ leBytes 8 arg0 ++
      leBytes 8 arg1
    let s := (s.send (.write 0 (base + 0xC20 + 32 * (h.toNat % 31)) rec_)).setStrand f { x with nHead := h }
    { s with host := { s.host with notices := s.host.notices ++ [{ fn := f, head := h }] } }
  else s

/-- The record of a notice has reached the host: N_HEAD is written, then MBX_STS.NOTICE is set and the vectors signalled. -/
def State.noticeHead (s : State) (f : Nat) (h : W32) : State :=
  let x := s.strand f
  let s := s.send (.write 0 (x.comm.toNat / 4096 * 4096 + 0xC00) (leBytes 8 h.toNat))
  let p := s.page f
  let s := s.setPage f { p with mbxSts := setBit p.mbxSts 1 true }
  let s := if x.state ≠ .disabled then s.signal f 0 else s
  if bitOf x.mbx.toNat 8 then s.signal 0 (fld x.mbx.toNat 0 8) else s

/-- The notices of a strand whose turn has come: N_HEAD never passes a record that is still being written (log 142). -/
def State.noticesOut (s : State) (f : Nat) : Nat → State
  | 0 => s
  | fuel + 1 =>
    match s.host.notices.find? (fun n => n.fn = f) with
    | some n =>
      if n.acked then
        ((({ s with host := { s.host with notices := s.host.notices.erase n } } : State).noticeHead f n.head).noticesOut f fuel)
      else s
    | none => s

/-- The record write of the outstanding notice `which` is acknowledged; of one that failed nothing more is written (log 142). -/
def State.noticeAck (s : State) (which : Nat) (ok : Bool) : State :=
  match s.host.notices[which]? with
  | none => s
  | some n =>
    let left := if ok then s.host.notices.set which { n with acked := true } else s.host.notices.eraseIdx which
    ({ s with host := { s.host with notices := left } } : State).noticesOut n.fn left.length

/-! ## Ordering groups (R333) -/

/-- The stamps of the group's jobs still in the device. -/
def State.ogStamps (s : State) (g : Nat) : List W32 :=
  s.jobs.filterMap (fun e => if e.2.ogrp = g then e.2.stamp else none)

/-- RSEQ passes over every stamp whose job has retired or left the device (R333). -/
def State.ogSettle (s : State) (g : Nat) : State :=
  let (a, r) := s.hdl.og.getD g (0, 0)
  let d := ((s.ogStamps g).map (fun x => (x - r).toNat)).foldl min (a - r).toNat
  { s with hdl := { s.hdl with og := s.hdl.og.put (0, 0) g (a, r + BitVec.ofNat 32 d) } }

/-- A job is no longer in the device; its group's successors are released when their turn comes. -/
def State.removeJob (s : State) (j : Nat) : State :=
  match s.job? j with
  | none => s
  | some x => ({ s with jobs := s.jobs.erase j } : State).ogSettle x.ogrp

/-- Change a job that is there. -/
def State.modJob (s : State) (j : Nat) (f : Job → Job) : State :=
  match s.job? j with
  | none => s
  | some x => s.setJob j (f x)

/-- Change a key that is there and is still the one meant. -/
def State.modKey (s : State) (slot uid : Nat) (f : KeyObj → KeyObj) : State :=
  match s.key? slot with
  | some k => if k.uid = uid then s.setKey slot (f k)
    else { s with kst := { s.kst with dying := s.kst.dying.map (fun e => if e.2.uid = uid then (e.1, f e.2) else e) } }
  | none => { s with kst := { s.kst with dying := s.kst.dying.map (fun e => if e.2.uid = uid then (e.1, f e.2) else e) } }

/-- Apply an operation for each number of a list. -/
def State.each (s : State) (l : List Nat) (f : State → Nat → State) : State := l.foldl f s

/-- The numbers of the jobs of which a test holds. -/
def State.jobsWhere (s : State) (p : Job → Bool) : List Nat := (s.jobs.filter (fun e => p e.2)).map (·.1)

/-- The device measures time: main power present and t0 of KINDLE passed (R51, R54). -/
def State.ticking (s : State) : Bool :=
  s.pins.mainPower && !s.pins.perst && !s.glb.tripped &&
    (s.glb.phase = .running || s.glb.phase = .gather || s.glb.phase = .kindle)

end Sys2Proof.Machine
end

