-- ==== Sys2Proof/Machine/Shuttle.lean ====
section
/-! DEFINITION. The shuttle instances (R344 to R353): requests with their latest-service times, the decision, grants by lane, the
hold monitor, starvation, emergency preemption. Times are cycles of the instance's clock; a request raised in a cycle is seen
from the next cycle on, so a free lane's decision is taken when a later cycle is known to have come (log 24). -/

namespace Sys2Proof.Machine

/-! ## Requesters (Table 12.6) -/

/-- Reset classes of an instance's slots in slot order; a slot beyond the list has no requester. -/
def shtClasses (i : Nat) : List Nat :=
  [[2, 2, 2, 2, 3, 2, 1, 3, 1], [2, 2, 2, 2, 3, 2, 1, 3, 1], [2, 2, 2, 2, 3, 1, 1], [2, 2, 2, 2, 1, 3],
    [2, 2, 2, 2, 3, 1], [3, 3, 1, 1], [3, 3, 1, 2], [1, 2, 2]].getD i []

/-- The emergency requester's slot. -/
def shtEmerg (i : Nat) : Nat := if i ≤ 1 then 14 else 15

/-- Lanes of an instance (R346). -/
def shtLanes (i : Nat) : Nat := if i = 3 then 16 else if i = 4 then 8 else 1

/-- SHT_REQ of a slot at reset (Table 12.13). -/
def shtReset (i r : Nat) : W64 :=
  BitVec.ofNat 64 (0x1000 * 2 ^ 32 + 0xFFFF * 2 ^ 16 + b2n (r = shtEmerg i) * 8 +
    b2n (r = shtEmerg i || decide (r < (shtClasses i).length)) * 4 + (shtClasses i).getD r 0)

/-- SHT_REQ of a slot. -/
def State.shtReq (s : State) (i r : Nat) : Nat := ((s.shuttle i).req.getD r (shtReset i r)).toNat

/-- The slot has a requester that may request now: the debug port only in DEBUG (R345). -/
def State.shtMay (s : State) (i r : Nat) : Bool :=
  decide (i < 8 ∧ r < 16) && bitOf (s.shtReq i r) 2 && (r ≠ 15 || s.glb.debug)

/-- HOLD, LAT and CLASS of a slot. -/
def State.shtHold (s : State) (i r : Nat) : Nat := fld (s.shtReq i r) 32 32
/-- CLASS. -/
def State.shtClass (s : State) (i r : Nat) : Nat := fld (s.shtReq i r) 0 2

/-- Class of a request in a decision: that of the job it is made for (R74), else the slot's; at a pool of lanes always the slot's
(R346, log 129). -/
def State.shtRank (s : State) (i : Nat) (r : ShtReq) : Nat :=
  if shtLanes i = 1 then r.cls.getD (s.shtClass i r.slot) else s.shtClass i r.slot

/-- The earlier of two latest-service times, where there is one. -/
def earlierLst : Option Nat → Option Nat → Option Nat
  | some a, some b => some (min a b)
  | some a, none => some a
  | none, b => b

/-- LST of a request in a decision: the earlier of its job's deadline and, with the LAT of now, the cycle it was raised plus LAT
(R347, R352). -/
def State.shtLst (s : State) (i : Nat) (r : ShtReq) : Option Nat :=
  let lat := fld (s.shtReq i r.slot) 16 16
  earlierLst r.lst (if lat = 0xFFFF then none else some (r.raised + lat))

/-- The clock of an instance in MHz (Table 12.6). -/
def shtMhz (i : Nat) : Nat := [1150, 1150, 1250, 1250, 1250, 200, 1000, 100].getD i 1

/-! ## The decision (R348) -/

/-- The first slot of a set after a slot, in slot order, wrapping at 15. -/
def nextSlot (p : Nat) (set : List Nat) : Option Nat :=
  ((List.range 16).map (fun k => (p + 1 + k) % 16)).find? (fun r => set.contains r)

/-- The waiting context of a slot that receives the lane: the earliest LST, else the oldest (R346). -/
def State.bestCtx (s : State) (i : Nat) (rs : List ShtReq) : Option ShtReq :=
  rs.foldl (fun (b : Option ShtReq) r =>
    match b with
    | none => some r
    | some q =>
      match s.shtLst i q, s.shtLst i r with
      | none, some _ => some r
      | some a, some c => if c < a then some r else some q
      | _, none => some q) none

/-- The highest class among some requests. -/
def State.shtTop (s : State) (i : Nat) (rs : List ShtReq) : Nat := rs.foldl (fun m r => max m (s.shtRank i r)) 0

/-- What a decision picks among the requests it sees, with the pointers after it: the slot after urgent_ptr or class_ptr, and of
its requests those that put it first (R348). -/
def State.shtPick (s : State) (i now : Nat) (set : List ShtReq) : List ShtReq × Shuttle :=
  let x := s.shuttle i
  let horizon := fld x.cfg.toNat 16 16
  let urgent := set.filter (fun r => match s.shtLst i r with | some l => decide (l ≤ now + horizon) | none => false)
  let first (rs : List ShtReq) (p : Nat) : List ShtReq × Option Nat :=
    let c := s.shtTop i rs
    let rs := rs.filter (fun r => s.shtRank i r = c)
    let q := nextSlot p (rs.map (·.slot))
    (rs.filter (fun r => some r.slot = q), q)
  match urgent with
  | [] =>
    let c := s.shtTop i set
    match first set (x.classPtr.getD c 15) with
    | (rs, some r) => (rs, { x with classPtr := x.classPtr.put 15 c r })
    | (_, none) => ([], x)
  | u :: us =>
    let lst (r : ShtReq) : Nat := (s.shtLst i r).getD 0
    let m := us.foldl (fun m r => min m (lst r)) (lst u)
    match first (urgent.filter (fun r => lst r = m)) x.urgentPtr with
    | (rs, some r) => (rs, { x with urgentPtr := r })
    | (_, none) => ([], x)

/-- SHT_CNT of a slot with a grant, a cut or a starvation more (Table 12.14). -/
def Shuttle.count (x : Shuttle) (r grants cuts starves : Nat) : Shuttle :=
  let v := (x.cnt.getD r 0).toNat
  { x with cnt := x.cnt.put 0 r (BitVec.ofNat 64 (
      min (fld v 32 32 + grants) 0xFFFFFFFF * 2 ^ 32 + min (fld v 16 16 + cuts) 0xFFFF * 2 ^ 16 +
        min (fld v 0 16 + starves) 0xFFFF)) }

/-- A request may be granted a lane: a suspended job context its own lane only (R346). -/
def ShtReq.takes (r : ShtReq) (lane : Nat) : Bool := match r.lane with | some l => l = lane | none => true

/-- The decision of one lane in cycle `now`, among the requests raised before it; a grant begins in the next cycle. -/
def State.shtDecide (s : State) (i lane now : Nat) : State :=
  let set := (s.shuttle i).waiting.filter (fun r => decide (r.since < now) && r.takes lane)
  let e := set.filter (fun r => r.slot = shtEmerg i)
  let (rs, x) := if e.isEmpty then s.shtPick i now set else (e, s.shuttle i)
  match s.bestCtx i rs with
  | none => s
  | some r =>
    let x := x.count r.slot 1 0 0
    s.setShuttle i { x with
      waiting := x.waiting.filter (fun q => !(q.slot = r.slot && q.ctx = r.ctx))
      grants := x.grants.insert lane
        { slot := r.slot, ctx := r.ctx, lst := r.lst, raised := r.raised, since := now + 1, cls := r.cls
          emerg := r.slot = shtEmerg i } }

/-- Free lanes of an instance, ascending. -/
def State.shtFree (s : State) (i : Nat) : List Nat :=
  (List.range (shtLanes i)).filter (fun l => ((s.shuttle i).grants.get? l).isNone)

/-- The next cycle in which a free lane's decision sees a request it can grant. -/
def State.shtNext (s : State) (i : Nat) : Option Nat :=
  let x := s.shuttle i
  (((s.shtFree i).map (fun l => (x.waiting.filter (·.takes l)).map (fun r => max (r.since + 1) (x.freed.getD l 0)))).flatten).foldl
    (fun m c => some (match m with | some b => min b c | none => c)) none

/-- The decisions of the cycles before `now`, one cycle at a time, in each the free lanes in ascending order (R346). `fuel` bounds
them. -/
def State.shtUpTo (s : State) (i now : Nat) : Nat → State
  | 0 => s
  | fuel + 1 =>
    match s.shtNext i with
    | none => s
    | some c =>
      if c < now then
        (s.each ((s.shtFree i).filter (fun l => decide ((s.shuttle i).freed.getD l 0 ≤ c)))
          (fun s l => s.shtDecide i l c)).shtUpTo i now fuel
      else s

/-- Every decision due before a cycle has been taken (log 24). -/
def State.shtAdvance (s : State) (i now : Nat) : State := s.shtUpTo i now ((s.shuttle i).waiting.length + 1)

/-- A microsecond without commands is longer than any cycle: every pending decision has been taken. -/
def State.shtSettle (s : State) (i : Nat) : State :=
  let x := s.shuttle i
  if x.waiting = [] then s
  else s.shtAdvance i (x.freed.foldl (fun m e => max m e.2) (x.waiting.foldl (fun m r => max m r.since) 0) + 2)

/-- An event bit of an instance, with its record; vector 0 while its enable is 1 (R350, R351). -/
def State.shtEvent (s : State) (i r event bit : Nat) : State :=
  let s := s.trace { event := event, src := none, arg := i + r * 16 }
  let x := s.shuttle i
  let s := s.setShuttle i { x with evt := setBit x.evt bit true }
  if x.irqEn.getLsbD bit then s.signal 0 0 else s

/-! ## Commands -/

/-- A grant's holder that an emergency grant has suspended on its lane is a context. -/
def ShtGrant.suspends (g : ShtGrant) (slot ctx : Nat) : Bool :=
  match g.susp with
  | some (h, _) => h.slot = slot && h.ctx = ctx
  | none => false

/-- A context of a slot raises its request, unless one of its own waits already. -/
def State.shtAsk (s : State) (inst slot ctx now : Nat) (jobLst jobCls bound : Option Nat) : State :=
  let x := s.shuttle inst
  if x.waiting.any (fun r => r.slot = slot && r.ctx = ctx) || x.grants.any (fun e => e.2.suspends slot ctx) then s
  else
    s.setShuttle inst { x with waiting := x.waiting ++ [{
      slot := slot, ctx := ctx, lst := jobLst, raised := now, since := now, cls := jobCls
      lane := bound.bind (fun l => if l < shtLanes inst then some l else none) }] }

/-- SHUTTLE_REQUEST: a request, `job` the job it is made for; the job gives it its class (R74) and its deadline bounds the LST
(R347). The contexts of a frame's slot at a pool of lanes are jobs. -/
def execShuttleRequest (inst slot ctx now : Nat) (jobLst bound : Option Nat) (s : State) (job : Option Nat := none) :
    Host.Outcome State Fault Refusal :=
  finish (if !s.live || !s.shtMay inst slot then s
    else
      let x := (if shtLanes inst ≠ 1 && slot < 4 then some ctx else job).bind s.job?
      let lst := earlierLst jobLst ((x.bind (·.deadline)).map (· * shtMhz inst))
      (s.shtAdvance inst now).shtAsk inst slot ctx now lst (x.map (·.cls)) bound)

/-- A lane's grant has ended in cycle `now`: a holder that an emergency grant suspended goes on, otherwise the lane is free for the
decision of this cycle (R345, R348). -/
def State.shtEnd (s : State) (i lane now : Nat) (g : ShtGrant) : State :=
  let x := s.shuttle i
  match g.susp with
  | some (h, held) =>
    let back : ShtGrant :=
      { slot := h.slot, ctx := h.ctx, lst := h.lst, raised := h.raised, since := now + 1 - held, cls := h.cls }
    s.setShuttle i { x with grants := x.grants.insert lane back }
  | none => s.setShuttle i { x with grants := x.grants.erase lane, freed := x.freed.put 0 lane now }

/-- SHUTTLE_RELEASE: the holder drops its request in its last beat cycle; one that drops it in the cycle of the decision leaves a
stale grant of one cycle (R349). -/
def execShuttleRelease (inst lane now : Nat) (s : State) : Host.Outcome State Fault Refusal :=
  finish (if !s.live || 8 ≤ inst then s
    else
      let s := s.shtAdvance inst now
      let s := if ((s.shuttle inst).grants.get? lane).isSome then s else s.shtAdvance inst (now + 1)
      match (s.shuttle inst).grants.get? lane with
      | none => s
      | some g =>
        if now < g.since then
          let x := s.shuttle inst
          (s.setShuttle inst { x with cntStale := satInc x.cntStale }).shtEnd inst lane g.since g
        else s.shtEnd inst lane now g)

/-- A microsecond of PTC_BOOT in cycles of the seal-lane instances' clock, 1.25 GHz (Table 12.6). -/
def State.laneNow (s : State) : Nat := s.now * 1250

/-- The lane of a pool that the context of a job holds. -/
def State.laneOf (s : State) (i j : Nat) : Option Nat :=
  ((s.shuttle i).grants.find? (fun e => decide (e.2.slot < 4) && e.2.ctx = j)).map (·.1)

/-- The decisions of a pool that the present microsecond still sees: a request raised now is decided in the next cycle. -/
def State.laneDecide (s : State) (i : Nat) : State := s.shtAdvance i (s.laneNow + 2)

/-- A context asks for a lane of a pool, and every decision that is due is taken: it holds a lane afterwards, or waits for one
(R346). -/
def State.ctxAsk (s : State) (i slot ctx : Nat) (lst : Option Nat) : State :=
  let s := s.shtAdvance i s.laneNow
  (s.shtAsk i slot ctx s.laneNow lst none none).laneDecide i

/-- A context of a pool leaves it: its request is dropped, waiting or kept while an emergency grant has suspended it, or its lane
is free and goes to the next decision. -/
def State.ctxDrop (s : State) (i : Nat) (slot : Nat → Bool) (ctx : Nat) : State :=
  let x := s.shuttle i
  let mine (r : ShtReq) : Bool := slot r.slot && r.ctx = ctx
  let s := s.setShuttle i { x with
    waiting := x.waiting.filter (fun r => !mine r)
    grants := x.grants.map (fun e => (e.1, match e.2.susp with
      | some (h, _) => if mine h then { e.2 with susp := none } else e.2
      | none => e.2)) }
  match (s.shuttle i).grants.find? (fun e => slot e.2.slot && e.2.ctx = ctx) with
  | some (lane, g) => (s.shtEnd i lane s.laneNow g).laneDecide i
  | none => s

/-- The context of a job asks for a lane of a pool through its frame's slot (R218, R346). -/
def State.laneAsk (s : State) (i f j : Nat) (deadline : Option Nat) : State :=
  if (s.laneOf i j).isSome then s else s.ctxAsk i f j (deadline.map (· * 1250))

/-- The requester slot of a register slot of the digest engine: 4 for the manager and the G cores, 5 for core T (R346). -/
def regSlot (n : Nat) : Nat := if n < 60 then 4 else 5

/-- The digest lane that a register slot holds. -/
def State.regLane (s : State) (n : Nat) : Option Nat :=
  ((s.shuttle 3).grants.find? (fun e => e.2.slot = regSlot n && e.2.ctx = n)).map (·.1)

/-- A register slot requests a digest lane (R409). -/
def State.regAsk (s : State) (n : Nat) : State := if (s.regLane n).isSome then s else s.ctxAsk 3 (regSlot n) n none

/-- A register slot drops its request: its lane goes to the next decision (R409). -/
def State.regDrop (s : State) (n : Nat) : State := s.ctxDrop 3 (fun r => r = regSlot n) n

/-- The context of a job leaves a pool: its lane is free, or its request is dropped. -/
def State.laneFree (s : State) (i j : Nat) : State := s.ctxDrop i (fun r => decide (r < 4)) j

/-- HOLD_CUT: a holder has held for HOLD cycles, and its grant ends at the beat boundary; its request stays, unseen by the decision
of this cycle (R350). A job context of a lane pool stays bound to its lane (R346). -/
def execHoldCut (inst lane now : Nat) (s : State) : Host.Outcome State Fault Refusal :=
  finish (if !s.live || 8 ≤ inst then s
    else
      let s := s.shtAdvance inst now
      match (s.shuttle inst).grants.get? lane with
      | none => s
      | some g =>
        let hold := s.shtHold inst g.slot
        if hold = 0 || now + 1 < g.since + hold then s
        else
          let s := s.setShuttle inst ((s.shuttle inst).count g.slot 0 1 0)
          let s := s.shtEvent inst g.slot 0x10 g.slot
          let x := s.shuttle inst
          let s := s.setShuttle inst { x with waiting := x.waiting ++ [{
            slot := g.slot, ctx := g.ctx, lst := g.lst, raised := g.raised, since := now, cls := g.cls
            lane := if shtLanes inst ≠ 1 && g.slot < 4 then some lane else none }] }
          s.shtEnd inst lane now g)

/-- STARVATION: a context has waited SHT_STARVE cycles; the flag is raised once a wait (R351). -/
def execStarvation (inst slot ctx now : Nat) (s : State) : Host.Outcome State Fault Refusal :=
  finish (if !s.live || 8 ≤ inst then s
    else
      let s := s.shtAdvance inst now
      let x := s.shuttle inst
      let limit := max 1 x.starve.toNat
      let hit (r : ShtReq) : Bool := r.slot = slot && r.ctx = ctx && !r.starved && decide (r.since + limit ≤ now)
      if !x.waiting.any hit then s
      else
        let x := x.count slot 0 0 1
        (s.setShuttle inst { x with waiting := x.waiting.map (fun r => if hit r then { r with starved := true } else r) }).shtEvent
          inst slot 0x11 (16 + slot))

/-- EMERGENCY_PREEMPT: where no lane is free, the emergency requester takes the grant of the lane that reaches a beat boundary
first, and its holder is suspended; `lane` names that lane, the lowest-numbered one held where it is none (R345, R346). -/
def execEmergencyPreempt (inst now : Nat) (s : State) (lane : Option Nat := none) : Host.Outcome State Fault Refusal :=
  finish (if !s.live || 8 ≤ inst then s
    else
      let s := s.shtAdvance inst now
      let x := s.shuttle inst
      let req := if (s.shtFree inst).isEmpty then x.waiting.find? (fun r => r.slot = shtEmerg inst) else none
      match req, x.grants.find? (fun e => !e.2.emerg && (match lane with | some l => l = e.1 | none => true)) with
      | some r, some (lane, g) =>
        let s := s.trace { event := 0x12, src := none, arg := inst + g.slot * 16 }
        let x := ((s.shuttle inst).count r.slot 1 0 0)
        s.setShuttle inst { x with
          cntPreempt := satInc x.cntPreempt
          waiting := x.waiting.filter (fun q => !(q.slot = r.slot && q.ctx = r.ctx))
          grants := x.grants.insert lane
            { slot := r.slot, ctx := r.ctx, lst := r.lst, raised := r.raised, since := now + 1, emerg := true
              susp := some ({ slot := g.slot, ctx := g.ctx, lst := g.lst, raised := g.raised, since := now, cls := g.cls },
                now + 1 - g.since) } }
      | _, _ => s)

/-- SHT_REQ write: HOLD, LAT and CLASS; CLASS of the emergency requester and absent slots are not written (R344, R352). A decision
already made has used the old values. -/
def State.shtReqWrite (s : State) (inst slot : Nat) (value : W64) : State :=
  if !s.barsOpen || 8 ≤ inst || 16 ≤ slot || !bitOf (s.shtReq inst slot) 2 then s
  else
    let cls := if slot = shtEmerg inst then 0 else fld value.toNat 0 2
    let v := value.toNat / 2 ^ 16 * 2 ^ 16 + fld (s.shtReq inst slot) 2 2 * 4 + cls
    let s := s.shtSettle inst
    let x := s.shuttle inst
    s.setShuttle inst { x with req := x.req.insert slot (BitVec.ofNat 64 v) }

/-- SHT_REQ_WRITE: of the writers of one cycle, the first in precedence (R10, R352). -/
def execShtReqWrite (inst slot : Nat) (value : W64) (s : State) (cycle : Cycle := Cycle.quiet) : Host.Outcome State Fault Refusal :=
  finish (s.shtReqWrite inst slot (cycleWins cycle value))

/-- HDL_WT write: each frame takes the weights at the start of its next round (R332). -/
def State.wtWrite (s : State) (value : W32) : State :=
  if s.barsOpen then { s with hdl := { s.hdl with wt := value } } else s

/-- The row HdlWtWrite. -/
def execHdlWtWrite (value : W32) (s : State) : Host.Outcome State Fault Refusal := finish (s.wtWrite value)

/-- Firmware asks for a timer: list 6 takes it, or refuses a 257th (R336). -/
def State.fwTimer (s : State) (timer at_ : Nat) : State :=
  if (s.dl 6).length < dlReserve 6 then s.dlInsert 6 at_ (.firmwareTimerExpiry timer)
  else { s with hdl := { s.hdl with fwRefused := s.hdl.fwRefused ++ [timer] } }

/-- FIRMWARE_TIMER_EXPIRY: an entry of list 6 makes an EV_TIMER token for the firmware that set it (R335, R336), which asks for the
timers of `arms`, each with its time from now, while it takes the token (log 148). -/
def execFirmwareTimerExpiry (timer : Nat) (s : State) (arms : List (Nat × Nat) := []) : Host.Outcome State Fault Refusal :=
  finish (if !s.live then s
    else
      let s := s.dlRemove 6 (.firmwareTimerExpiry timer)
      let s : State := { s with hdl := { s.hdl with fwTimers := s.hdl.fwTimers ++ [timer] } }
      arms.foldl (fun s a => s.fwTimer a.1 (s.now + a.2)) s)

end Sys2Proof.Machine
end

