-- ==== Sys2Proof/Machine/Abort.lean ====
section
/-! DEFINITION. How work is undone, refused, dropped and wiped: the release of units (R227, R234), the return of uses and the
burning of indices (R126, R147, R250), refusal (R22, R242), dropping (Table 3.10, R100, R310), late completions (R311),
structural faults and halts (R86 to R91), and the wipes of memories (R39, R43, R438). -/

namespace Sys2Proof.Machine

/-- Home frame of a job's ring. -/
def State.homeOf (s : State) (x : Job) : Nat :=
  match s.ring? x.fn x.ring with
  | some g => g.home
  | none => 0

/-- The frame whose pipeline handles a job: the computing frame, or the home frame (R16). -/
def State.frameOf (s : State) (x : Job) : Nat :=
  match x.place with
  | some (f, _) => f
  | none => s.homeOf x

/-- ENGINE of a job that completed without computing: creel 15, spindle 15; 0x3FC0 for administrative commands and APPLET
calls (R16, R95, R380). -/
def State.engineNone (s : State) (x : Job) : BitVec 16 :=
  if x.opClass = 15 || x.opClass = 10 then 0x3FC0 else engineCode (s.frameOf x) 15 15

/-! ## Units and resources -/

/-- Release one unit of a job, its memory wiped; an aborted spindle loses its warm key as well (R204, R227). -/
def State.freeUnit (s : State) (f c u : Nat) (aborted : Bool) : State :=
  let x := s.unit f c u
  s.setUnit f c u { x with
    job := none, busy := false, idleAt := s.now, micro := {}, opMem := [], warm := if aborted then none else x.warm }

/-- Return the bank 7 a carder job has borrowed (R240). -/
def State.freeBank (s : State) (j : Nat) : State :=
  match s.job? j with
  | none => s
  | some x =>
    match x.place, x.bank with
    | some (f, c), some u =>
      let v := s.unit f c u
      (s.setUnit f c u { v with lent := none }).setJob j { x with bank := none }
    | _, _ => s

/-- Release every unit, bank, digest slot and lane a job holds, wiping them; with `aborted` the warm keys go too. -/
def State.freeUnits (s : State) (j : Nat) (aborted : Bool) : State :=
  let s := ((s.freeBank j).laneFree 3 j).laneFree 4 j
  match s.job? j with
  | none => s
  | some x =>
    let s := match x.place with
      | none => s
      | some (f, c) =>
        let s := s.each x.spns (fun s u => s.freeUnit f c u aborted)
        if x.carder then s.freeUnit f c 12 true else s
    s.modJob j (fun x => { x with spns := [], carder := false, dslot := none, hashed := 0, fan := [] })

/-- A job in one of the creel deques is taken out of it. -/
def State.undeal (s : State) (j : Nat) : State :=
  { s with creels := s.creels.each (fun _ c => { c with deque := c.deque.filter (· ≠ j) }) }

/-- Return the uses reserved for a job (R126, R223). -/
def State.unreserve (s : State) (j : Nat) : State :=
  match s.job? j with
  | some x =>
    match x.reserved, x.key with
    | true, some (slot, k) =>
      (s.modKey slot k.uid (fun k => { k with reserved := k.reserved - x.useCount })).setJob j { x with reserved := false }
    | _, _ => s
  | none => s

/-- Return the uses counted at compute start (R250, R340, R39). -/
def State.unuse (s : State) (j : Nat) : State :=
  match s.job? j with
  | some x =>
    match x.used, x.key with
    | true, some (slot, k) =>
      (s.modKey slot k.uid (fun k => { k with uses := k.uses - x.useCount })).setJob j { x with used := false }
    | _, _ => s
  | none => s

/-- Burn the stateful index assigned to a job (R147). A tree that the job was still generating is not there (R186). -/
def State.burn (s : State) (j : Nat) : State :=
  match s.job? j with
  | some x =>
    match x.index, x.key with
    | some _, some (slot, k) =>
      (s.modKey slot k.uid (fun k => { k with
        burned := k.burned + 1, tree := if x.newTree && x.stage = .s5 then none else k.tree })).setJob j
        { x with index := none, newTree := false }
    | _, _ => s
  | none => s

/-- A replacement is over: SHADOW_PENDING falls, and the inactive half's run is free. -/
def KeyObj.replDone (k : KeyObj) : KeyObj :=
  if k.active then { k with repl := none, halfA := none } else { k with repl := none, halfB := none }

/-- The flip (Table 5.10 t5): the shadow half becomes the active one. -/
def KeyObj.flipTo (k : KeyObj) (r : Replacing) : KeyObj :=
  { k with
    mat := r.mat, pub := r.pub, check := r.check, active := !k.active, uses := 0, cached := false, unusable := false
    inBuffer := false, spoolRec := if r.job = 0 then k.spoolRec else k.spoolRec.map (fun y => (y.1, y.2 + 1)) }

/-- A job holds the key object of this uid (R130, R149). -/
def Job.holds (x : Job) (uid : Nat) : Bool :=
  (match x.key with | some (_, k) => k.uid == uid | none => false) ||
    (match x.key2 with | some (_, k) => k.uid == uid | none => false)

/-- Some job other than `except` holds the old half of a key after its flip (R142, Table 5.10 t6). -/
def State.oldHalfHeld (s : State) (uid : Nat) (active : Bool) (except : Nat) : Bool :=
  s.jobs.any (fun e => e.1 != except &&
    (match e.2.key with | some (_, k) => k.uid == uid && k.active != active | none => false))

/-- Material of destroyed keys is wiped when the last job that holds it has gone (R149), and a flipped replacement whose old
half no job holds completes (Table 5.10 t6). -/
def State.keySettle (s : State) : State :=
  let s : State := { s with kst := { s.kst with
    dying := s.kst.dying.filter (fun e => s.jobs.any (fun j => j.2.holds e.2.uid)) } }
  s.kst.keys.foldl (fun (s : State) (e : Nat × KeyObj) =>
    match e.2.repl with
    | some r =>
      if r.step = 6 && !s.oldHalfHeld e.2.uid e.2.active r.job then
        (s.setKey e.1 e.2.replDone).modJob r.job (fun x => { x with stage := .s6 })
      else s
    | none => s) s

/-- The administrative commands in which trusted firmware has a part: those service firmware passes unchanged (R115), and image
authentication and the spool sessions (Table 13.2). -/
def trustedOps : List Nat :=
  [0xF005, 0xF601, 0xF602, 0xF603, 0xF604, 0xF301, 0xF401, 0xF402, 0xF403, 0xF404, 0xF405]

/-- A job goes to trusted firmware through the T-gate: a key-store command (R23), the minting of a call's KREF (R377), or one of
`trustedOps` (R115, R354). -/
def Job.trusted (x : Job) : Bool :=
  x.opClass = 5 || (x.opClass = 10 && x.handle ≠ 0) || trustedOps.contains x.opcode

/-- The T-gate message of a command: a header (transaction, operation, one word, function) and PARAM (R375, log 122). -/
def gateMessage (j : Nat) (x : Job) : List CWord :=
  [{ tag := .int, val := BitVec.ofNat 64 ((j % 65536) * 2 ^ 48 + (x.opcode % 256) * 2 ^ 40 + 2 ^ 36 + (x.fn % 1024) * 2 ^ 26) },
   { tag := .int, val := BitVec.ofNat 64 x.param }]

/-- The T-gate toward trusted firmware is full (R375). -/
def State.gateFull (s : State) : Bool := decide (64 ≤ s.crx.g2t.length)

/-- A command of trusted firmware is passed to it through the T-gate (R23, R115). -/
def State.passGate (s : State) (j : Nat) (x : Job) : State :=
  if x.trusted then { s with crx := { s.crx with g2t := s.crx.g2t ++ [gateMessage j x] } } else s

/-- Trusted firmware takes the message of a command that it starts; the message of a command dropped before goes too
(R115, log 122). -/
def State.takeGate (s : State) (j : Nat) : State :=
  match s.job? j with
  | none => s
  | some x =>
    if x.trusted then
      let rest := s.crx.g2t.erase (gateMessage j x)
      { s with crx := { s.crx with g2t := rest, irqT := s.crx.irqT && rest ≠ [] } }
    else s

/-- A job leaves S3: its deadline entry is removed (R337). -/
def State.leaveS3 (s : State) (j : Nat) : State := s.dlRemove 0 (.deadlineExpiry j)

/-- A job ends before it has computed: no output, no use counted, its reservation and randomness returned, its claims
released, and S7 writes its completion (R22, R242). -/
def State.refuse (s : State) (j major detail resLen : Nat) : State :=
  match s.job? j with
  | none => s
  | some x =>
    let e := s.engineNone x
    let s := (((((s.takeGate j).leaveS3 j).undeal j).unreserve j).burn j).freeUnits j false
    s.modJob j (fun x => { x with
      stage := .s6, major := major, detail := detail, resLen := resLen, cycles := 0, engine := e, result := [], rnd := [],
      pinned := false, lines := 0, input := none, aux := none, tagged := true, checked := true, early := true, fetching := false })

/-- A job that has begun is ended with a status and without output (R198, R238, R278): its result is wiped. -/
def State.failWith (s : State) (j major detail : Nat) : State :=
  s.modJob j (fun x => { x with major := major, detail := detail, result := [], resLen := 0 })

/-- The calls' sub-jobs (R380). -/
def State.subJobsOf (s : State) (ctx : Nat) : List Nat :=
  s.jobsWhere (fun x => match x.sub with | some (c, _) => c == ctx | none => false)

/-! ## The ply link -/

/-- The ply link to the partner is up. -/
def State.plyUp (s : State) : Bool := s.ply.p0.session || s.ply.p1.session

/-- Send a ply message. -/
def State.plySend (s : State) (m : PlyOut) : State := { s with ply := { s.ply with out := s.ply.out ++ [m] } }

/-- The shadow that the partner keeps of a replacement of a MIRROR key is wiped (Table 5.10 t3). -/
def State.wipeTwin (s : State) (slot : Nat) (k : KeyObj) (r : Replacing) : State :=
  if bitOf k.policy.flags.toNat 3 && r.job ≠ 0 && decide (3 ≤ r.step) && s.plyUp then
    s.plySend (.wipeShadow (slot / 262144) (slot % 262144))
  else s

/-- The replacement that a job has under way ends with the job, its shadow wiped, unless the flip is due or done (Table 5.10). -/
def State.endShadow (s : State) (j : Nat) : State :=
  match s.kst.keys.find? (fun e => match e.2.repl with | some r => r.job = j && j ≠ 0 && decide (r.step < 5) | none => false) with
  | some (slot, k) =>
    match k.repl with
    | some r => (s.setKey slot k.replDone).wipeTwin slot k r
    | none => s
  | none => s

/-- A job leaves the device unwritten: units aborted and wiped, its reservation returned, an assigned index burned, a use
already counted standing (Table 3.10 t2, R100, R310, R147). -/
def State.dropOne (s : State) (j : Nat) : State :=
  let s := ((((((s.endShadow j).takeGate j).leaveS3 j).undeal j).unreserve j).burn j).freeUnits j true
  ((({ s with crx := { s.crx with callQ := s.crx.callQ.filter (· ≠ j) } } : State).removeJob j)).keySettle

/-- Cancel the APPLET call of a context: its sub-jobs are dropped; service firmware stops the call within 1 s (R310, R380). -/
def State.cancelCtx (s : State) (c : Nat) : State :=
  let s := s.each (s.subJobsOf c) State.dropOne
  s.setCtx c { s.ctx c with cancelled := true, tickets := [] }

/-- Drop a job; an APPLET call that runs is cancelled and stays until its context is stopped. -/
def State.drop (s : State) (j : Nat) : State :=
  match s.job? j with
  | none => s
  | some x =>
    match x.stage with
    | .applet c => s.cancelCtx c
    | _ => s.dropOne j

/-- The entries of a ring that are not yet jobs are forgotten (Table 3.10 t2). -/
def State.dropEntries (s : State) (f r : Nat) : State :=
  let other (t : Token) : Bool := !(t.fn == f && t.ring == r)
  let s : State := { s with
    hdl := { s.hdl with ready := s.hdl.ready.filter other }
    frames := s.frames.each (fun _ x => { x with parse := x.parse.filter other }) }
  match s.ring? f r with
  | some g => s.setRing f r { g with held := [], reading := [] }
  | none => s

/-! ## Late completions (R311) -/

/-- Jobs of a strand that carry an earlier generation. -/
def State.oldJobs (s : State) (f : Nat) : List Nat :=
  s.jobsWhere (fun x => x.fn == f && x.admitted.isSome && x.gen != (s.strand f).gen)

/-- The LATE notice is written when the last job of earlier generations has left (Table 11.7). -/
def State.lateNotice (s : State) (f : Nat) : State :=
  let x := s.strand f
  if x.lateDue && (s.oldJobs f).isEmpty then
    (s.setStrand f { x with lateDue := false, lateSince := 0, lastDiscard := 0 }).notice f 7 x.lateSince x.lastDiscard.toNat
  else s

/-- A late completion is discarded: result wiped, nothing written, its index burned, STR_LATE and STR_LATE_TOT raised. -/
def State.discardLate (s : State) (j : Nat) : State :=
  match s.job? j with
  | none => s
  | some x =>
    let p := s.page x.fn
    let s := s.setPage x.fn { p with late := satInc p.late }
    let t := s.strand x.fn
    let s := s.setStrand x.fn
      { t with lateTot := satInc t.lateTot, lateSince := t.lateSince + 1, lastDiscard := s.glb.ptcBoot }
    let s := s.trace (x.ev 0x15 (some 1) (locCode s.dev (s.frameOf x) 15 15) x.gen.toNat)
    (s.dropOne j).lateNotice x.fn

/-! ## Wipes -/

/-- Every warm key is wiped (R239). -/
def State.wipeWarm (s : State) (p : Nat → Bool) : State :=
  { s with units := s.units.each (fun _ u =>
      match u.warm with
      | some (slot, _) => if p slot then { u with warm := none } else u
      | none => u) }

/-- The key cache is wiped. -/
def State.wipeCache (s : State) : State :=
  { s with kst := { s.kst with keys := s.kst.keys.each (fun _ k => { k with cached := false }) } }

/-- Spindle and carder memories are wiped: no unit holds a job, a warm key or a routine's memory (R43). -/
def State.wipeEngines (s : State) : State :=
  { s with units := s.units.each (fun _ u =>
      { u with job := none, busy := false, warm := none, lent := none, opMem := [], micro := {} }) }

/-- Count an ignored write (R420). -/
def State.dgeMisuse (s : State) : State := { s with dge := { s.dge with cntMisuse := satInc s.dge.cntMisuse } }

/-- Every digest register slot is wiped and enters ERROR with ERR ABORTED; the reservation of a message is returned (R421,
R412). A store that stalled on a slot goes on, and is ignored (R413, R420). -/
def State.wipeDigests (s : State) : State :=
  s.each ((List.range 16).map (· + 48)) (fun s n =>
    let s := s.each (List.range (s.dslot n).held.length) (fun s _ => s.dgeMisuse)
    let s := s.regDrop n
    let d := s.dslot n
    let s := match d.resv with
      | some (slot, uid) => s.modKey slot uid (fun k => { k with reserved := k.reserved - 1 })
      | none => s
    s.setDslot n { d with
      state := 4, err := 6, fifo := 0, held := [], msg := [], absorbed := 0, out := [], cmp := 1, sec := false, resv := none,
      keyObj := none })

/-- The Crixa G local memories, and the contexts in them, are wiped (R39, R43). -/
def State.wipeCrixaG (s : State) : State :=
  { s with crx := { s.crx with
      cores := s.crx.cores.each (fun n c => if n < 4 then { c with mem := [], r := {}, fw := {}, ctx := none } else c)
      shared := []
      ctxs := [] } }

/-- The job contexts of a lane pool leave it, one that an emergency grant suspended included. -/
def Shuttle.jobsGone (x : Shuttle) : Shuttle :=
  { x with
    waiting := x.waiting.filter (fun r => decide (4 ≤ r.slot))
    grants := (x.grants.filter (fun e => decide (4 ≤ e.2.slot))).map (fun e =>
      (e.1, { e.2 with susp := e.2.susp.filter (fun h => decide (4 ≤ h.1.slot)) })) }

/-- Every job leaves the device with nothing written, the indices of its signatures burned (R147), its deadline entry removed
(R337), its place in its ordering group passed (R333), and the pipeline is empty. -/
def State.dropAll (s : State) : State :=
  let s := (s.each (s.jobsWhere (fun x => x.index.isSome)) State.burn).each (s.jobsWhere Job.trusted) State.takeGate
  let s : State := { s with
    jobs := []
    sht := s.sht.each (fun i x => if i = 3 || i = 4 then x.jobsGone else x)
    hdl := { s.hdl with ready := [] }
    frames := s.frames.each (fun _ x => { x with parse := [] })
    creels := s.creels.each (fun _ c => { c with deque := [] })
    crx := { s.crx with callQ := [] }
    rings := s.rings.each (fun _ g => { g with held := [], reading := [] }) }
  let s := (s.setDl 0 []).each (s.hdl.og.map (·.1)) State.ogSettle
  { s with kst := { s.kst with
      dying := []
      keys := s.kst.keys.each (fun _ k => { k with reserved := 0 }) } }

/-! ## Structural faults and halts (R86 to R91) -/

/-- The device halts with a cause; a later cause does not replace the first (R88). No write-back reaches host memory from
then on and the key cache, spindle and carder memories are wiped. -/
def State.haltDevice (s : State) (cause : Byte) : State :=
  let s : State := { s with glb := { s.glb with
    halted := true, haltCause := if s.glb.halted then s.glb.haltCause else cause } }
  (s.dropAll).wipeEngines.wipeCache

/-- FN_FAULT records the first fault (Table 3.13, R91). -/
def State.recordFault (s : State) (f r slot seq code : Nat) : State :=
  let p := s.page f
  let w := BitVec.ofNat 64 (seq % 2 ^ 16 * 2 ^ 48 + r * 2 ^ 32 + slot % 2 ^ 16 * 2 ^ 16 + code)
  s.setPage f { p with halted := true, fault := if fld p.fault.toNat 0 8 = 0 then w else p.fault }

/-- Where a halt drops a job: S1 to S4 (Table 3.10 t2). An APPLET call is cancelled (R380). A job raised to firmware has left S3
and is in none of S1 to S4: the model lets it run on and be written back, which the spec does not say (log 127). -/
def Stage.haltDrops : Stage → Bool
  | .s3 | .waiting _ | .deque _ _ | .s4 | .called | .applet _ => true
  | _ => false

/-- A structural fault halts its strand (R87), or the device when the ring is the manager's; of a device that is halted already
it changes nothing (R88). -/
def State.structFault (s : State) (f r slot seq code : Nat) : State :=
  if f = 0 then (if s.glb.halted then s else ((s.recordFault f r slot seq code).haltDevice 1).signal 0 0)
  else
    let s := s.recordFault f r slot seq code
    let s := s.each (List.range 64) (fun s r => s.dropEntries f r)
    let s := s.each (s.jobsWhere (fun x => x.fn == f && x.stage.haltDrops)) State.drop
    (s.signal f 0).notice f 1 (s.page f).fault.toNat 0

/-! ## Ring teardown (R100) -/

/-- A job has begun its S7 write-back. -/
def Stage.writing : Stage → Bool
  | .s7 _ => true
  | _ => false

/-- A job carries an earlier generation than its strand (R310). -/
def State.isOld (s : State) (x : Job) : Bool := x.admitted.isSome && x.gen != (s.strand x.fn).gen

/-- Teardown of a ring begins: fetch stops, jobs that have not begun their write-back are dropped (R100). Jobs of an earlier
generation are no longer the ring's: they leave as R310 and R311 give. -/
def State.destroyRing (s : State) (f r : Nat) : State :=
  match s.ring? f r with
  | none => s
  | some _ =>
    let s := s.dropEntries f r
    let s := s.each (s.jobsWhere (fun x => x.fn == f && x.ring == r && x.sub.isNone && !x.stage.writing && !s.isOld x)) State.drop
    let s := s.dlRemove 3 (.coalesceTimeout f r)
    match s.ring? f r with
    | none => s
    | some g => s.setRing f r { g with destroying := true, timer := false, pendIrq := 0 }

/-- A ring and everything of it is gone. -/
def State.removeRing (s : State) (f r : Nat) : State :=
  let s := s.destroyRing f r
  let s := s.dlRemove 3 (.coalesceTimeout f r)
  { s with rings := s.rings.erase (ringNo f r) }

/-! ## Generations (R309 to R312) -/

/-- The next generation counting upward that no in-flight job of the strand carries (R312). -/
def State.nextGen (s : State) (f : Nat) : BitVec 16 :=
  let used (g : BitVec 16) : Bool := s.jobs.any (fun e => e.2.fn == f && e.2.admitted.isSome && e.2.gen == g)
  let g0 := (s.strand f).gen
  match (List.range (s.jobs.length + 1)).find? (fun i => !used (g0 + BitVec.ofNat 16 (i + 1))) with
  | some i => g0 + BitVec.ofNat 16 (i + 1)
  | none => g0 + 1

/-- What the advance does to a job of an earlier generation (R310); answers whether it was dropped or aborted. -/
def State.overtake (s : State) (j : Nat) : State :=
  match s.job? j with
  | none => s
  | some x =>
    match x.stage with
    | .s3 | .waiting _ | .deque _ _ | .s4 | .called | .s7 _ => s.dropOne j
    | .s5 | .ended =>
      if x.carder then ((s.freeUnits j true).failWith j 0 0).modJob j (fun x => { x with stage := .ended })
      else s.dropOne j
    | .applet c => s.cancelCtx c
    | .firmware | .s6 | .s7wait | .held => s

/-- The advance drops or aborts a job at this stage (ARG1 of the RESET notice). -/
def Stage.overtaken : Stage → Bool
  | .s3 | .waiting _ | .deque _ _ | .s4 | .called | .s7 _ | .s5 | .ended => true
  | _ => false

/-- The generation of a strand becomes `g`: earlier jobs are handled by R310 and late ones counted by R311. -/
def State.advanceGen (s : State) (f : Nat) (g : BitVec 16) : State :=
  let olds := s.jobsWhere (fun x => x.fn == f && x.sub.isNone)
  let s := s.setStrand f { s.strand f with gen := g, lateSince := 0, lastDiscard := 0 }
  s.each olds State.overtake

/-- The registers FLR resets (R314). -/
def State.resetPage (s : State) (f : Nat) : State :=
  let s := s.setPage f {}
  { s with host := { s.host with
      msix := s.host.msix.keep (fun k _ => k / 256 != f)
      pba := s.host.pba.keep (fun k _ => k / 256 != f) } }

end Sys2Proof.Machine
end

