-- ==== Sys2Proof/Machine/Algo.lean ====
section
/-! DEFINITION. The published algorithms the device runs, each as a function of all its inputs (R157, log 3): a string of a
given length, a number, or acceptance. An opcode of a job names its own algorithm; the labels from 0x10000 on name the
primitives that commands and derivations use. -/

namespace Sys2Proof.Machine

/-- `n` output bytes of an algorithm on its inputs. -/
def algoBytes (op : Nat) (ins : List Bytes) (n : Nat) : Bytes := (List.range n).map (Config.algo op ins)

theorem algoBytes_length (op : Nat) (ins : List Bytes) (n : Nat) : (algoBytes op ins n).length = n := by
  simp [algoBytes]

/-- SHAKE256 with 32 bytes of output (R426). -/
def shake256 (msg : Bytes) : Bytes := algoBytes 0x10000 [msg] 32
/-- SHA3-256. -/
def sha3 (msg : Bytes) : Bytes := algoBytes 0x10001 [msg] 32
/-- `n` bytes of a function of Table 6.10. The labels of SHA3-256 and SHAKE256 are those that commands use. -/
def hashTo (ph : Nat) (msg : Bytes) (n : Nat) : Bytes :=
  algoBytes (if ph = 4 then 0x10001 else if ph = 8 then 0x10000 else 0x3110 + ph) [msg] n

/-- KMAC256 of key, data and customization label (Table 5.5, R286): `n` bytes. -/
def kmac (label : Nat) (key data : Bytes) (n : Nat) : Bytes := algoBytes (0x10100 + label) [key, data] n
/-- A formatted message: a first byte, CTX_LEN, the context, the rest. -/
def formatted (first : Byte) (ctx body : Bytes) : Bytes := first :: BitVec.ofNat 8 ctx.length :: (ctx ++ body)

/-- μ of a message under a public key: of tr = H(pk) and M′ (R174). -/
def muOf (pub msg : Bytes) : Bytes := algoBytes 0x10000 [algoBytes 0x10000 [pub] 64 ++ msg] 64

/-- ML-DSA signature bytes. -/
def mldsaSig (p : Nat) : Nat := [2420, 3309, 4627].getD (p - 1) 0

/-- ML-DSA.Sign_internal of a set. -/
def mldsaSign (set : Nat) (ins : List Bytes) : Bytes := algoBytes (0x2110 + set) ins (mldsaSig set)

/-- The hint of an ML-DSA signature is well encoded. -/
def mldsaHintOk (set : Nat) (sig : Bytes) : Bool := Config.accepts 0x10E00 [leBytes 1 set, sig]

/-- ML-DSA.Verify_internal of a set, from μ. -/
def mldsaVerify (set : Nat) (pub mu sig : Bytes) : Bool := Config.accepts (0x2120 + set) [pub, mu, sig]

/-- Authenticated encryption: ciphertext of the plaintext's length followed by the tag. -/
def aeadSeal (label : Nat) (key iv ad msg : Bytes) (tag : Nat) : Bytes :=
  algoBytes (0x10400 + label) [key, iv, ad, msg] (msg.length + tag)
/-- Authenticated decryption: the plaintext, or none when the tag fails. -/
def aeadOpen (label : Nat) (key iv ad ct : Bytes) (tag : Nat) : Option Bytes :=
  if ct.length < tag || !Config.accepts (0x10400 + label) [key, iv, ad, ct] then none
  else some (algoBytes (0x10500 + label) [key, iv, ad, ct] (ct.length - tag))

end Sys2Proof.Machine
end

