-- ==== Sys2Proof/Machine/Drbg.lean ====
section
/-! DEFINITION. The DRBG instances (R392 to R395): CTR_DRBG with AES-256 and the derivation function, whose instantiate, reseed and
generate functions are those of SP 800-90A (log 3), and what their consumers draw. -/

namespace Sys2Proof.Machine

/-- The working state, Key and V, that instantiation forms of entropy input, nonce and personalization string (R393). -/
def drbgInstantiate (entropy nonce pers : Bytes) : Bytes := algoBytes 0x10F60 [entropy, nonce, pers] 48

/-- The working state after a reseed with additional input (R394). -/
def drbgReseed (state entropy add : Bytes) : Bytes := algoBytes 0x10F61 [state, entropy, add] 48

/-- `n` bytes of a generate request with additional input, and the working state after it (R392). -/
def drbgGenerate (state add : Bytes) (n : Nat) : Bytes × Bytes :=
  (algoBytes 0x10F62 [state, add, leBytes 4 n] n, algoBytes 0x10F63 [state, add, leBytes 4 n] 48)

/-- The island delivers randomness. -/
def State.rngRuns (s : State) : Bool := s.rng.state = 1 || s.rng.state = 2

/-- An instance may serve a request: below 2^20 requests and 1 s since its last seeding (R394). -/
def State.serves (s : State) (i : Nat) : Bool :=
  let x := s.inst i
  s.rngRuns && x.seeded && decide (x.reqs < 2 ^ 20) && decide (s.now < x.seededAt + 1000000)

/-- A generate request of an instance: its bytes; the working state moves on, and the request counts (R392, R394). -/
def State.generate (s : State) (i n : Nat) (add : Bytes) : Bytes × State :=
  let x := s.inst i
  let g := drbgGenerate x.state add n
  (g.1, s.setInst i { x with state := g.2, reqs := x.reqs + 1 })

/-- A value of trusted firmware's own: a request on instance T (Table 14.2). -/
def State.drawT (s : State) (n : Nat) : Bytes × State := s.generate 4 n []

/-- The unreserved bytes of a frame's buffer (R395). -/
def State.frameBuf (s : State) (frame : Nat) : Bytes := s.rng.bufs.getD frame []

/-- Bytes leave a frame's buffer for one consumer, and are given to no other (R395). -/
def State.takeFrame (s : State) (frame n : Nat) : Bytes × State :=
  ((s.frameBuf frame).take n, { s with rng := { s.rng with bufs := s.rng.bufs.put [] frame ((s.frameBuf frame).drop n) } })

end Sys2Proof.Machine
end

