-- ==== Sys2Proof/Machine/KeyTypes.lean ====
section
/-! DEFINITION. The key object types of Table 5.2: sizes, parameter sets (R122, R130, R182, Tables 6.15 to 6.19), what a stored
form says of its type, and the public key a stored form gives. -/

namespace Sys2Proof.Machine

/-! ## Key types (Table 5.2) -/

/-- TYPE without TYPE[7]. -/
def baseType (t : Nat) : Nat := t % 128
/-- TYPE[7]: a public-only object. -/
def pubOnly (t : Nat) : Bool := decide (128 ≤ t)
/-- A stateful private key: TYPE 0x40 to 0x42. A public-only object of the schemes has another TYPE and signs nothing. -/
def stateful (t : Nat) : Bool := decide (0x40 ≤ t ∧ t ≤ 0x42)

/-- Height of an LMS type code (RFC 8554, SP 800-208; log 20); 0 where the code is not registered. -/
def lmsHeight (c : Nat) : Nat :=
  if 5 ≤ c && c ≤ 9 then 5 * (c - 4) else if 10 ≤ c && c ≤ 14 then 5 * (c - 9)
  else if 15 ≤ c && c ≤ 19 then 5 * (c - 14) else if 20 ≤ c && c ≤ 24 then 5 * (c - 19) else 0
/-- m of an LMS type code. -/
def lmsM (c : Nat) : Nat := if (10 ≤ c && c ≤ 14) || (20 ≤ c && c ≤ 24) then 24 else 32
/-- The LMS type uses SHAKE256. -/
def lmsShake (c : Nat) : Bool := decide (15 ≤ c)
/-- n of an LM-OTS type code (log 20); 0 where the code is not registered. -/
def otsN (c : Nat) : Nat :=
  if 1 ≤ c && c ≤ 4 then 32 else if 5 ≤ c && c ≤ 8 then 24 else if 9 ≤ c && c ≤ 12 then 32
  else if 13 ≤ c && c ≤ 16 then 24 else 0
/-- The LM-OTS type uses SHAKE256. -/
def otsShake (c : Nat) : Bool := decide (9 ≤ c)
/-- W of an LM-OTS type code. -/
def otsW (c : Nat) : Nat := 2 ^ ((c - 1) % 4)
/-- Hash chains of an LM-OTS type code (RFC 8554). -/
def otsP (c : Nat) : Nat :=
  (if otsN c = 24 then [200, 101, 51, 26] else [265, 133, 67, 34]).getD ((c - 1) % 4) 0

/-- The levels of an HSS parameter list: LMS and LM-OTS type codes in pairs, top level first. -/
def hssLevels : List Nat → List (Nat × Nat)
  | a :: b :: r => (a, b) :: hssLevels r
  | _ => []

/-- An HSS parameter set that key generation and signing support (Table 6.15). -/
def hssOk (p : List Nat) : Bool :=
  let ls := hssLevels p
  decide (p.length % 2 = 0) && decide (1 ≤ ls.length ∧ ls.length ≤ 4) &&
    ls.all (fun l => lmsHeight l.1 ≠ 0 && otsN l.2 = 32 && lmsM l.1 = 32 && lmsShake l.1 == otsShake l.2 &&
      lmsShake l.1 == (match ls.head? with | some h => lmsShake h.1 | none => false)) &&
    ls.dropLast.all (fun l => decide (lmsHeight l.1 ≤ 20)) &&
    (match ls.getLast? with | some l => decide (lmsHeight l.1 ≤ 10) | none => false)

/-- A signature's parameters for an XMSS OID: n, height, layers, SHAKE256 (RFC 8391, SP 800-208; log 20). -/
def xmssSet (oid : Nat) : Option (Nat × Nat × Nat × Bool) :=
  let h := [10, 16, 20]
  if 1 ≤ oid && oid ≤ 3 then some (32, h.getD (oid - 1) 0, 1, false)
  else if 0x0D ≤ oid && oid ≤ 0x0F then some (24, h.getD (oid - 0x0D) 0, 1, false)
  else if 0x10 ≤ oid && oid ≤ 0x12 then some (32, h.getD (oid - 0x10) 0, 1, true)
  else if 0x13 ≤ oid && oid ≤ 0x15 then some (24, h.getD (oid - 0x13) 0, 1, true)
  else none

/-- Total height and layers of the eight XMSS^MT shapes in the order of their OIDs. -/
def xmssMtShape (i : Nat) : Nat × Nat :=
  [(20, 2), (20, 4), (40, 2), (40, 4), (40, 8), (60, 3), (60, 6), (60, 12)].getD i (0, 1)

/-- The parameters of an XMSS^MT OID: n, total height, layers, SHAKE256 (log 20). -/
def xmssMtSet (oid : Nat) : Option (Nat × Nat × Nat × Bool) :=
  let mk (base n : Nat) (sh : Bool) := some (n, (xmssMtShape (oid - base)).1, (xmssMtShape (oid - base)).2, sh)
  if 1 ≤ oid && oid ≤ 8 then mk 1 32 false
  else if 0x21 ≤ oid && oid ≤ 0x28 then mk 0x21 24 false
  else if 0x29 ≤ oid && oid ≤ 0x30 then mk 0x29 32 true
  else if 0x31 ≤ oid && oid ≤ 0x38 then mk 0x31 24 true
  else none

/-- The parameters of a stateful OID of type 0x41 or 0x42. -/
def treeSet (t oid : Nat) : Option (Nat × Nat × Nat × Bool) := if baseType t = 0x41 then xmssSet oid else xmssMtSet oid

/-- A set that key generation and signing support: every XMSS set; XMSS^MT with layers of height 10 or less (Table 6.15). -/
def treeOk (t oid : Nat) : Bool :=
  match treeSet t oid with
  | some (_, h, d, _) => baseType t = 0x41 || decide (h / d ≤ 10)
  | none => false

/-- The sizes of a key object in bytes. -/
structure KeySizes where
  /-- stored private form -/
  stored : Nat
  /-- cached form -/
  cached : Nat
  /-- public key -/
  pub : Nat

/-- Private-key sizes of Classic McEliece (Table 6.19). -/
def mcPriv : List Nat := [6492, 6492, 13608, 13608, 13932, 13932, 13948, 13948, 14120, 14120]
/-- Public-key sizes of Classic McEliece (Table 6.19). -/
def mcPub : List Nat :=
  [261120, 261120, 524160, 524160, 1044992, 1044992, 1047319, 1047319, 1357824, 1357824]

/-- The sizes of a private or secret object. `p` is the object's parameter list: the length of TYPE 0x06 and 0x08; the
modulus in words and the exponent's bytes of TYPE 0x60; the group of TYPE 0x6B; the level codes of TYPE 0x40; the OID of TYPE
0x41 and 0x42; otherwise empty. None: not a type and parameters of Table 5.2. -/
def keySizes (t : Nat) (p : List Nat) : Option KeySizes :=
  let p0 := p.getD 0 0
  match t with
  | 0x01 => some ⟨16, 176, 0⟩
  | 0x02 => some ⟨24, 208, 0⟩
  | 0x03 => some ⟨32, 240, 0⟩
  | 0x04 => some ⟨32, 32, 0⟩
  | 0x05 => some ⟨24, 288, 0⟩
  | 0x06 => if 16 ≤ p0 && p0 ≤ 128 then some ⟨p0, 768, 0⟩ else none
  | 0x07 => some ⟨32, 240, 0⟩
  | 0x08 => if 1 ≤ p0 && p0 ≤ 256 then some ⟨p0, p0, 0⟩ else none
  | 0x10 => some ⟨1696, 1632, 800⟩
  | 0x11 => some ⟨2464, 2400, 1184⟩
  | 0x12 => some ⟨3232, 3168, 1568⟩
  | 0x20 => some ⟨2592, 2560, 1312⟩
  | 0x21 => some ⟨4064, 4032, 1952⟩
  | 0x22 => some ⟨4928, 4896, 2592⟩
  | 0x40 =>
    let l := (hssLevels p).length
    if hssOk p then some ⟨8 + 56 * l, 8 + 56 * l + Config.count 0x10700 [p.map (BitVec.ofNat 8)], 60⟩ else none
  | 0x41 | 0x42 =>
    match treeSet t p0 with
    | some (n, _) =>
      if treeOk t p0 then some ⟨8 + 4 * n, 8 + 4 * n + Config.count 0x10700 [leBytes 4 p0], 4 + 2 * n⟩ else none
    | none => none
  | 0x48 => some ⟨2305, 2305, 2249⟩
  | 0x49 => some ⟨4586, 4586, 4522⟩
  | 0x4A => some ⟨7317, 7317, 7245⟩
  | 0x60 =>
    let e := p.getD 1 0
    if 16 ≤ p0 && p0 ≤ 256 && 1 ≤ e && e ≤ 32 then some ⟨28 * p0 + e, 28 * p0 + e, 8 + 8 * p0 + e⟩ else none
  | 0x61 => some ⟨32, 32, 65⟩
  | 0x62 => some ⟨48, 48, 97⟩
  | 0x63 => some ⟨66, 66, 133⟩
  | 0x64 => some ⟨32, 32, 65⟩
  | 0x65 => some ⟨48, 48, 97⟩
  | 0x66 => some ⟨64, 64, 129⟩
  | 0x67 => some ⟨32, 64, 32⟩
  | 0x68 => some ⟨57, 114, 57⟩
  | 0x69 => some ⟨32, 32, 32⟩
  | 0x6A => some ⟨56, 56, 56⟩
  | 0x6B =>
    if 1 ≤ p0 && p0 ≤ 5 then
      some ⟨[32, 40, 48, 56, 64].getD (p0 - 1) 0, [32, 40, 48, 56, 64].getD (p0 - 1) 0,
        [256, 384, 512, 768, 1024].getD (p0 - 1) 0⟩
    else none
  | 0x70 => some ⟨4096, 4064, 2017⟩
  | 0x71 => some ⟨4096, 4096, 1984⟩
  | 0x72 => some ⟨2496, 2432, 1216⟩
  | 0x73 => some ⟨2496, 2432, 1249⟩
  | _ =>
    if 0x30 ≤ t && t ≤ 0x3B then
      let n := 16 + 8 * ((t - 0x30) / 4)
      some ⟨4 * n, 4 * n, 2 * n⟩
    else if 0x50 ≤ t && t ≤ 0x59 then
      some ⟨mcPriv.getD (t - 0x50) 0, mcPriv.getD (t - 0x50) 0, mcPub.getD (t - 0x50) 0⟩
    else none

/-- A TYPE that Table 5.2 lists, TYPE[7] apart; a symmetric type with TYPE[7] is not valid (R122). -/
def typeListed (t : Nat) : Bool :=
  let b := baseType t
  (1 ≤ b && b ≤ 8 && !pubOnly t) || (0x10 ≤ b && b ≤ 0x12) || (0x20 ≤ b && b ≤ 0x22) || (0x30 ≤ b && b ≤ 0x3B) ||
    (0x40 ≤ b && b ≤ 0x42) || (0x48 ≤ b && b ≤ 0x4A) || (0x50 ≤ b && b ≤ 0x59) || (0x60 ≤ b && b ≤ 0x6B) ||
    (0x70 ≤ b && b ≤ 0x73)

/-- The parts of a stored RSA form of `w` words and an exponent of `e` bytes: n, e, p, q, dP, dQ, qInv, each with its most
significant byte first (Table 5.2, log 21). -/
def rsaParts (w e : Nat) (mat : Bytes) : List Nat :=
  let h := 4 * w
  let at_ (i : Nat) : Nat := ofBe (slice mat (2 * h + e + h * i) h)
  [ofBe (slice mat 0 (2 * h)), ofBe (slice mat (2 * h) e), at_ 0, at_ 1, at_ 2, at_ 3, at_ 4]

/-- A stored RSA form has n = p × q and CRT values that match (R210). -/
def rsaCrtOk (w e : Nat) (mat : Bytes) : Bool :=
  match rsaParts w e mat with
  | [n, x, p, q, dp, dq, qi] =>
    decide (1 < p) && decide (1 < q) && n = p * q && x * dp % (p - 1) = 1 % (p - 1) && x * dq % (q - 1) = 1 % (q - 1) &&
      q * qi % p = 1
  | _ => false

/-- The parameter list that a stored form's length implies (R138); none: the type has no such length. The level codes and OID
of a stateful key are read from its stored form. Where a length fits two RSA layouts, the form is of the smaller modulus if its
values say so, or the greater is above 16,384 bits (R210). -/
def paramOf (t : Nat) (mat : Bytes) : Option (List Nat) :=
  let n := mat.length
  let p : List Nat :=
    match t with
    | 0x06 | 0x08 => [n]
    | 0x60 =>
      let w := (n - 1) / 28
      let e := (n - 1) % 28 + 1
      if e ≤ 4 && (w = 257 || rsaCrtOk (w - 1) (e + 28) mat) then [w - 1, e + 28] else [w, e]
    | 0x6B => [(n - 24) / 8]
    | 0x40 => ((List.range (leAt mat 0 4)).map (fun i => [leAt mat (8 + 56 * i) 4, leAt mat (12 + 56 * i) 4])).flatten
    | 0x41 | 0x42 => [leAt mat 0 4]
    | _ => []
  match keySizes t p with
  | some z => if z.stored = n then some p else none
  | none => none

/-- The last index of a stateful key, plus 1. -/
def lastIndex (t : Nat) (p : List Nat) : Nat :=
  if baseType t = 0x40 then 2 ^ ((hssLevels p).map (fun l => lmsHeight l.1)).sum
  else match treeSet t (p.getD 0 0) with
    | some (_, h, _) => 2 ^ h
    | none => 0

/-! ## What a stored form is made of -/

/-- The post-quantum and the classical part of a composite or hybrid type: their types (Table 5.2). -/
def typeParts (t : Nat) : Option (Nat × Nat) :=
  match t with
  | 0x70 => some (0x21, 0x61)
  | 0x71 => some (0x21, 0x67)
  | 0x72 => some (0x11, 0x69)
  | 0x73 => some (0x11, 0x61)
  | _ => none

/-- Bytes of a stored form that its other bytes are computed from: the seed of ML-KEM and ML-DSA; of SLH-DSA all but PK.root
(R170, R178, R181). -/
def seedLen (t : Nat) : Nat :=
  if 0x10 ≤ t && t ≤ 0x12 then 64
  else if 0x20 ≤ t && t ≤ 0x22 then 32
  else if 0x30 ≤ t && t ≤ 0x3B then 3 * (16 + 8 * ((t - 0x30) / 4))
  else 0

/-- The type's stored form holds values that are recomputed when the key enters the device. -/
def regenerates (t : Nat) : Bool := decide (0 < seedLen t)

/-- The bytes of a stored form from which the rest is computed: of SLH-DSA, SK.seed and PK.seed without SK.prf, which lies between
them (R170, R178, R181). -/
def expandIns (t : Nat) (seed : Bytes) : Bytes :=
  if 0x30 ≤ t && t ≤ 0x3B then seed.take (seedLen t / 3) ++ seed.drop (2 * (seedLen t / 3)) else seed

/-- What key generation computes from the seed of a stored form: the expanded key, or PK.root (log 3). -/
def expandOf (t : Nat) (seed : Bytes) : Bytes :=
  algoBytes (0x10800 + t) [expandIns t seed] (match keySizes t [] with | some z => z.stored - seedLen t | none => 0)

/-- The values recomputed from the seed are those that the form holds. -/
def regenOk (t : Nat) (mat : Bytes) : Bool := mat.drop (seedLen t) == expandOf t (mat.take (seedLen t))

/-- The public key of a stored form of a type of one part. HSS, XMSS and XMSS^MT put their codes and OID first, in the byte
order of their documents (R183); an SLH-DSA key is PK.seed and PK.root, the end of its form; RSA has the layout of Table 7.2; a
Weierstrass point begins with 0x04; otherwise it is the type's own function of the form (log 3). -/
def pubPart (t : Nat) (p : List Nat) (mat : Bytes) : Bytes :=
  let n := match keySizes t p with | some z => z.pub | none => 0
  let own (k : Nat) : Bytes := algoBytes (0x10900 + t) [mat] k
  if t = 0x60 then leBytes 4 (8 * p.getD 0 0) ++ leBytes 4 (p.getD 1 0) ++ padTo (8 * p.getD 0 0 + p.getD 1 0) mat
  else if t = 0x40 then
    beBytes 4 (leAt mat 0 4) ++ beBytes 4 (leAt mat 8 4) ++ beBytes 4 (leAt mat 12 4) ++ own (n - 12)
  else if t = 0x41 || t = 0x42 then
    let h := (n - 4) / 2
    beBytes 4 (leAt mat 0 4) ++ slice mat (8 + 3 * h) h ++ slice mat (8 + 2 * h) h
  else if 0x30 ≤ t && t ≤ 0x3B then padTo n (mat.drop n)
  else if 0x61 ≤ t && t ≤ 0x66 then 0x04 :: own (n - 1)
  else own n

/-- The public key of a stored form: of a public-only object the form itself, of a composite or hybrid type both parts'. -/
def pubOf (t : Nat) (p : List Nat) (mat : Bytes) : Bytes :=
  if pubOnly t then mat
  else
    match keySizes t p, typeParts t with
    | none, _ => []
    | some _, some (a, b) =>
      let n := match keySizes a [] with | some z => z.stored | none => 0
      pubPart a [] (mat.take n) ++ pubPart b [] (mat.drop n)
    | some _, none => pubPart t p mat

/-- What a private part must satisfy on entry: the values computed from its seed (R170, R178, R181), the product and CRT values
of an RSA key (R210), a scalar from 1 to below the group order (Table 7.8; the order is not in the spec, log 3). -/
def partOk (t : Nat) (p : List Nat) (mat : Bytes) : Bool :=
  if regenerates t then regenOk t mat
  else if t = 0x60 then rsaCrtOk (p.getD 0 0) (p.getD 1 0) mat
  else if 0x61 ≤ t && t ≤ 0x66 then mat.any (· ≠ 0) && Config.accepts 0x10A01 [leBytes 1 t, mat]
  else true

/-- What a private key must satisfy on entry, part by part. -/
def entryOk (t : Nat) (mat : Bytes) : Bool :=
  pubOnly t ||
    (match typeParts t with
     | some (a, b) =>
       let n := match keySizes a [] with | some z => z.stored | none => 0
       partOk a [] (mat.take n) && partOk b [] (mat.drop n)
     | none => partOk t ((paramOf t mat).getD []) mat)

/-- CHECK of a key: SHA3-256 of the public key, or the 3-byte KCV of a symmetric key and zeros (Table 5.4). -/
def kcvOf (t : Nat) (mat : Bytes) : Bytes :=
  if t = 0x03 || t = 0x07 then algoBytes 0x10002 [mat] 3 else algoBytes 0x10003 [leBytes 1 t, mat] 3

/-- The CHECK field of an object. -/
def checkOf (t : Nat) (pub mat : Bytes) : Bytes := if pub = [] then kcvOf t mat ++ zeros 29 else sha3 pub

/-! ## The index of a stateful key -/

/-- The first use after KINDLE: NEXT := CEIL, and what lay between is burned (R148). -/
def KeyObj.open_ (k : KeyObj) : KeyObj :=
  if k.opened then k else { k with opened := true, burned := k.burned + (k.ceil - k.next), next := k.ceil }

/-- NEXT as the first use after KINDLE leaves it. -/
def KeyObj.nextNow (k : KeyObj) : Nat := k.open_.next

/-- What the cached form of a stateful key holds once an index is used: of HSS, the last-level tree of the index; of XMSS and
XMSS^MT, the traversal state behind it (R186). -/
def treeOf (k : KeyObj) (index : Nat) : Nat :=
  if baseType k.type = 0x40 then
    match (hssLevels k.param).getLast? with
    | some l => index / 2 ^ lmsHeight l.1
    | none => 0
  else index + 1

/-- A signature with an index generates a new last-level tree: the key holds another, or none (R186). -/
def opensTree (k : KeyObj) (index : Nat) : Bool := baseType k.type = 0x40 && k.tree ≠ some (treeOf k index)

/-! ## Keys that a seed gives (Table 5.5) -/

/-- The bytes of an ASCII string. -/
def ascii (s : String) : Bytes := s.toList.map (fun c => BitVec.ofNat 8 c.toNat)

/-- The stored form that a seed gives, of a type that regenerates. -/
def seedForm (t : Nat) (seed : Bytes) : Bytes := seed ++ expandOf t seed

/-- The public key that a seed gives. -/
def seedPub (t : Nat) (seed : Bytes) : Bytes := pubPart t [] (seedForm t seed)

/-- A pure, hedged ML-DSA-65 signature with a context string under the key of a seed. -/
def signSeed (ctx seed msg rnd : Bytes) : Bytes :=
  mldsaSign 2 [seedForm 0x21 seed, muOf (seedPub 0x21 seed) (formatted 0 ctx msg), rnd]

/-- A pure ML-DSA-65 signature with a context string verifies under a public key. -/
def verifies (ctx pub msg sig : Bytes) : Bool :=
  mldsaHintOk 2 sig && mldsaVerify 2 pub (muOf pub (formatted 0 ctx msg)) sig

/-- The ML-KEM shared secret of a stored form of a type and a ciphertext. -/
def mlkemShared (t : Nat) (mat ct : Bytes) : Bytes := algoBytes (0x1120 + (t - 0x0F)) [mat, ct] 32

/-- An ML-KEM-768 ciphertext ‖ shared secret for an encapsulation key, from 32 bytes of randomness. -/
def mlkemEncaps (ek rnd : Bytes) : Bytes := algoBytes 0x1112 [ek, rnd] 1120

end Sys2Proof.Machine
end

