-- ==== Sys2Proof/Machine/Derive.lean ====
section
/-! DEFINITION. What keys derive from and how they are written down: policy blocks (R123), the derivation tree (R132, R133,
Table 5.5), header entries (Table 5.4) and the records of a spool (R289, R290). -/

namespace Sys2Proof.Machine

/-! ## Policy blocks (Table 5.3) -/

/-- Policy flag EXPORT. -/
abbrev polExport : Nat := 0
/-- Policy flag CUSTOM. -/
abbrev polCustom : Nat := 1
/-- Policy flag PERSIST. -/
abbrev polPersist : Nat := 2
/-- Policy flag MIRROR. -/
abbrev polMirror : Nat := 3
/-- Policy flag LEGACY. -/
abbrev polLegacy : Nat := 4
/-- Policy flag WIN_REL. -/
abbrev polWinRel : Nat := 5

/-- The policy a 32-byte block spells. -/
def policyOf (b : Bytes) : Policy where
  ops := BitVec.ofNat 16 (leAt b 0 2)
  flags := BitVec.ofNat 16 (leAt b 2 2)
  mask := leAt b 4 1
  fanout := leAt b 5 1
  maxUses := leAt b 8 8
  notBefore := leAt b 0x10 4
  notAfter := leAt b 0x14 4

/-- A policy flag. -/
def Policy.flag (p : Policy) (i : Nat) : Bool := bitOf p.flags.toNat i
/-- An OPS bit. -/
def Policy.op (p : Policy) (i : Nat) : Bool := bitOf p.ops.toNat i

/-- The 32-byte block of a policy. -/
def Policy.bytes (p : Policy) : Bytes :=
  leBytes 2 p.ops.toNat ++ leBytes 2 p.flags.toNat ++ leBytes 1 p.mask ++ leBytes 1 p.fanout ++ zeros 2 ++
    leBytes 8 p.maxUses ++ leBytes 4 p.notBefore ++ leBytes 4 p.notAfter ++ zeros 8

/-- A block's reserved bits and bytes are 0. -/
def policyClean (b : Bytes) : Bool :=
  leAt b 0 2 < 1024 && leAt b 2 2 < 64 && leAt b 6 2 = 0 && leAt b 0x18 8 = 0

/-! ## Derivation (Table 5.5) -/

/-- The device root secret: the VALID slot. -/
def State.drs (s : State) : Bytes := if s.glb.drsSlot then s.otp.drs1.data else s.otp.drs0.data
/-- The attestation key's seed ξ. -/
def State.attestSeed (s : State) : Bytes := kmac 1 s.drs [] 32
/-- The identity signing key's seed ξ. -/
def State.idSeed (s : State) : Bytes := kmac 2 s.drs [] 32
/-- The identity KEM key's seed d ‖ z. -/
def State.idKemSeed (s : State) : Bytes := kmac 3 s.drs [] 64
/-- The device-record key of the spool of a serial: it protects the PTC_LIFE checkpoint and the BOOTS mirror (R133). -/
def State.spoolDeviceKey (s : State) (serial : Bytes) : Bytes := kmac 4 s.drs (padTo 16 serial) 32
/-- The storage root. -/
def State.storageRoot (s : State) : Bytes := kmac 5 s.drs (s.vigil.nonce.getD []) 32
/-- The AES-256-XTS key pair of the key table in HBM. -/
def State.hbmTableKey (s : State) : Bytes := kmac 6 s.storageRoot [] 64
/-- The root of the HBM data keys, in per-strand tweak domains. -/
def State.hbmDataRoot (s : State) : Bytes := kmac 7 s.storageRoot [] 64
/-- The device-wrap key of a function. -/
def State.dwk (s : State) (f : Nat) : Bytes := kmac 8 s.storageRoot (leBytes 2 f) 32
/-- The key-record key of the spool of a serial. -/
def State.spoolKeyKey (s : State) (serial : Bytes) : Bytes := kmac 9 s.storageRoot (padTo 16 serial) 32
/-- The device-wrap key as an object: a key-encryption key with OPS wrap and unwrap (R120). -/
def State.dwkObj (s : State) (f : Nat) : KeyObj :=
  { uid := 0, type := 0x07, mat := s.dwk f, len := 32, policy := { ops := 0x30, mask := 1, notAfter := 0xFFFFFFFF } }
/-- The identity signing public key, which authenticates the device to the spool and the ply link (R133). -/
def State.idPublic (s : State) : Bytes := seedPub 0x21 s.idSeed
/-- The identity KEM public key. -/
def State.idKemPublic (s : State) : Bytes := seedPub 0x11 s.idKemSeed
/-- The digest of the identity signing key that a paired spool records (R287). -/
def State.idDigest (s : State) : Bytes := sha3 s.idPublic

/-! ## Header entries (Table 5.4) -/

/-- EPOCH of a directory slot. -/
def State.epochOf (s : State) (slot : Nat) : BitVec 4 := s.kst.epoch.getD slot 0
/-- The handle of a slot's key. -/
def State.handleOf (s : State) (slot : Nat) : Nat :=
  mkHandle (slot / 262144) (slot % 262144) (s.epochOf slot).toNat

/-- The 112 bytes of a header entry that leave the key store: OWNER and the half fields read 0 (Table 5.4, Table 5.6). -/
def State.headerBytes (s : State) (slot : Nat) (k : KeyObj) : Bytes :=
  let st := (s.epochOf slot).toNat * 2 ^ 16 + b2n k.unusable * 2 ^ 12 + b2n (stateful k.type) * 2 ^ 11 +
    b2n k.repl.isSome * 2 ^ 10 + b2n k.active * 2 ^ 9 + 2 ^ 8 + k.type
  leBytes 4 st ++ leBytes 4 k.len ++ zeros 8 ++ k.policy.bytes ++ leBytes 8 k.uses ++ leBytes 8 k.next ++
    leBytes 8 k.ceil ++ leBytes 8 k.burned ++ padTo 32 k.check

/-! ## Records of a spool (R289, R290, Tables 10.4 and 10.5) -/

/-- KIND of the record of a work. -/
def SplWork.kind : SplWork → Nat
  | .key _ _ | .shadowRec _ _ | .restKey _ _ => 0x01
  | .index _ _ | .restIndex _ _ => 0x02
  | .commitRec _ _ => 0x03
  | .tomb .. => 0x04
  | .ckpt => 0x10
  | .boots => 0x11
  | .role | .primary _ => 0x12
  | .copy id _ => id.kind

/-- The key slot a work is about. -/
def SplWork.slot : SplWork → Option Nat
  | .key i _ | .shadowRec i _ | .index i _ | .commitRec i _ | .tomb i _ _ _ | .restKey i _ | .restIndex i _ => some i
  | _ => none

/-- OWNER of the record of a work (Table 10.4). -/
def SplWork.owner (w : SplWork) : Nat :=
  match w with
  | .copy id _ => id.owner
  | _ => match w.slot with | some i => i / 262144 | none => 0xFFFF

/-- RECNO of the record of a work. A KEY record has its key's number n, and the shadow record of a replacement n too, with the
next VERSION; the INDEX, COMMIT and TOMB records of the key have n + 2^56 × KIND, device records 2^56 × KIND: the spec says
only that the numbers are unique and the device's (log 136). -/
def State.recnoOf (s : State) (w : SplWork) : Nat :=
  match w with
  | .copy id _ => id.recno
  | .tomb _ _ n _ => n + 2 ^ 56 * 0x04
  | _ =>
    let n := match w.slot.bind s.key? with | some k => (k.spoolRec.map (·.1)).getD 0 | none => 0
    if w.kind = 0x01 then n else n + 2 ^ 56 * w.kind

/-- A record identifier (Table 10.4). -/
def recIdent (recno owner kind version : Nat) : Bytes :=
  leBytes 8 recno ++ leBytes 2 owner ++ leBytes 1 kind ++ zeros 1 ++ leBytes 4 version

/-- VERSION of the next write of a work's record on a port: one more than the last, or that of a copy; while a re-spooling writes a
record to both spools, the version that the other spool has it in (R289, R298). -/
def State.nextVer (s : State) (p : Port) (w : SplWork) : Nat :=
  match w with
  | .copy id _ => id.version
  | _ =>
    let n := s.recnoOf w
    let own := (s.port p).vers.getD n 0 + 1
    if s.spl.respool.isSome && decide (w.kind < 0x10) then max own ((s.port (otherPort p)).vers.getD n 0) else own

/-- The identifier of the record of a work on a port. -/
def State.recIdentOf (s : State) (p : Port) (w : SplWork) : Bytes := recIdent (s.recnoOf w) w.owner w.kind (s.nextVer p w)

/-- The content of the record of a work (Table 10.5); the layout of the fields of INDEX, ROLE and the small records is the
model's (log 136). -/
def State.recContent (s : State) (x : Spl) (w : SplWork) : Bytes :=
  let obj (i : Nat) : KeyObj := (s.key? i).getD { uid := 0, type := 0 }
  match w with
  | .key i _ | .restKey i _ => s.headerBytes i (obj i) ++ (obj i).mat
  | .shadowRec i _ =>
    match (obj i).repl with
    | some r => s.headerBytes i { obj i with check := r.check, uses := 0 } ++ r.mat
    | none => []
  | .index i ceil => leBytes 4 (s.handleOf i) ++ leBytes 8 ceil ++ leBytes 8 (obj i).burned
  | .restIndex i _ => leBytes 4 (s.handleOf i) ++ leBytes 8 (obj i).ceil ++ leBytes 8 (obj i).burned
  | .commitRec i j =>
    let n := s.recnoOf (.shadowRec i j)
    recIdent n (i / 262144) 0x01 (x.vers.getD n 0)
  | .tomb _ _ _ h => leBytes 4 h
  | .ckpt => leBytes 4 s.glb.ptcLife.toNat
  | .boots => leBytes 4 s.glb.boots.toNat
  | .role => leBytes 1 x.role ++ leBytes 4 x.swSeq ++ s.idDigest
  | .primary q => leBytes 1 1 ++ leBytes 4 q ++ s.idDigest
  | .copy _ b => b

/-- The WRITE frame of a work: the identifier, and the body sealed under the spool's device-record or key-record key, with the
identifier as additional data and an IV of core T's generator (R290). The record's VERSION rises. -/
def State.writeRecord (s : State) (p : Port) (w : SplWork) : State :=
  let x := s.port p
  let id := s.recIdentOf p w
  let key := if 0x10 ≤ w.kind then s.spoolDeviceKey x.serial else s.spoolKeyKey x.serial
  let (iv, s) := s.drawT 12
  let body := iv ++ aeadSeal 6 key iv id (s.recContent x w) 16
  s.setPort p { x with
    vers := x.vers.put 0 (s.recnoOf w) (s.nextVer p w), commitBytes := x.commitBytes + body.length
    written := x.written ++ [(id, body)] }

/-! ## Frames of the spool link (R293, Table 10.6) -/

/-- CRC-32C of bytes (log 10). -/
def crc32c (b : Bytes) : BitVec 32 :=
  ~~~(b.foldl (fun (c : BitVec 32) x =>
    (List.range 8).foldl (fun (c : BitVec 32) _ => if c.getLsbD 0 then (c >>> 1) ^^^ 0x82F63B78#32 else c >>> 1)
      (c ^^^ x.setWidth 32)) 0xFFFFFFFF#32)

/-- CMD of a request (Table 10.7). -/
def SplOut.cmd : SplOut → Nat
  | .hello => 1 | .finish => 2 | .pair => 3 | .status => 4 | .read _ => 5 | .write _ => 6 | .commit _ => 7 | .list => 8
  | .release => 9 | .close => 10

/-- The identifier of the record of a work that has been written. -/
def State.recWritten (s : State) (x : Spl) (w : SplWork) : Bytes :=
  let n := s.recnoOf w
  recIdent n w.owner w.kind (x.vers.getD n 0)

/-- The key whose KEY record has a number. -/
def State.keyOfRec (s : State) (n : Nat) : Option (Nat × KeyObj) :=
  s.kst.keys.find? (fun e => match e.2.spoolRec with | some r => r.1 == n | none => false)

/-- The identifier of the record that a READ names: of a record that a re-spooling copies, as LIST gave it; otherwise of the key
whose record it is. -/
def State.readIdent (s : State) (n : Nat) : Bytes :=
  match (s.spl.respool.bind (fun r => r.todo.head?)).filter (fun c => c.recno = n) with
  | some c => recIdent n c.owner c.kind c.version
  | none =>
    match s.keyOfRec n with
    | some (i, k) => recIdent n (i / 262144) 0x01 ((k.spoolRec.map (·.2)).getD 0)
    | none => recIdent n 0 0x01 0

/-- The payload of a request before it is sealed (Tables 10.3 and 10.7); the fields of a LIST request have 4 bytes each (log 136). -/
def State.splPayload (s : State) (x : Spl) : SplOut → Bytes
  | .hello => x.nonce ++ s.idPublic ++ Config.deviceCert
  | .finish => x.finish
  | .pair => s.idDigest
  | .read n => s.readIdent n
  | .write _ => match x.written.getLast? with | some (i, b) => i ++ b | none => []
  | .commit ws => (ws.map (s.recWritten x)).flatten
  | .list => leBytes 4 ((s.spl.respool.map (·.cursor)).getD 0) ++ leBytes 4 0xFFFFFFFF
  | .status | .release | .close => []

/-- A frame with a payload: header, payload, CRC; from PAIR on the payload is sealed under the key of the direction, with the header
as additional data (R286, R293). -/
def linkFrame (cmd seq : Nat) (key payload : Bytes) : Bytes :=
  let sealed := decide (3 ≤ cmd)
  let head := leBytes 2 0x4B53 ++ leBytes 1 cmd ++ leBytes 1 (2 * b2n sealed) ++
    leBytes 4 (payload.length + (if sealed then 16 else 0)) ++ leBytes 8 seq
  let b := head ++ (if sealed then aeadSeal 7 key (leBytes 4 0 ++ leBytes 8 seq) head payload 16 else payload)
  b ++ leBytes 4 (crc32c b).toNat

/-- The frame of a request of a port. -/
def State.frameOfReq (s : State) (x : Spl) (o : SplOut) : Bytes := linkFrame o.cmd x.seq (x.keys.take 32) (s.splPayload x o)

/-- The content of a record body that a spool answers for an identifier: IV, ciphertext and tag, with the identifier as additional
data (R290); none when the tag fails. A body that is not written out has the tag that `tagOk` says. -/
def State.openRecord (s : State) (x : Spl) (tagOk : Bool) (id body : Bytes) : Option Bytes :=
  if !tagOk then none
  else if body = [] then some []
  else aeadOpen 6 (s.spoolKeyKey x.serial) (body.take 12) id (body.drop 12) 16

/-- The frame of a response to the request `cmd` of a port holds: MAGIC, CMD, FLAGS, LEN and CRC, a SEQ not used before, and from PAIR
on the tag under the key of the spool's direction (R286, R293); what is not written out holds. A response lost in a repeated exchange
may have used a SEQ (log 150). -/
def Spl.frameHolds (x : Spl) (cmd : Nat) (frame : Option Bytes) : Bool :=
  match frame with
  | none => true
  | some b =>
    let n := b.length - 20
    let sealed := decide (3 ≤ cmd)
    let q := leAt b 8 8
    decide (20 ≤ b.length) && leAt b 0 2 = 0x4B53 && leAt b 2 1 = cmd && leAt b 3 1 = 1 + 2 * b2n sealed && leAt b 4 4 = n &&
      decide (x.rseq ≤ q ∧ q ≤ x.rseq + x.errors) && leAt b (16 + n) 4 = (crc32c (b.take (16 + n))).toNat &&
      (!sealed || (aeadOpen 7 ((x.keys.drop 32).take 32) (leBytes 4 1 ++ leBytes 8 q) (b.take 16) (slice b 16 n) 16).isSome)

end Sys2Proof.Machine
end

