-- ==== Sys2Proof/Machine/KeyTable.lean ====
section
/-! DEFINITION. The key table in HBM (R128, R129, R131): its entries, the placing of headers and runs of material entries, eviction
to the spool and the return of evicted material. -/

namespace Sys2Proof.Machine

/-- The stateful keys of a saved strand no longer sign, and their remaining batches are burned (R324). The records of PERSIST ones
on the spool say so from then on (log 146). -/
def State.freezeSaved (s : State) (f : Nat) : State :=
  let mine (i : Nat) (k : KeyObj) : Bool := i / 262144 = f && stateful k.type && !pubOnly k.type
  { s with kst := { s.kst with
      frozenRecs := s.kst.frozenRecs ++ s.kst.keys.filterMap (fun e => if mine e.1 e.2 then e.2.spoolRec.map (·.1) else none)
      keys := s.kst.keys.each (fun i k =>
        if mine i k then { k with savedAway := true, burned := k.burned + (k.ceil - k.next), next := k.ceil } else k) } }

/-! ## Sizes -/

/-- The sizes of a key object; a public-only object stores and caches its public key. -/
def KeyObj.sizes (k : KeyObj) : KeySizes :=
  if pubOnly k.type then ⟨k.pub.length, k.pub.length, k.pub.length⟩ else (keySizes k.type k.param).getD ⟨0, 0, 0⟩

/-! ## Halves and entries (R128, Table 5.4) -/

/-- Entries of the key table. -/
def tableSize : Nat := 4194304
/-- Entries of a run: the stored size in entries of 256 bytes. -/
def KeyObj.run (k : KeyObj) : Nat := ceilDiv k.len 256
/-- First entry of the active half's run. -/
def KeyObj.here (k : KeyObj) : Option Nat := if k.active then k.halfB else k.halfA
/-- Set the active half's run. -/
def KeyObj.setHere (k : KeyObj) (a : Option Nat) : KeyObj := if k.active then { k with halfB := a } else { k with halfA := a }
/-- Set the inactive half's run. -/
def KeyObj.setThere (k : KeyObj) (a : Option Nat) : KeyObj := if k.active then { k with halfA := a } else { k with halfB := a }
/-- The key table holds the active half's material; otherwise it has been evicted, or not been rebuilt (R129, R292). -/
def KeyObj.inTable (k : KeyObj) : Bool := k.here.isSome
/-- The material can be had without the spool: from the table, or from the fill buffer. -/
def KeyObj.atHand (k : KeyObj) : Bool := k.inTable || k.inBuffer
/-- The entries that an object takes up: its header's, and a run for each half that has one. Each is its first entry and its
length. -/
def KeyObj.runs (k : KeyObj) : List (Nat × Nat) :=
  (k.hdr, 1) :: (k.halfA.toList ++ k.halfB.toList).map (fun a => (a, k.run))
/-- Key-table entries of an object: the header and a run for each half. -/
def KeyObj.entries (k : KeyObj) : Nat :=
  1 + k.run + (if k.repl.isSome then k.run else 0)
/-- Lines of the key cache that an object's cached form takes (R130). -/
def KeyObj.lines (k : KeyObj) : Nat := ceilDiv k.sizes.cached 256
/-- Every object whose entries are still taken: the directories' and those that wait for their last job (R149). -/
def State.allKeys (s : State) : List (Nat × KeyObj) := s.kst.keys ++ s.kst.dying
/-- Entries counted against an owner's KEY_ENTRIES. -/
def State.entriesOf (s : State) (f : Nat) : Nat :=
  ((s.allKeys.filter (fun e => e.1 / 262144 = f)).map (fun e => e.2.entries)).sum

/-! ## Placing (R128)

A header takes one entry and a run consecutive ones; which, the spec leaves to the device, and the model takes the lowest that
are free (log 137). -/

/-- `n` entries from `c` on lie in the table and meet none of those in use. -/
def fitsAt (used : List (Nat × Nat)) (n c : Nat) : Bool :=
  decide (c + n ≤ tableSize) && used.all (fun u => decide (c + n ≤ u.1) || decide (u.1 + u.2 ≤ c))

/-- The lowest place for `n` consecutive entries: entry 0, or just after a run in use. -/
def firstFit (used : List (Nat × Nat)) (n : Nat) : Option Nat :=
  ((0 :: used.map (fun u => u.1 + u.2)).filter (fitsAt used n)).foldl
    (fun a c => match a with | none => some c | some b => some (min b c)) none

/-- Places for runs of the given lengths, one after another. -/
def placeRuns : List (Nat × Nat) → List Nat → Option (List Nat)
  | _, [] => some []
  | used, n :: ns =>
    match firstFit used n with
    | none => none
    | some c => (placeRuns ((c, n) :: used) ns).map (c :: ·)

/-- The entries in use. -/
def State.usedRuns (s : State) : List (Nat × Nat) := (s.allKeys.map (fun e => e.2.runs)).flatten

/-- Entries of the key table in use. -/
def State.entriesUsed (s : State) : Nat := (s.usedRuns.map (fun u => u.2)).sum

/-! ## Eviction and return (R129) -/

/-- The least recently used of the keys of which a test holds. -/
def leastUsed (p : Nat → KeyObj → Bool) : Tbl KeyObj → Option (Nat × KeyObj)
  | [] => none
  | (i, k) :: t =>
    match leastUsed p t with
    | some (j, m) => if p i k && decide (k.lru ≤ m.lru) then some (i, k) else some (j, m)
    | none => if p i k then some (i, k) else none

/-- An object is pinned by some job. -/
def State.pinned (s : State) (uid : Nat) : Bool := s.jobs.any (fun e => e.2.pinned && e.2.holds uid)

/-- A key whose material may be evicted: PERSIST, with a current record on the spool. -/
def KeyObj.evictable (k : KeyObj) : Bool :=
  k.policy.flag polPersist && k.inTable && k.recOk

/-- Places for runs of the given lengths, after evicting the material of the least recently used evictable keys where they need
it; `fuel` bounds the evictions. The header entry of an evicted key stays. -/
def State.makeRoom (s : State) (ns : List Nat) : Nat → State × Option (List Nat)
  | 0 => (s, placeRuns s.usedRuns ns)
  | fuel + 1 =>
    match placeRuns s.usedRuns ns with
    | some l => (s, some l)
    | none =>
      match leastUsed (fun _ k => k.evictable) s.kst.keys with
      | some (slot, k) =>
        let s := s.setKey slot { k.setHere none with cached := k.cached && s.pinned k.uid }
        ({ s with kst := { s.kst with cntEvict := satInc s.kst.cntEvict } } : State).makeRoom ns fuel
      | none => (s, none)

/-- Material read back from the spool goes to the table where a run can be had for it, and otherwise stays in the fill buffer. What
an authenticated record holds is what was written to it, so material that the model knows stands (log 138). -/
def State.refill (s : State) (slot : Nat) (k : KeyObj) (m : Bytes) : State :=
  let k := if k.mat ≠ [] then k else
    let p := if k.param = [] then (paramOf k.type m).getD [] else k.param
    { k with
      mat := m, param := p, pub := if k.pub = [] then pubOf k.type p m else k.pub
      last := if stateful k.type then lastIndex k.type p else 0 }
  match s.makeRoom [k.run] s.kst.keys.length with
  | (s, some [c]) => s.setKey slot (k.setHere (some c))
  | (s, _) => s.setKey slot { k with inBuffer := true }

end Sys2Proof.Machine
end

