-- ==== Sys2Proof/Machine/Command.lean ====
section
/-! DEFINITION. Commands that firmware carries out (R23, R94, R134): finding the job, its parameter block, its completion. A
job raised to firmware is at stage `firmware` until its command's row runs; its reply re-enters at S6. -/

namespace Sys2Proof.Machine

/-- The job of a command that firmware carries out, when it has been raised, its opcode is the command's and its buffers have
been read. -/
def State.cmdJob (s : State) (j : Nat) (op : Nat) : Option Job :=
  match s.job? j with
  | some x =>
    if x.stage = .firmware && x.opcode = op && (x.inLen = 0 || x.input.isSome) && (x.auxLen = 0 || x.aux.isSome) then some x
    else none
  | none => none

/-- The staged input of a job: its parameter block. -/
def Job.block (x : Job) : Bytes := x.input.getD []

/-- The staged auxiliary data of a job. -/
def Job.auxData (x : Job) : Bytes := x.aux.getD []

/-- A command whose execution ends after its deadline sets LATE (R73, R95). -/
def State.lateNow (s : State) (x : Job) : Bool :=
  match x.deadline with
  | some d => decide (d ≤ s.now)
  | none => false

/-- ENGINE of a command's completion: the spindle or carder that computed for it (R134), or none. -/
def State.cmdEngine (s : State) (x : Job) : BitVec 16 := if x.cycles = 0 then s.engineNone x else x.engine

/-- CTIME of a key-store command that ran in the seal island and for which the spec gives no figure counts cycles all the same
(R134): a free number of them (log 131). -/
def State.sealCycles (s : State) (j : Nat) : State :=
  match s.job? j with
  | some x =>
    if x.opClass = 5 && x.cycles = 0 then
      let (n, s) := s.freeNum
      s.setJob j { x with cycles := 1 + n % 2 ^ 32, engine := s.engineNone x }
    else s
  | none => s

/-- A command ends OK with its result; a result above the output capacity gives INPUT 0x0003 and its size (R71, R85). -/
def State.done (s : State) (j : Nat) (result : Bytes) : State :=
  match s.job? j with
  | none => s
  | some x =>
    let s := ((s.takeGate j).leaveS3 j).sealCycles j
    let fits := decide (result.length ≤ x.outCap)
    s.modJob j (fun y => { y with
      stage := .s6, major := if fits then 0 else 2, detail := if fits then 0 else 3, result := if fits then result else []
      resLen := result.length, engine := s.cmdEngine y, fLate := s.lateNow x })

/-- A command ends with a status and no output (R22). -/
def State.doneErr (s : State) (j major detail : Nat) : State :=
  match s.job? j with
  | none => s
  | some x =>
    ((((s.endShadow j).takeGate j).leaveS3 j).unreserve j).modJob j (fun y => { y with
      stage := .s6, major := major, detail := detail, result := [], resLen := 0, engine := s.cmdEngine x,
      fLate := s.lateNow x, rnd := [] })

/-- A command that changes the mode and starts in the cycle in which a tamper response or the hardware changes it: it completes
with BUSY and has no effect (R35). -/
def State.unlessHw (s : State) (job : Nat) (hwChange : Bool) (x : Job) (f : State) : State :=
  if hwChange && x.phase = 0 then s.doneErr job busyErr 0x0104 else f

/-- A command ends with INPUT 0x0003 and the size its result needs. -/
def State.doneShort (s : State) (j need : Nat) : State :=
  (s.doneErr j 2 3).modJob j (fun x => { x with resLen := need })

/-- A command keeps its job raised and waits. Phase 1 is a wait before execution, which its deadline ends (R95); any other phase
has begun to execute. -/
def State.waitPhase (s : State) (j phase : Nat) : State :=
  let s := ((s.takeGate j).leaveS3 j).modJob j (fun x => { x with phase := phase })
  match s.job? j with
  | some x =>
    match x.deadline with
    | some d => if phase = 1 then s.dlInsert 0 d (.deadlineExpiry j) else s
    | none => s
  | none => s

/-- The storage root is available to jobs: not in DEBUG, not without an epoch nonce (R121 check 3, R39). -/
def State.rootUp (s : State) : Bool := s.glb.root && !s.glb.debug && s.vigil.nonce.isSome

/-- Abort a job and let it complete with a status: its units wiped, its reservation returned, an assigned index burned, a use
already counted standing (R438). A job whose word 0 has been issued is left as it is. CTIME of a job aborted in S5 counts cycles
up to then for which the spec gives no figure: a free number (log 131). -/
def State.abortTo (s : State) (j major detail : Nat) : State :=
  match s.job? j with
  | none => s
  | some x =>
    let computed := match x.stage with | .s5 | .ended | .s6 | .s7wait | .held | .s7 _ => true | _ => false
    let e := if computed then x.engine else s.engineNone x
    let (n, s) := s.freeNum
    let cyc := match x.stage with | .s5 => n % 2 ^ 32 | _ => if computed then x.cycles else 0
    let go (s : State) : State :=
      let s := ((((((s.endShadow j).takeGate j).leaveS3 j).undeal j).unreserve j).burn j).freeUnits j true
      let s : State := { s with crx := { s.crx with callQ := s.crx.callQ.filter (· ≠ j) } }
      s.modJob j (fun x => { x with
        stage := .s6, major := major, detail := detail, result := [], resLen := 0, engine := e, cycles := cyc, rnd := [], input := none,
        aux := none, tagged := true, checked := true, due := [] })
    match x.stage with
    | .s7 k => if 5 ≤ k then s else go s
    | .applet c => (go (s.each (s.subJobsOf c) State.dropOne)).setCtx c {}
    | _ => go s

/-- A replacement in progress is ended and its shadow wiped; the key keeps its old half (R141, R144). -/
def State.endReplacements (s : State) : State :=
  { s with kst := { s.kst with keys := s.kst.keys.each (fun _ k => if k.repl.isSome then k.replDone else k) } }

end Sys2Proof.Machine
end

