-- ==== Sys2Proof/Machine/Tamper.lean ====
section
/-! DEFINITION. Tamper and environment (chapter 17): sources, responses, zeroization (R152), the log, and the commands and
events of the chapter. -/

namespace Sys2Proof.Machine

/-! ## Sources (Table 17.1) -/

/-- Default response of a source. -/
def srcDefault (n : Nat) : Nat :=
  match n with
  | 1 | 2 | 6 | 7 | 22 | 23 => 3
  | 3 | 4 | 5 | 24 | 25 => 2
  | 0 | 21 => 0
  | _ => if 8 ≤ n ∧ n ≤ 20 then 1 else 0

/-- Floor of a source's response. -/
def srcFloor (n : Nat) : Nat :=
  match n with
  | 1 | 2 | 3 | 4 | 6 | 24 | 25 => 1
  | 7 | 23 => 3
  | 22 => 2
  | _ => 0

/-- The source may be disabled in OTP. -/
def srcFuse (n : Nat) : Bool := decide (8 ≤ n ∧ n ≤ 21)
/-- The source may use compatibility counting. -/
def srcCount (n : Nat) : Bool := decide (n = 5 ∨ n = 6 ∨ (8 ≤ n ∧ n ≤ 19))
/-- The source is watched on the backup cell. -/
def srcVigil (n : Nat) : Bool := decide (n = 1 ∨ n = 2 ∨ (6 ≤ n ∧ n ≤ 15) ∨ n = 21 ∨ n = 24)
/-- The record of the source carries a DETAIL of its own: the temperature sources, DISAGREE among them (DEDUCED, log 154), SHADOW,
STATE_CODE (Table 17.6). -/
def srcDetail (n : Nat) : Bool := decide (n = 1 ∨ n = 2 ∨ n = 22 ∨ n = 23 ∨ n = 24)
/-- The source has the detectors A and B. -/
def srcTwo (n : Nat) : Bool := decide (n = 1 ∨ n = 2 ∨ n = 24)
/-- The source ID is assigned. -/
def srcKnown (n : Nat) : Bool := decide (1 ≤ n ∧ n ≤ 25)

/-- The configured entry of a source (R440). -/
def State.tmpEntry (s : State) (n : Nat) : TmpEntry := s.vigil.entries.getD n { resp := BitVec.ofNat 2 (srcDefault n) }

/-- The source is disabled by its fuse (R437). -/
def State.fused (s : State) (n : Nat) : Bool := bitOf s.otp.fuse.toNat n
/-- The source is active. -/
def State.srcActive (s : State) (n : Nat) : Bool := bitOf s.tmp.active.toNat n

/-! ## The log (R449) -/

/-- The device runs on the backup cell. -/
def State.inVigil (s : State) : Bool := s.glb.phase = .vigil

/-- Append a record; the oldest of 512 is overwritten. -/
def State.logRec (s : State) (source own applied flags group detail : Nat) : State :=
  let v := s.vigil
  let r : TmpRec := {
    seq := v.logSeq, source := BitVec.ofNat 8 source, resp := BitVec.ofNat 8 (own + 4 * applied),
    flags := BitVec.ofNat 16 flags,
    boots := if s.inVigil then v.boots else s.glb.boots
    life := if s.inVigil then v.life else s.glb.ptcLife
    boot := if s.inVigil then 0 else s.glb.ptcBoot
    group := BitVec.ofNat 32 group, detail := BitVec.ofNat 32 detail }
  let l := v.log ++ [r]
  { s with vigil := { v with
      log := l.drop (l.length - 512), logSeq := v.logSeq + 1, logged := setBit v.logged source true } }

/-! ## Zeroization (R152, Table 5.12) -/

/-- Sessions on the spool and ply links end (R286, R299). -/
def State.endSessions (s : State) : State :=
  let close (p : Spl) : Spl := { p with
    session := false, shake := 0, flight := none, wants := [], staged := [], inCommit := [], coalesce := [], job := none
    keys := [], nonce := [], rnd := [], h3 := [], finish := [], commitBytes := 0, pairing := false
    state := if p.state = 6 || p.state = 7 then 5 else p.state, role := 0 }
  { s with
    spl := { s.spl with a := close s.spl.a, b := close s.spl.b, respool := none }
    ply := { s.ply with p0 := { s.ply.p0 with session := false }, p1 := { s.ply.p1 with session := false } } }

/-- The epoch nonce and everything derived from it are erased; the key cache and the engine memories are erased; the key
table is unreadable (R152). -/
def State.eraseSecrets (s : State) : State :=
  let s : State := { s with
    vigil := { s.vigil with nonce := none }
    glb := { s.glb with root := false }
    hbm := { s.hbm with xts := false } }
  (((s.endReplacements).wipeCache).wipeEngines.wipeDigests).endSessions

/-- The drain that a life-cycle transition began ends with it; another in force goes on (R34, R429). -/
def State.endLifeDrain (s : State) : State :=
  if s.glb.drain = .lifeCycle then { s with glb := { s.glb with drain := s.glb.drainUnder, drainUnder := .none } } else s

/-- A life-cycle transition meets a FREEZE or ZEROIZE response (R117, R429): before the first bit of INTENT_k it completes
with CONFLICT 0x0105 and its drain ends; after it the sequence stops, unwritten, until the next KINDLE. -/
def State.stopTransition (s : State) : State :=
  match s.lcs.run with
  | none => s
  | some r =>
    if r.at_ < 2 then
      let s := s.doneErr r.job 0x0B 0x0105
      ({ s with lcs := { s.lcs with run := none } } : State).endLifeDrain
    else ({ s with lcs := { s.lcs with run := none, stopped := true } } : State).removeJob r.job

/-- A command that waits for the end of a drain gives it up, and the drain it began ends (R95). -/
def State.cancelDrain (s : State) (j : Nat) : State :=
  if s.glb.drainWaiters.contains j then
    let ws := s.glb.drainWaiters.filter (· ≠ j)
    let ends (d : DrainFor) : DrainFor := match s.job? j, d with
      | some x, .standalone | some x, .powerDown => if x.opcode = 0xF201 || x.opcode = 0xF203 then .none else d
      | _, .lifeCycle => d
      | _, _ => .none
    if ws = [] then
      { s with glb := { s.glb with drainWaiters := ws, drain := ends s.glb.drain, drainUnder := ends s.glb.drainUnder } }
    else { s with glb := { s.glb with drainWaiters := ws } }
  else s

/-- Every job of which the test holds is aborted and completes with FROZEN. -/
def State.freezeJobs (s : State) (p : Job → Bool) (detail : Nat) : State :=
  s.each (s.jobsWhere p) (fun s j => s.abortTo j 0x0D detail)

/-- The zeroize line is driven with main power present (R152, R438). A replacement under way ends without completion (R144). The
drain and the update that an aborted command began end with it; other conditions keep their effect (R34). -/
def State.zeroize (s : State) : State :=
  let s := s.stopTransition
  let s := s.each s.glb.drainWaiters State.cancelDrain
  let s : State := { s with glb := { s.glb with update := false } }
  let s := s.each (s.kst.keys.filterMap (fun e => e.2.repl.map (·.job))) State.dropOne
  let s := s.freezeJobs (fun x => !(x.opcode == 0xF604 && x.major == conflictErr && x.detail == 0x0105)) 1
  let s := s.eraseSecrets
  { s with
    glb := { s.glb with zeroized := true, zeroizedThisBoot := true }
    pins := { s.pins with tamperOut := true } }

/-- A job is past S3. -/
def Stage.pastS3 : Stage → Bool
  | .s3 | .waiting _ => false
  | _ => true

/-- The FREEZE response with main power present (Table 17.2). -/
def State.freeze (s : State) : State :=
  let s := s.stopTransition
  let s := s.freezeJobs (fun x => !(x.fn == 0 && x.ring == 0) && x.stage.pastS3) 0x0C01
  let s := (s.wipeWarm (fun _ => true)).wipeDigests
  { s with vigil := { s.vigil with freeze := true }, glb := { s.glb with frozen := true } }

/-- TMP_STS.STATE follows the strongest response in force (Table 17.4). -/
def State.tmpSettle (s : State) : State :=
  let st : Byte := if s.glb.zeroized then 0xC3 else if s.vigil.freeze then 0x66 else if s.tmp.evt ≠ 0 then 0x5A else 0x3C
  { s with tmp := { s.tmp with state := st }, pins := { s.pins with alarm := decide (s.tmp.evt ≠ 0) } }

/-! ## Groups of events (R436, R441, R446) -/

/-- The events of a group that fire: assigned, not fused, inactive until now, one per source, in ascending source ID. -/
def State.firing (s : State) (evs : List TamperEv) : List TamperEv :=
  (List.range 26).filterMap (fun n =>
    if srcKnown n && !s.fused n && !s.srcActive n then evs.find? (fun e => e.source = n) else none)

/-- Count an event of a counted source: whether the count of N within W ticks is reached, and the events in the window. -/
def State.countEvent (s : State) (n : Nat) : Bool × Nat × State :=
  let e := s.tmpEntry n
  let t := s.vigil.ticks
  let win := ((s.vigil.counting.getD n []).filter (fun u => t < u + e.w)) ++ [t]
  let full := decide (e.n ≤ win.length)
  (full, win.length, { s with vigil := { s.vigil with counting := s.vigil.counting.put [] n (if full then [] else win) } })

/-- What one event of a group comes to: its own response, whether it is only counted, and its DETAIL, which for a source that
may count is the number of its events in the window, itself alone where it does not count (R446, Tables 17.6, 17.7). -/
def State.weigh (s : State) (e : TamperEv) : (Nat × Bool × Nat) × State :=
  let c := s.tmpEntry e.source
  if s.vigil.countEn && 1 < c.n then
    let (full, k, s) := s.countEvent e.source
    ((c.resp.toNat, !full, k), s)
  else ((c.resp.toNat, false, if srcCount e.source then 1 else if srcDetail e.source then e.detail.toNat else 0), s)

/-- The events of a group with what each comes to, in order. -/
def State.weighAll (s : State) : List TamperEv → List (TamperEv × Nat × Bool × Nat) × State
  | [] => ([], s)
  | e :: es =>
    let (w, s) := s.weigh e
    let (ws, s) := s.weighAll es
    ((e, w) :: ws, s)

/-- The response applied to a group: the strongest, a counted event standing as LOG. -/
def groupResponse (ws : List (TamperEv × Nat × Bool × Nat)) : Nat :=
  ws.foldl (fun m w => max m (if w.2.2.1 then 0 else w.2.1)) 0

/-- Log one event of a group. -/
def State.logEvent (applied group : Nat) (s : State) (w : TamperEv × Nat × Bool × Nat) : State :=
  let two := srcTwo w.1.source
  let flags := b2n s.inVigil + 2 * b2n w.2.2.1 + 8 * b2n (two && w.1.detectorA) + 16 * b2n (two && w.1.detectorB)
  s.logRec w.1.source w.2.1 applied flags group w.2.2.2

/-- Apply a group's response (Table 17.2 with main power; R444 on the cell). -/
def State.respond (s : State) (applied : Nat) (sources : List Nat) : State :=
  let bits := sources.foldl (fun (m : W32) n => setBit m n true) 0
  if s.inVigil then
    let s : State := if 1 ≤ applied then { s with vigil := { s.vigil with alarms := s.vigil.alarms ||| bits } } else s
    if applied = 3 then
      { s with
        vigil := { s.vigil with nonce := none, zeroized := true, outTicks := some s.vigil.ticks }
        pins := { s.pins with tamperOut := true } }
    else if applied = 2 then { s with vigil := { s.vigil with freeze := true } } else s
  else
    let s := if 1 ≤ applied then ({ s with tmp := { s.tmp with evt := s.tmp.evt ||| bits } } : State).signal 0 0 else s
    let s := if applied = 3 then s.zeroize else if applied = 2 then s.freeze else s
    s.tmpSettle

/-- A group of events fires (R441): all are logged with one GROUP, and the strongest response applies once; LOG is applied to an
event that is only counted (R446). -/
def State.fireGroup (s : State) (evs : List TamperEv) : State :=
  let fs := s.firing evs
  if fs.isEmpty then s
  else
    let s := { s with tmp := { s.tmp with active := fs.foldl (fun (m : W32) (e : TamperEv) => setBit m e.source true) s.tmp.active } }
    let (ws, s) := s.weighAll fs
    let applied := groupResponse ws
    let group := s.vigil.logSeq.toNat
    let s := ws.foldl (State.logEvent applied group) s
    s.respond applied ((ws.filter (fun w => !w.2.2.1)).map (fun w => w.1.source))

/-- A source clears and may fire again (R436). -/
def State.clearSource (s : State) (n : Nat) : State :=
  { s with
    tmp := { s.tmp with active := setBit s.tmp.active n false }
    vigil := { s.vigil with logged := setBit s.vigil.logged n false } }

/-- Vigil RAM is held by VDD_IO18 or the cell, so its detectors watch. -/
def State.vigilOn (s : State) : Bool := s.pins.mainPower || s.pins.cell

/-! ## Events -/

/-- The source is watched with main power: the glitch comparators from 1 ms after PERST_N was released, which is when PTC_BOOT
starts (R435), ENCL4 to 7 while MFP carries them, from 1 ms after its pins turn to inputs (R447). -/
def State.watched (s : State) (n : Nat) : Bool :=
  if 3 ≤ n ∧ n ≤ 5 then s.pins.armed || decide (1000 ≤ s.now)
  else if 16 ≤ n ∧ n ≤ 19 then s.vigil.mfpEncl && decide (s.tmp.enclFrom ≤ s.now)
  else true

/-- The cell's voltage as TMP_VBAT shows it: `base` mV and above, below `base + span`, a free value (log 145). -/
def State.vbatRead (s : State) (base span : Nat) : State :=
  let (mv, s) := s.freeNum
  { s with tmp := { s.tmp with vbatPresent := decide (1800 ≤ base), vbatMv := base + mv % span } }

/-- TAMPER_EVENT: the sources of one tick fire as a group, with main power present from t2 on, and on the cell those that are watched
there (Table 17.1, R441); the two sources that watch the cell say what its voltage has fallen below (R434). -/
def execTamperEvent (group : List TamperEv) (s : State) : Host.Outcome State Fault Refusal :=
  finish (if s.inVigil && s.pins.cell && s.vigil.valid then s.fireGroup (group.filter (fun e => srcVigil e.source))
    else if s.pins.mainPower && s.tmp.loaded then
      let s := if group.any (fun e => e.source = 20) then s.vbatRead 0 1800
        else if group.any (fun e => e.source = 21) then s.vbatRead 1800 700 else s
      s.fireGroup (group.filter (fun e => s.watched e.source))
    else s)

/-- TAMPER_SOURCE_CLEAR: an active source clears; of the two that watch the cell, its voltage has risen again. -/
def execTamperSourceClear (src : Nat) (s : State) : Host.Outcome State Fault Refusal :=
  finish (if !srcKnown src then s
    else
      let s := s.clearSource src
      if !s.pins.mainPower then s
      else if src = 20 then ({ s with pins := { s.pins with cell := true } } : State).vbatRead 1800 63736
      else if src = 21 then s.vbatRead 2500 63036
      else s)

/-- What is active at t2 of KINDLE: a source whose last logged change was to active and which is so no longer clears; one that is
active and was not so logged fires (R436). -/
def State.sourcesAtT2 (s : State) (evs : List TamperEv) : State :=
  let evs := evs.filter (fun e => s.watched e.source && !s.fused e.source)
  let s := s.each ((List.range 26).filter (fun n => s.srcActive n && !evs.any (fun e => e.source = n))) State.clearSource
  s.fireGroup evs

/-- Two consecutive wrong samples fire a mesh or enclosure source; light and shield fire on one. -/
def State.sampleSource (s : State) (n : Nat) (bad : Bool) : State × Bool :=
  let k := if bad then s.tmp.wrong.getD n 0 + 1 else 0
  let need := if 8 ≤ n then 2 else 1
  ({ s with tmp := { s.tmp with wrong := s.tmp.wrong.put 0 n (min k need) } }, decide (need ≤ k))

/-- The sampled sources of VIGIL: light, shield, mesh loops, enclosure inputs 0 to 3 (R443, R444). -/
def vigilSources : List Nat := [6, 7, 8, 9, 10, 11, 12, 13, 14, 15]

/-- VIGIL_SAMPLE: on the cell the vigil samples its sources every 32 ticks; those that fire form one group (R441, R444).
TAMPER_OUT_N, low since a zeroize, is released after 400 ticks, 10 ms of the fastest vigil clock (log 145). -/
def execVigilSample (ticks : Nat) (active : List Nat) (s : State) : Host.Outcome State Fault Refusal :=
  finish (if s.inVigil && s.pins.cell && s.vigil.valid then
      let now := s.vigil.ticks + ticks
      let s : State := { s with vigil := { s.vigil with ticks := now } }
      let s : State := match s.vigil.outTicks with
        | some t =>
          if t + 400 ≤ now then { s with vigil := { s.vigil with outTicks := none }, pins := { s.pins with tamperOut := false } } else s
        | none => s
      let step := fun (a : State × List TamperEv) n =>
        let (t, fires) := a.1.sampleSource n (active.contains n)
        let t := if active.contains n then t else if t.srcActive n then t.clearSource n else t
        (t, if fires then a.2 ++ [{ source := n, detectorA := false, detectorB := false, detail := 0 }] else a.2)
      let (s, evs) := vigilSources.foldl step (s, [])
      s.fireGroup evs
    else s)

/-- THERM_TRIP_N goes low, every clock but the vigil's stops, no further host transaction is issued (R476). -/
def State.thermTrip (s : State) : State :=
  if s.pins.mainPower then
    { s with pins := { s.pins with thermTrip := true }, glb := { s.glb with tripped := true } }
  else s

/-- A signed number of tenths of a degree as 16 bits. -/
def tempBits (t : Int) : Nat := (BitVec.ofInt 16 t).toNat

/-- TEMP_SAMPLE: both detectors are read; TEMP_LOW, TEMP_HIGH and DISAGREE fire or clear (R435). With main
power nothing fires before t2 (R436, R452). A reading of 125 °C trips, after the response of the event (R476). -/
def execTempSample (detA detB : Int) (s : State) : Host.Outcome State Fault Refusal :=
  finish (if s.vigilOn && s.vigil.valid then
      let lo := s.vigil.tLow * 10
      let hi := s.vigil.tHigh * 10
      let dis := if 100 < (detA - detB).natAbs then min 3 (s.tmp.disagree + 1) else 0
      let s : State := { s with tmp := { s.tmp with detA := detA, detB := detB, disagree := dis } }
      let s := if s.srcActive 1 && decide (lo + 50 ≤ detA) && decide (lo + 50 ≤ detB) then s.clearSource 1 else s
      let s := if s.srcActive 2 && decide (detA ≤ hi - 50) && decide (detB ≤ hi - 50) then s.clearSource 2 else s
      let s := if s.srcActive 24 && dis = 0 then s.clearSource 24 else s
      let d := BitVec.ofNat 32 (tempBits detA + tempBits detB * 65536)
      let ev (n : Nat) (a b : Bool) : TamperEv := { source := n, detectorA := a, detectorB := b, detail := d }
      let evs := (if detA < lo ∨ detB < lo then [ev 1 (decide (detA < lo)) (decide (detB < lo))] else []) ++
        (if hi < detA ∨ hi < detB then [ev 2 (decide (hi < detA)) (decide (hi < detB))] else []) ++
        (if dis = 3 then [ev 24 true true] else [])
      let s := if s.pins.mainPower && !s.tmp.loaded then s else s.fireGroup evs
      if decide (1250 ≤ detA) || decide (1250 ≤ detB) then s.thermTrip else s
    else s)

/-- SHADOW_MISMATCH: SHADOW fires with the BAR2 offset of the primary (R442). -/
def execShadowMismatch (offset : W32) (s : State) : Host.Outcome State Fault Refusal :=
  finish (if s.pins.mainPower && s.tmp.loaded then
      s.fireGroup [{ source := 22, detectorA := false, detectorB := false, detail := offset }]
    else s)

/-- The codes assigned to a wide-distance state machine (Table 17.4), in table order from 0. -/
def machineCodes : Nat → List Byte
  | 0 => modeCodes
  | 1 => [0x33, 0x55, 0x5A, 0x96, 0xC3, 0x3C, 0x66, 0x69, 0x99]
  | 2 => [0x3C, 0x5A, 0x66, 0x96, 0xC3]
  | 3 => [0x33, 0x55, 0x69, 0xA5]
  | _ => []

/-- STATE_CODE_INVALID: a state register holds a word outside its codes, and STATE_CODE fires (R443). -/
def execStateCodeInvalid (machine : Nat) (code : BitVec 8) (s : State) : Host.Outcome State Fault Refusal :=
  finish (if s.pins.mainPower && s.tmp.loaded && decide (machine < 4) && !(machineCodes machine).contains code then
      s.fireGroup [{ source := 23, detectorA := false, detectorB := false,
                     detail := BitVec.ofNat 32 (code.toNat + 256 * machine) }]
    else s)

/-- Vigil RAM is lost with everything in it, and what its detectors have seen (R445). -/
def State.loseVigil (s : State) : State :=
  { s with vigil := {}, tmp := { s.tmp with active := 0, wrong := [] }, glb := { s.glb with root := false } }

/-- CELL_REMOVAL: with main power the source fires and the vigil continues from VDD_IO18; without it vigil RAM is lost. -/
def execCellRemoval (s : State) : Host.Outcome State Fault Refusal :=
  let s : State := { s with pins := { s.pins with cell := false }, tmp := { s.tmp with vbatPresent := false, vbatMv := 0 } }
  finish (if s.pins.mainPower then
      (if s.tmp.loaded then s.fireGroup [{ source := 20, detectorA := false, detectorB := false, detail := 0 }] else s)
    else s.loseVigil)

/-- THERM_TRIP: a detector reads 125 °C or more (R476). -/
def execThermTrip (s : State) : Host.Outcome State Fault Refusal := finish s.thermTrip

/-! ## Commands to trusted firmware (R440, R450, R451) -/

/-- Entry n of the configuration block. -/
def cfgEntry (b : Bytes) (n : Nat) : Nat := leAt b (0x10 + 4 * n) 4

/-- The first check of R440 that a configuration block fails, with its status. -/
def State.tamperCfgError (s : State) (b : Bytes) : Option (Nat × Nat) :=
  let flags := leAt b 2 1
  let tl := (BitVec.ofNat 8 (leAt b 4 1)).toInt
  let th := (BitVec.ofNat 8 (leAt b 5 1)).toInt
  let mask := leAt b 8 4
  let all := List.range 32
  let known := all.filter (fun n => srcKnown n)
  let nOf (n : Nat) : Nat := max 1 (fld (cfgEntry b n) 8 4)
  if b.length ≠ 144 then some (2, 1)
  else if leAt b 0 2 ≠ 1 || decide (8 ≤ flags) || leAt b 3 1 ≠ 0 || leAt b 6 2 ≠ 0 || leAt b 12 4 ≠ 0 ||
      all.any (fun n => (!srcKnown n && cfgEntry b n ≠ 0) || fld (cfgEntry b n) 12 4 ≠ 0 || fld (cfgEntry b n) 2 6 ≠ 0) ||
      (!bitOf flags 2 && mask ≠ 0) then some (2, 0x0C05)
  else if known.any (fun n => decide (fld (cfgEntry b n) 0 2 < srcFloor n)) then some (2, 0x0C01)
  else if tl < -40 ∨ -20 < tl ∨ th < 105 ∨ 125 < th then some (2, 0x0C03)
  else if all.any (fun n => bitOf mask n && !srcFuse n) then some (2, 0x0C04)
  else if known.any (fun n => 1 < nOf n && (!srcCount n || !bitOf flags 1 || fld (cfgEntry b n) 16 16 = 0)) then
    some (2, 0x0C02)
  else if bitOf flags 2 && !(s.lcs.state == 0x33 || s.lcs.state == 0x55 || s.lcs.state == 0x3C || s.lcs.state == 0x66) then
    some (0x0B, 0x0104)
  else if bitOf flags 1 && !bitOf s.crx.cfg.toNat 8 then some (0x0B, 0x0C02)
  else none

/-- The state with an accepted configuration block in force (R440, R447). -/
def State.applyTamperCfg (s : State) (b : Bytes) : State :=
  let flags := leAt b 2 1
  let entry (n : Nat) : TmpEntry :=
    { resp := BitVec.ofNat 2 (cfgEntry b n), n := max 1 (fld (cfgEntry b n) 8 4), w := fld (cfgEntry b n) 16 16 }
  let es := ((List.range 32).filter (fun n => srcKnown n && entry n != { resp := BitVec.ofNat 2 (srcDefault n) })).map
    (fun n => (n, entry n))
  let encl := bitOf flags 0
  { s with
    vigil := { s.vigil with
      tLow := (BitVec.ofNat 8 (leAt b 4 1)).toInt, tHigh := (BitVec.ofNat 8 (leAt b 5 1)).toInt
      mfpEncl := encl, countEn := bitOf flags 1, entries := es, counting := [] }
    tmp := { s.tmp with
      active := if bitOf flags 2 then s.tmp.active &&& ~~~(BitVec.ofNat 32 (leAt b 8 4)) else s.tmp.active
      enclFrom := if encl && !s.vigil.mfpEncl then s.now + 1000 else s.tmp.enclFrom }
    otp := { s.otp with fuse := if bitOf flags 2 then s.otp.fuse ||| BitVec.ofNat 32 (leAt b 8 4) else s.otp.fuse }
    trc := if encl && s.trc.port then { s.trc with port := false, blocked := true }
           else if !encl then { s.trc with blocked := false } else s.trc }

/-- TAMPER_CFG (R440). -/
def execTamperCfg (job : Nat) (s : State) : Host.Outcome State Fault Refusal :=
  finish (match s.cmdJob job 0xF601 with
    | none => s
    | some x =>
      match s.tamperCfgError x.block with
      | some (m, d) => s.doneErr job m d
      | none => (s.applyTamperCfg x.block).done job [])

/-- The 32 bytes of a tamper-log record (Table 17.6). -/
def TmpRec.bytes (r : TmpRec) : Bytes :=
  leBytes 4 r.seq.toNat ++ leBytes 1 r.source.toNat ++ leBytes 1 r.resp.toNat ++ leBytes 2 r.flags.toNat ++
    leBytes 4 r.boots.toNat ++ leBytes 4 r.life.toNat ++ leBytes 8 r.boot.toNat ++ leBytes 4 r.group.toNat ++
    leBytes 4 r.detail.toNat

/-- The oldest retained SEQ; the next SEQ when nothing is retained. -/
def State.logOldest (s : State) : Nat :=
  match s.vigil.log with
  | [] => s.vigil.logSeq.toNat
  | r :: _ => r.seq.toNat

/-- What TAMPER_LOG returns for a first record and a capacity (R450). -/
def State.tamperLog (s : State) (first cap : Nat) : Bytes :=
  let l := s.vigil.log
  let from_ := l.dropWhile (fun r => fld r.seq.toNat 0 16 ≠ first)
  let rs := (if from_.isEmpty then l else from_).take ((cap - 16) / 32)
  leBytes 4 s.logOldest ++ leBytes 4 s.vigil.logSeq.toNat ++ leBytes 4 rs.length ++ zeros 4 ++ (rs.map TmpRec.bytes).flatten

/-- TAMPER_LOG (R450). -/
def execTamperLog (job : Nat) (s : State) : Host.Outcome State Fault Refusal :=
  finish (match s.cmdJob job 0xF602 with
    | none => s
    | some x => if x.outCap < 48 then s.doneShort job 48 else s.done job (s.tamperLog (fld x.param 0 16) x.outCap))

/-- A source whose configured response is FREEZE or stronger is active (R451). -/
def State.freezeActive (s : State) : Bool :=
  (List.range 26).any (fun n => srcKnown n && s.srcActive n && decide (2 ≤ (s.tmpEntry n).resp.toNat))

/-- TAMPER_RELEASE (R451): the FREEZE latch, FROZEN and every TMP_EVT bit are cleared. -/
def execTamperRelease (job : Nat) (s : State) : Host.Outcome State Fault Refusal :=
  finish (match s.cmdJob job 0xF603 with
    | none => s
    | some _ =>
      if s.freezeActive then s.doneErr job 0x0B 0x0C01
      else
        ((({ s with
            vigil := { s.vigil with freeze := false }
            glb := { s.glb with frozen := false }
            tmp := { s.tmp with evt := 0 } } : State).tmpSettle).done job []))

end Sys2Proof.Machine
end

