-- ==== Sys2Proof/Machine/Tick.lean ====
section
/-! DEFINITION. What a step does on an empty queue: one microsecond of powered time passes (log 1). PTC_BOOT and PTC_LIFE count
(R51, R52), the delay-list entries that expire make their commands in list order 0 to 7, within a list in order of
insertion (R335), and after them the creels' timers of warm keys make theirs (R239). -/

namespace Sys2Proof.Machine

/-- The vigil's clock, which counts for W, ticks or not within this microsecond (R446, log 73). -/
def State.vigilTick (s : State) : State :=
  if Config.vigilTick s.now then { s with vigil := { s.vigil with ticks := s.vigil.ticks + 1 } } else s

/-- PTC_BOOT moves on by one microsecond, and PTC_LIFE by one second when a whole second has passed; it saturates (R52). -/
def State.advanceTime (s : State) : State :=
  let now := s.glb.ptcBoot + 1
  if 1000000 ≤ (now - s.glb.lifeAt).toNat then
    { s with glb := { s.glb with ptcBoot := now, lifeAt := now, ptcLife := satInc s.glb.ptcLife } }
  else { s with glb := { s.glb with ptcBoot := now } }

/-- An expired entry's command joins the queue. The capping interval measures the package power and the junction temperature, which
are free values here (log 89). -/
def State.fire (s : State) (c : Instr) : State :=
  match c with
  | .cappingInterval _ _ =>
    let (p, s) := s.freeNum
    let (a, s) := s.freeNum
    let (b, s) := s.freeNum
    { s with pending := s.pending ++ [.cappingInterval p ((a : Int) - b)] }
  | c => { s with pending := s.pending ++ [c] }

/-- The entries of a delay list that have expired leave it and make their commands. -/
def State.expireList (s : State) (l : Nat) : State :=
  let due := (s.dl l).filter (fun e => e.at_ ≤ s.now)
  if due.isEmpty then s
  else
    let s := s.setDl l ((s.dl l).filter (fun e => decide (s.now < e.at_)))
    let s := s.each (List.range due.length) (fun s _ => s.trace { event := 0x0E, src := some 3, arg := l })
    (due.map (·.cmd)).foldl State.fire s

/-- The commands of the list-5 entries that fired early are carried out (R336). -/
def State.fireEarly (s : State) : State :=
  { s with pending := s.pending ++ s.hdl.early, hdl := { s.hdl with early := [] } }

/-- The spindles that have been idle for WARM_TMO µs with a warm key make their commands (R239). -/
def State.expireWarm (s : State) : State :=
  let due := s.units.filter (fun e =>
    decide (e.1 % 13 < 12) && e.2.job.isNone && e.2.warm.isSome &&
      decide (e.2.idleAt + fld (s.creel (e.1 / 13 / 11) (e.1 / 13 % 11)).ctl.toNat 16 16 ≤ s.now))
  { s with pending := s.pending ++ due.map (fun e => .warmKeyTimeout (e.1 / 13 / 11) (e.1 / 13 % 11) (e.1 % 13)) }

/-- One microsecond of an idle block. -/
def tick (s : State) : Host.Outcome State Fault Refusal :=
  finish (if s.ticking then
      (((s.each (List.range 8) State.shtSettle).vigilTick.advanceTime.fireEarly).each (List.range 8) State.expireList).expireWarm
    else s)

/-- A window of cross-frame steals begins (R237). -/
def State.newWindow (s : State) (f : Nat) : State :=
  let x := s.frame f
  let s := s.setFrame f { x with budget := fld x.xsteal.toNat 0 16 }
  (s.dlRemove 7 (.xstealWindow f)).dlInsert 7 (s.now + max 1 (fld x.xsteal.toNat 16 16)) (.xstealWindow f)

end Sys2Proof.Machine
end

