-- ==== Sys2Proof/Machine/Reset.lean ====
section
/-! DEFINITION. The resets of Table 2.6, the life-cycle states as OTP records them (R422 to R427, R430), and the power-up
sequence t0 to t7 (Table 2.7). -/

namespace Sys2Proof.Machine

/-! ## Life-cycle states (Table 16.1) -/

/-- The five-state scheme is selected. -/
def Otp.five (o : Otp) : Bool := o.scheme = 0

/-- Codes of the ordinals of a scheme, from 0. -/
def lcCodes (five : Bool) : List Byte :=
  if five then [0x33, 0x55, 0x5A, 0x96, 0xC3] else [0x3C, 0x66, 0x69, 0x99]

/-- Code of an ordinal; 0 where the scheme has none. -/
def lcCode (five : Bool) (k : Nat) : Byte := ((lcCodes five)[k]?).getD 0

/-- Entry into an ordinal erases user secrets. -/
def lcErases (five : Bool) (k : Nat) : Bool := if five then decide (3 ≤ k) else decide (2 ≤ k)

/-- A transition from ordinal m to ordinal k is one of Table 16.1. -/
def lcReach (five : Bool) (m k : Nat) : Bool :=
  if five then decide (m < k ∧ k ≤ 4) && !(decide (m ≤ 1) && decide (k = 3)) else decide (m < k ∧ k ≤ 3)

/-- The paths a state opens (Table 16.2), as LCS_ACCESS reports them. -/
def lcAccess (code : Byte) : BitVec 12 :=
  match code.toNat with
  | 0x33 => 0x7FF
  | 0x55 => 0xDD8
  | 0x5A => 0x180
  | 0x96 => 0x3FD
  | 0x3C => 0x3BF
  | 0x66 => 0xDDD
  | 0x69 => 0x180
  | 0x99 => 0x3BD
  | _ => 0

/-- A nonzero subset of the 1 bits of a code. -/
def isPart (v code : Byte) : Bool := v ≠ 0 && v &&& ~~~code = 0

/-- What t1 reads from the life-cycle area (R427): the current ordinal and the pending one, or none for FAIL 0x01. -/
def Otp.sense (o : Otp) : Option (Nat × Option Nat) :=
  let five := o.five
  let ks := [1, 2, 3, 4]
  let fieldOk (v : Byte) (code : Byte) : Bool := v = 0 || isPart v code
  let rd (t : Tbl Byte) (k : Nat) : Byte := t.getD k 0
  let m := ks.foldl (fun a k => if rd o.done k = 0xA5 then k else a) 0
  let pend := ks.filter (fun k => decide (m < k) && rd o.intent k != 0)
  if !(o.scheme = 0 || o.scheme = 0xA5 || (isPart o.scheme 0xA5 && m = 0)) then none
  else if ks.any (fun k => !(fieldOk (rd o.intent k) (lcCode five k) && fieldOk (rd o.state k) (lcCode five k) &&
      fieldOk (rd o.done k) 0xA5)) then none
  else if ks.any (fun k => decide (k ≤ m) && rd o.state k != lcCode five k) then none
  else if 1 < pend.length then none
  else if ks.any (fun j => decide (m < j) && (rd o.state j != 0 || rd o.done j != 0) &&
      !ks.any (fun i => decide (j ≤ i) && rd o.intent i != 0)) then none
  else some (m, pend.head?)

/-- Which TOKEN fields are programmed, bit k − 1. -/
def Otp.tokenBits (o : Otp) : BitVec 4 :=
  [1, 2, 3, 4].foldl (fun (b : BitVec 4) k => setBit b (k - 1) ((o.token.getD k []).any (· ≠ 0))) 0

/-- Erasure of user secrets (R423): Table 5.12, RNG_PERS and the FREEZE latch. -/
def State.eraseUser (s : State) : State :=
  let s := s.eraseSecrets
  { s with
    rng := { s.rng with pers := [] }
    vigil := { s.vigil with freeze := false }
    glb := { s.glb with frozen := false } }

/-- A pending transition resumes at t1 (R430): intent completed, erasure run again, STATE bytes and DONE programmed. -/
def State.resumeTransition (s : State) (m k : Nat) : State :=
  let five := s.otp.five
  let between := (List.range 5).filter (fun j => decide (m < j) && decide (j ≤ k))
  let s := if between.any (lcErases five) then s.eraseUser else s
  { s with
    otp := { s.otp with
      intent := s.otp.intent.put 0 k (lcCode five k)
      state := between.foldl (fun t j => Tbl.put t 0 j (lcCode five j)) s.otp.state
      done := s.otp.done.put 0 k 0xA5 }
    glb := { s.glb with lcResumed := true }
    lcs := { s.lcs with resumed := true } }

/-- The LCS_ registers are loaded for the ordinal in force (R432). -/
def State.loadLcs (s : State) (m : Nat) : State :=
  let code := lcCode s.otp.five m
  { s with lcs := { s.lcs with
    state := code, scheme := s.otp.scheme, pending := 0, ordinal := m, access := lcAccess code, tokens := s.otp.tokenBits } }

/-- The highest `n` 1 bits of a byte (R426). -/
def topBits (n : Nat) (b : Byte) : Byte :=
  [7, 6, 5, 4, 3, 2, 1, 0].foldl (fun (v : Byte) k =>
    if b.getLsbD k && decide (popCount 8 v.toNat < n) then setBit v k true else v) 0

/-- The state of an OTP slot: 0 BLANK, 1 VALID, 2 SPOILED. -/
def OtpSlot.kind (x : OtpSlot) : Nat :=
  if x.valid = 0xA5 then 1 else if x.valid = 0 && x.data.all (· = 0) then 0 else 2

/-- Main power fails in the middle of a life-cycle transition: of the OTP byte that is due, a free number of its highest 1 bits
has been programmed, none and all of them included (R426, Table 16.5, log 85). -/
def State.cutLife (s : State) : State :=
  match s.lcs.run with
  | none => s
  | some r =>
    let five := s.otp.five
    let (n, s) := s.freeNum
    match r.at_ with
    | 1 => { s with otp := { s.otp with intent := s.otp.intent.put 0 r.target (topBits (n % 9) (lcCode five r.target)) } }
    | 3 =>
      match ([1, 2, 3, 4] : List Nat).find? (fun j =>
          decide (s.lcs.ordinal < j ∧ j ≤ r.target) && s.otp.state.getD j 0 ≠ lcCode five j) with
      | some j => { s with otp := { s.otp with state := s.otp.state.put 0 j (topBits (n % 9) (lcCode five j)) } }
      | none => s
    | 4 => { s with otp := { s.otp with done := s.otp.done.put 0 r.target (topBits (n % 9) 0xA5) } }
    | _ => s

/-- A slot that loses power while it is programmed with data: some of the data bits, or all of them and some of the bits of the
valid field (R49, R50, R270). -/
def State.cutSlot (s : State) (data : Bytes) : OtpSlot × State :=
  let (whole, s) := s.freeBit
  let (b, s) := s.freeBytes 33
  (if whole then { data := data, valid := b.headD 0 &&& 0xA5 } else { data := List.zipWith (· &&& ·) data (b.drop 1), valid := 0 }, s)

/-- Two slots of which the one in turn is programmed when power is lost: the first, or the second when the first is spoiled or
has just read back wrong. Each is programmed with the data for it. -/
def State.cutPair (s : State) (a b : OtpSlot) (dataA dataB : Bytes) : OtpSlot × OtpSlot × State :=
  let (bad, s) := s.freeBit
  let (x, s) := s.cutSlot dataA
  let (y, s) := s.cutSlot dataB
  if a.kind ≠ 0 then (a, if a.kind = 2 && b.kind = 0 then y else b, s)
  else if bad then ({ data := dataA, valid := 0xFF }, if b.kind = 0 then y else b, s)
  else (x, b, s)

/-- Core T draws 256 bits from its DRBG, and again if the value is all zeros or all ones: what drawing again ends with is a free value
among all the others (R49). -/
def State.drawDrs (s : State) : Bytes × State :=
  let (b, s) := s.drawT 32
  if b ≠ zeros 32 && b ≠ List.replicate 32 0xFF then (b, s)
  else
    let (n, s) := s.freeNum
    (leBytes 32 (1 + n % (2 ^ 256 - 2)), s)

/-- The device root secret, while GATHER generates it: at t9, which follows the end of start-up (R47, R49). -/
def State.cutDrs (s : State) : State :=
  if s.glb.phase = .gather && s.rng.state ≠ 0 && s.otp.drs0.kind ≠ 1 && s.otp.drs1.kind ≠ 1 then
    let (a, s) := s.drawDrs
    let (b, s) := s.drawDrs
    let (x, y, s) := s.cutPair s.otp.drs0 s.otp.drs1 a b
    { s with otp := { s.otp with drs0 := x, drs1 := y } }
  else s

/-- The integrator key, while an image that registers it is installed (R270). -/
def State.cutIkey (s : State) : State :=
  match s.jobs.find? (fun e => e.2.opcode = 0xF301 && e.2.stage = .firmware && e.2.phase = 3 && fld e.2.param 0 4 = 4) with
  | some e =>
    if s.otp.ikey0.kind ≠ 1 && s.otp.ikey1.kind ≠ 1 then
      let key := slice (e.2.input.getD []) 0x20 32
      let (x, y, s) := s.cutPair s.otp.ikey0 s.otp.ikey1 key key
      { s with otp := { s.otp with ikey0 := x, ikey1 := y } }
    else s
  | none => s

/-- What OTP was being programmed with when power is lost stays cut short. -/
def State.cutOtp (s : State) : State := s.cutLife.cutDrs.cutIkey

/-! ## OTP slots (R49, R50) -/

/-! ## Resets -/

/-- The replacement a reset interrupts (Table 5.11): at t5 KINDLE completes the flip; before it the shadow is wiped, and at t4 the
records of the spool decide once the primary is open; at t6 the new key stands. -/
def KeyObj.endRepl (k : KeyObj) : KeyObj :=
  match k.repl with
  | some r =>
    if r.step = 5 then (k.flipTo r).replDone
    else { k.replDone with commitDue := k.commitDue || r.step = 4 }
  | none => k

/-- A key object as the key table keeps it through a warm reset: its cached form, with the tree state of a stateful key, is
lost. -/
def KeyObj.warm (k : KeyObj) : KeyObj :=
  { k.endRepl with
    cached := false, inBuffer := false, macFn := 0, tree := none, reserved := 0, opened := false, resvTo := none }

/-- The key table as HBM keeps it through a warm reset. A rebuild that had not ended goes on once a primary is open (R488). -/
def Kst.warm (k : Kst) : Kst :=
  { keys := k.keys.each (fun _ x => x.warm), epoch := k.epoch, quarantine := k.quarantine, nextUid := k.nextUid
    claimed := k.claimed, clock := k.clock, frozenRecs := k.frozenRecs, rebuildDue := k.rebuildDue || k.rebuild || k.claimed ≠ [] }

/-- The key table after HBM has lost its contents: it will be rebuilt (R292). What the spool's records say stands. -/
def Kst.cold (k : Kst) : Kst := { rebuildDue := true, nextUid := k.nextUid, frozenRecs := k.frozenRecs }

/-- What a port keeps when the device is reset: the cartridge in it. -/
def Spl.kept (p : Spl) : Spl := { pres := p.pres, highZ := p.highZ }

/-- The device in reset: what no reset touches (OTP, vigil RAM, pins, the installed firmware, log 19), and the block's reset
values for the rest. -/
def State.blank (s : State) : State := { ({} : State) with
  pins := { s.pins with armed := false, alarm := false, tamperOut := false }
  host := { out := s.host.out }
  glb := { failCauses := s.glb.failCauses }
  otp := s.otp
  vigil := s.vigil
  tmp := { active := s.vigil.logged }
  mcs := { tfw := s.mcs.tfw, sfw := s.mcs.sfw, mTfw := s.mcs.mTfw, mSfw := s.mcs.mSfw, tfwNext := s.mcs.tfwNext }
  spl := { a := s.spl.a.kept, b := s.spl.b.kept }
  smb := { addr := s.smb.addr }
  tap := { ir := s.tap.ir }
  nextJob := s.nextJob
  admissions := s.admissions
  free := s.free
  pending := s.pending }

/-- A power-on reset: RWS registers, HBM and the key table are lost (Table 2.6), so that the table will be rebuilt (R292); the test
access port begins in its reset state, TRST_N being pulled low (Table 18.2). -/
def State.coldReset (s : State) : State := { s.blank with kst := s.kst.cold, tap := {} }

/-- A reset that keeps power: RWS registers, HBM contents and the key table are kept (Table 2.6). -/
def State.warmReset (s : State) (cause : BitVec 4) : State :=
  let b := s.blank
  let cold := s.hbm.lost
  { b with
    glb := { b.glb with nextCause := cause, tripped := s.glb.tripped }
    rng := { b.rng with pers := s.rng.pers }
    kst := if cold then s.kst.cold else s.kst.warm
    hbm := { b.hbm with lost := cold, selfRefresh := !cold }
    mcs := { b.mcs with hbmVendor := s.mcs.hbmVendor, hbmCust := s.mcs.hbmCust, mMcsc := s.mcs.mMcsc, mMcs := s.mcs.mMcs } }

/-- A device reset: the link stays up, and the PF keeps its BAR and Command register settings (R44); the register slots of the
digest engine come out of it in ERROR with ERR ABORTED (R421). -/
def State.deviceReset (s : State) (cause : BitVec 4) : State :=
  let t := s.warmReset cause
  { t with
    pins := { t.pins with armed := s.pins.armed || decide (1000 ≤ s.now) }
    dge := { t.dge with slots := (List.range 16).map (fun i => (48 + i, { state := 4, err := 6 })) }
    host := { t.host with
    width := s.host.width, speed := s.host.speed, flit := s.host.flit
    bar0 := s.host.bar0, bar2 := s.host.bar2, command := s.host.command } }

/-! ## KINDLE, t0 to t7 (Table 2.7) -/

/-- A step of the power-up sequence fails into HALTED. -/
def State.kindleFail (s : State) (code : Byte) : State :=
  { s with glb := { s.glb with fail := code, halted := true, haltCause := 3 } }

/-- A step begins; nothing runs once a step has failed. -/
def State.kindleStep (s : State) (n : BitVec 4) (f : State → State) : State :=
  if s.glb.halted then s else f { s with glb := { s.glb with step := n } }

/-- A step of the sequence fails by itself: it meets a failure now, or the cause of an earlier one is still there (R48). -/
def State.stepFails (s : State) (code : Byte) : Bool := s.glb.failCauses.contains code

/-- t0: reset is released; PTC_BOOT starts at 0. What fails from here on is what fails now and what failed before and has not
been mended (R48). -/
def State.kindleBegin (s : State) (env : KindleEnv) : State :=
  let fresh := s.glb.nextCause = 0 || s.glb.nextCause = 1
  let kept := s.glb.failCauses.filter (fun c => !env.removed.contains c)
  { s with
    pins := { s.pins with perst := false, pwrOk := true }
    host := if fresh then { s.host with
        width := BitVec.ofNat 8 env.width, speed := BitVec.ofNat 3 env.speed, flit := env.flit } else s.host
    glb := { ({} : Glb) with
      phase := .kindle, cause := s.glb.nextCause, osc := !s.pins.refclk, oscUsed := !s.pins.refclk
      failCauses := if env.fail = 0 || kept.contains env.fail then kept else kept ++ [env.fail] } }

/-- t0, with the first windows of cross-frame steals, which run from here (R237). -/
def State.kindleT0 (s : State) (env : KindleEnv) : State :=
  (s.kindleBegin env).each (List.range 4) State.newWindow

/-- t1: BOOTS, in vigil RAM too, before anything else; OTP; life-cycle state; DRS slots (R53, R427, R430, R50). Two spoiled
DRS slots fail every KINDLE with FAIL 0x02, whatever else OTP shows (R48). -/
def State.kindleT1 (s : State) : State :=
  let boots : W32 := if s.vigil.bootsOk then satInc s.vigil.boots else 1
  let s : State := { s with
    glb := { s.glb with boots := boots, vigilSeen := s.vigil.valid, lifeSeen := s.vigil.valid && s.vigil.lifeOk }
    vigil := { s.vigil with boots := boots, bootsOk := true, bootsProv := s.vigil.bootsProv || !s.vigil.bootsOk } }
  let spoiled := s.otp.drs0.kind = 2 && s.otp.drs1.kind = 2
  match s.otp.sense with
  | none => s.kindleFail (if spoiled then 2 else 1)
  | some (m, pend) =>
    let s : State := { s with otp := { s.otp with scheme := if s.otp.scheme = 0 then 0 else 0xA5 } }
    let s := match pend with
      | some k => (s.resumeTransition m k).loadLcs k
      | none => s.loadLcs m
    let s : State := if s.lcs.state = 0xC3 then
        { s.eraseSecrets with glb := { s.eraseSecrets.glb with zeroized := true, zeroizedThisBoot := true } }
      else s
    let a := s.otp.drs0.kind
    let b := s.otp.drs1.kind
    let s : State := { s with glb := { s.glb with drsSlot := a = 2 && b = 1, drsSlot0Spoiled := a = 2 } }
    if spoiled then s.kindleFail 2
    else if s.stepFails 1 || (a = 0 && b ≠ 0) then s.kindleFail 1
    else s

/-- t2: the vigil is read, and TMP_EVT loaded from it signals vector 0 (R41, R52, R436, R444, R445, R452); the cell's
voltage, at least 1.8 V, is free (Table 17.9, log 75). -/
def State.kindleT2 (s : State) (env : KindleEnv) : State :=
  let s := if s.pins.cell then s.vbatRead 1800 63736 else s.vbatRead 0 1
  let s : State := { s with
    pins := { s.pins with tamperOut := s.glb.zeroized }
    tmp := { s.tmp with loaded := true } }
  let s := s.dlInsert 7 1000000 .ptcLifeCheckpoint
  if s.glb.vigilSeen then
    let s := if s.vigil.alarms = 0 then s else s.signal 0 0
    (({ s with
      glb := { s.glb with
        frozen := s.vigil.freeze, zeroizedInVigil := s.vigil.zeroized, ptcLife := s.vigil.life, lifeSrc := 3 }
      tmp := { s.tmp with evt := s.vigil.alarms }
      vigil := { s.vigil with zeroized := false, alarms := 0, outTicks := none } } : State).tmpSettle).sourcesAtT2 env.active
  else
    let s : State := { s with
      glb := { s.glb with lifeSrc := 3 }
      vigil := { ({} : Vigil) with
        valid := true, boots := s.glb.boots, bootsOk := true, bootsProv := s.vigil.bootsProv, rootEpoch := s.vigil.rootEpoch } }
    let s := if s.fused 20 then s.tmpSettle else ({ (s.logRec 20 1 1 4 0 0) with
        tmp := { s.tmp with active := setBit s.tmp.active 20 (!s.pins.cell) } } : State).respond 1 [20]
    s.sourcesAtT2 (env.active.filter (fun e => e.source ≠ 20))

/-- The version field of an installed release: 3 in the major field (R103, log 5). -/
def releaseVersion (which : Nat) : W32 := (3 : BitVec 8) ++ Config.releaseMinor which

/-- t3: the trusted-firmware patch is authenticated, and a patch that waited takes effect. -/
def State.kindleT3 (s : State) : State :=
  if s.stepFails 3 then s.kindleFail 3
  else
    let v := match s.mcs.tfwNext with
      | some v => v
      | none => if s.mcs.tfw = 0 then releaseVersion 0 else s.mcs.tfw
    let same := s.mcs.tfwNext.isNone && s.mcs.mTfw ≠ []
    { s with mcs := { s.mcs with
      tfw := v, tfwNext := none, mTfw := if same then s.mcs.mTfw else algoBytes 0x10600 [leBytes 4 v.toNat] 32 } }

/-- t4: HBM is trained or leaves self-refresh. -/
def State.kindleT4 (s : State) : State :=
  if s.stepFails 4 then s.kindleFail 4
  else { s with hbm := { s.hbm with trained := true, selfRefresh := false } }

/-- t5: engine memories are wiped and verified. -/
def State.kindleT5 (s : State) : State :=
  if s.stepFails 5 then s.kindleFail 5 else s.wipeEngines.wipeCache.wipeCrixaG

/-- t6: the golden microcode is loaded from its HBM copy, or from ROM (R266); creels whose readback fails are held. -/
def State.kindleT6 (s : State) (env : KindleEnv) : State :=
  if s.stepFails 6 then s.kindleFail 6
  else
    let fromHbm := !s.hbm.lost && s.mcs.hbmVendor.isSome
    let ver := if fromHbm then s.mcs.hbmVendor.getD 0 else releaseVersion 2
    let cust := if fromHbm then s.mcs.hbmCust else none
    let held := ((List.range 44).filter (fun k => env.heldCreels.contains k))
    let s : State := { s with
      mcs := { s.mcs with
        ver := ver, cver := (cust.map (fun c => BitVec.ofNat 32 c.cver)).getD 0, cust := cust, goldenHbm := fromHbm
        hbmVendor := some ver, hbmCust := cust, loadHeld := held.length
        mMcs := if fromHbm then s.mcs.mMcs else algoBytes 0x10602 [leBytes 4 ver.toNat] 32
        mMcsc := if fromHbm then s.mcs.mMcsc else [] }
      hbm := { s.hbm with lost := false }
      glb := { s.glb with creelHeld := held ≠ [] } }
    s.each held (fun s k =>
      { s with creels := s.creels.put {} k { s.creels.getD k {} with heldLoad := true } })

/-- t7: service firmware is authenticated and started on G0 to G3. -/
def State.kindleT7 (s : State) : State :=
  if s.stepFails 7 then s.kindleFail 7
  else
    let v := if s.mcs.sfw = 0 then releaseVersion 1 else s.mcs.sfw
    let s : State := { s with mcs := { s.mcs with
      sfw := v, mSfw := if s.mcs.mSfw = [] then algoBytes 0x10601 [leBytes 4 v.toNat] 32 else s.mcs.mSfw } }
    s.each (List.range 5) (fun s n => s.setCore n { s.core n with run := true })

/-- t0 to t7 in order, and the start of gathering (t8). -/
def State.kindle (s : State) (env : KindleEnv) : State :=
  let s := s.kindleT0 env
  let s := s.kindleStep 1 State.kindleT1
  let s := s.kindleStep 2 (fun s => s.kindleT2 env)
  let s := s.kindleStep 3 State.kindleT3
  let s := s.kindleStep 4 State.kindleT4
  let s := s.kindleStep 5 State.kindleT5
  let s := s.kindleStep 6 (fun s => s.kindleT6 env)
  let s := s.kindleStep 7 State.kindleT7
  s.kindleStep 8 (fun s => { s with 
    glb := { s.glb with phase := .gather }, rng := { s.rng with startAt := s.now } })

end Sys2Proof.Machine
end

