-- ==== Sys2Proof/Machine/Life.lean ====
section
/-! DEFINITION. Life cycle and debug (chapter 16): the transition, the factory OTP port, the debug paths and what entering DEBUG
does (R39). -/

namespace Sys2Proof.Machine

/-! ## The transition (R428, R429) -/

/-- Ordinal of a state code in the device's scheme, from 1. -/
def State.lcTarget (s : State) (code : Byte) : Option Nat :=
  ([1, 2, 3, 4] : List Nat).find? (fun k => code ≠ 0 && lcCode s.otp.five k = code)

/-- The check of R428 that a transition fails, with its status. -/
def State.lcRefusal (s : State) (b : Bytes) : Option (Nat × Nat) :=
  if (slice b 1 7).any (· ≠ 0) then some (inputErr, 0x0B01)
  else if s.lcs.pending ≠ 0 then some (conflictErr, 0x0104)
  else
    match s.lcTarget (BitVec.ofNat 8 (leAt b 0 1)) with
    | none => some (conflictErr, 0x0104)
    | some k =>
      let stored := s.otp.token.getD k []
      if !lcReach s.otp.five s.lcs.ordinal k || stored.all (· = 0) then some (conflictErr, 0x0104)
      else if 8 ≤ s.lcs.fails.toNat then some (conflictErr, 0x0B01)
      else if shake256 (slice b 8 32) ≠ padTo 32 stored then some (integrityErr, 0x0103)
      else none

/-- t0: the token is verified, and the drain of t1 begins. -/
def State.lcToken (s : State) (job : Nat) (b : Bytes) : State :=
  match s.lcRefusal b with
  | some (m, d) =>
    let s : State := if m = integrityErr then { s with lcs := { s.lcs with fails := satInc s.lcs.fails } } else s
    s.doneErr job m d
  | none =>
    { s with
      lcs := { s.lcs with run := (s.lcTarget (BitVec.ofNat 8 (leAt b 0 1))).map (fun k => { job := job, target := k, at_ := 0 }) }
      glb := { s.glb with drainUnder := if s.glb.drain = .lifeCycle then s.glb.drainUnder else s.glb.drain, drain := .lifeCycle } }

/-- A readback mismatch from t4 on stops the sequence, and the device reset follows at once (R429). -/
def State.lcMismatch (s : State) : State := s.deviceReset 2

/-- The content an OTP byte that did not take its code is left with: some subset of the code's 1 bits, a free value. -/
def State.partOf (s : State) (code : Byte) : Byte × State :=
  let (bs, s) := s.freeBytes 1
  (code &&& (bs[0]?).getD 0, s)

/-- Steps t2 to t5 of Table 16.4. -/
def State.lcPhase (s : State) (r : LcRun) (phase : LcPhase) (readback : Bool) : State :=
  let five := s.otp.five
  let m := s.lcs.ordinal
  let code := lcCode five r.target
  let between := (List.range 5).filter (fun j => decide (m < j) && decide (j ≤ r.target))
  match phase with
  | .token => s
  | .intent =>
    if r.at_ = 1 then
      if readback then
        { s with
          otp := { s.otp with intent := s.otp.intent.put 0 r.target code }
          lcs := { s.lcs with pending := code, run := some { r with at_ := 2 } } }
      else
        ({ s with lcs := { s.lcs with run := none } } : State).endLifeDrain.doneErr r.job integrityErr 0x0B02
    else s
  | .erase =>
    if r.at_ = 2 then
      let s := if between.any (lcErases five) then s.eraseUser else s
      { s with lcs := { s.lcs with run := some { r with at_ := 3 } } }
    else s
  | .state =>
    if r.at_ = 3 then
      match between.find? (fun j => s.otp.state.getD j 0 ≠ lcCode five j) with
      | none => { s with lcs := { s.lcs with run := some { r with at_ := 4 } } }
      | some j =>
        if readback then
          { s with
            otp := { s.otp with state := s.otp.state.put 0 j (lcCode five j) }
            lcs := { s.lcs with run := some { r with at_ := if j = r.target then 4 else 3 } } }
        else
          let (v, s) := s.partOf (lcCode five j)
          ({ s with otp := { s.otp with state := s.otp.state.put 0 j v } } : State).lcMismatch
    else s
  | .done =>
    if r.at_ = 4 then
      if readback then
        ({ s with
          otp := { s.otp with done := s.otp.done.put 0 r.target 0xA5 }
          lcs := { s.lcs with pending := 0, run := none }
          glb := { s.glb with resetDue := true, resetJob := some r.job } } : State).done r.job []
      else
        let (v, s) := s.partOf 0xA5
        ({ s with otp := { s.otp with done := s.otp.done.put 0 r.target v } } : State).lcMismatch
    else s

/-- LC_TRANSITION (R429): one command a phase; `token` starts the sequence, which a change of mode by the hardware in its cycle
turns away (R35); the others take it on. -/
def execLcTransition (job : Nat) (phase : LcPhase) (readback : Bool) (s : State) (hwChange : Bool := false) : Host.Outcome State Fault Refusal :=
  finish (match s.cmdJob job 0xF604 with
    | none => s
    | some x =>
      match s.lcs.run with
      | some r => if r.job = job then s.lcPhase r phase readback else s
      | none => if phase = .token && s.glb.resetDue = false then s.unlessHw job hwChange x ((s.takeGate job).lcToken job x.block) else s)

/-! ## The factory OTP port (R422, R426) -/

/-- FACTORY_OTP_PROGRAM: in ordinal 0 with no transition recorded; a field is programmed once. -/
def execFactoryOtpProgram (field : OtpField) (s : State) : Host.Outcome State Fault Refusal :=
  finish (if s.pins.mainPower && s.lcs.state ≠ 0 && s.lcs.ordinal = 0 && s.lcs.pending = 0 && s.lcs.run.isNone then
      match field with
      | .scheme v => if s.otp.scheme = 0 then { s with otp := { s.otp with scheme := v } } else s
      | .token k d =>
        if 1 ≤ k ∧ k ≤ 4 ∧ (s.otp.token.getD k []).all (· = 0) then
          { s with otp := { s.otp with token := s.otp.token.put [] k (padTo 32 d) } }
        else s
    else s)

/-! ## Debug (R39, R424) -/

/-- A job in S4 or S5 when DEBUG is entered: aborted; a keyed job completes with KEY 0x0110, another returns to S3 (R39). -/
def State.debugAbort (s : State) (j : Nat) : State :=
  match s.job? j with
  | none => s
  | some x =>
    let s := ((s.unuse j).unreserve j).burn j
    if x.keyed then s.abortTo j keyErr 0x0110
    else
      let s := (s.undeal j).freeUnits j true
      s.modJob j (fun x => { x with
        stage := .s3, checked := false, fRetried := true, rnd := [], input := none, aux := none, place := none, thief := none,
        pinned := false, lines := 0, cycles := 0, result := [], winner := none, nextAttempt := 0, since := 0 })

/-- DEBUG is entered (R39, R421). A job dealt to a deque that takes a key ends as one in S4 does; a key-store command that firmware has
already taken up, and an APPLET call that still waits in the call queue, go on: the spec lists none of the three (log 128). -/
def State.enterDebug (s : State) : State :=
  let inUnits (x : Job) : Bool := match x.stage with | .s4 | .s5 | .ended => true | _ => false
  let s := s.each (s.jobsWhere inUnits) State.debugAbort
  let s := s.each (s.jobsWhere (fun x => match x.stage with | .deque _ _ => x.keyed | _ => false))
    (fun s j => s.abortTo j keyErr 0x0110)
  let calls := s.jobs.filterMap (fun e => match e.2.stage with | .applet _ => some e.1 | _ => none)
  let s := s.each calls (fun s j => (s.refuse j appletErr 0x0805 0).modJob j (fun x => { x with early := false }))
  let s := s.wipeEngines.wipeCache.wipeCrixaG.wipeDigests
  { s with glb := { s.glb with debug := true, debugThisBoot := true, root := false } }

/-- The access bit of a debug path (Table 16.9). -/
def debugBit : DebugPath → Nat
  | .jtag => 3
  | .crixaG => 4
  | .crixaT => 5

/-- Registers and cores can be reached: main power present, out of reset, the clocks run. -/
def State.awake (s : State) : Bool :=
  s.pins.mainPower && !s.pins.perst && !s.glb.tripped && s.glb.phase ≠ .held && s.glb.phase ≠ .vigil

/-- DEBUG_OPEN: an open path enters DEBUG; a closed one refuses the TAP instruction and the mode does not change (R424). -/
def execDebugOpen (path : DebugPath) (s : State) : Host.Outcome State Fault Refusal :=
  finish (if s.awake && s.lcs.access.getLsbD (debugBit path) then
      let s := if s.glb.debug then s else s.enterDebug
      match path with
      | .jtag => { s with tap := { s.tap with jtag := true } }
      | .crixaG => { s with tap := { s.tap with crxG := true } }
      | .crixaT => { s with tap := { s.tap with crxT := true } }
    else s)

/-- The access bit and the number of a factory test mode (Table 16.9). -/
def factoryNo : FactoryMode → Nat
  | .mbist => 1
  | .repair => 2
  | .rawSram => 3

/-- FACTORY_TEST_MODE: over JTAG, on a device in DEBUG, where the life-cycle state opens it (R424). -/
def execFactoryTestMode (mode : FactoryMode) (s : State) : Host.Outcome State Fault Refusal :=
  finish (if s.awake && s.glb.debug && s.lcs.access.getLsbD (factoryNo mode - 1) then
      { s with tap := { s.tap with factory := factoryNo mode } }
    else s)

end Sys2Proof.Machine
end

