-- ==== Sys2Proof/Machine/Spool.lean ====
section
/-! DEFINITION. The key spool (chapter 10): port states and roles, sessions, commits, presence, re-spooling, and the commands
SPOOL_STATUS to SPOOL_RESPOOL. The frames sent go to the port's `out` list; each reply of a cartridge is a command (log 10). -/

namespace Sys2Proof.Machine

/-! ## Parts -/

/-- Change a port. -/
def State.modPort (s : State) (p : Port) (f : Spl → Spl) : State := s.setPort p (f (s.port p))

/-- Both ports. -/
def bothPorts : List Port := [.a, .b]

/-- Apply an operation for each port of a list. -/
def State.eachPort (s : State) (l : List Port) (f : State → Port → State) : State := l.foldl f s

/-- Set an SPL_EVT bit of a port and signal the manager's vector 0 (R301). -/
def State.splEvt (s : State) (bit : Nat) : State :=
  ({ s with spl := { s.spl with evt := setBit s.spl.evt bit true } } : State).signal 0 0

/-- A port event: 0 insert, 1 remove, 2 warn, 3 read-only, 4 failed. -/
def State.portEvt (s : State) (p : Port) (bit : Nat) : State := s.splEvt (bit + 8 * portNo p)

/-- Send the frame of a request (R293). -/
def State.emitSpl (s : State) (p : Port) (o : SplOut) : State :=
  s.modPort p (fun x => { x with out := x.out ++ [o], frames := x.frames ++ [s.frameOfReq x o], seq := x.seq + 1 })

/-- Send a frame and wait for its response. -/
def State.sendSpl (s : State) (p : Port) (o : SplOut) : State := (s.emitSpl p o).modPort p (fun x => { x with flight := some o })

/-- Remaining life in 0.01 % (R295). -/
def splLife (used : Nat) : Nat := (40000000 - used) / 4000
/-- LIFE of a port: 0 while no cartridge has been read (Table 10.13). -/
def Spl.lifeField (x : Spl) : Nat := if x.state ≤ 1 then 0 else splLife x.used

/-- Take over usage figures, with the WARN and RO events (R295). -/
def State.splUsage (s : State) (p : Port) (used : Nat) (ro : Bool) : State :=
  let x := s.port p
  let warn := decide (38000000 ≤ used)
  let ro := ro || decide (40000000 ≤ used)
  let s := s.setPort p { x with used := used, warn := warn, ro := ro }
  let s := if warn && !x.warn then s.portEvt p 2 else s
  if ro && !x.ro then s.portEvt p 3 else s

/-- A job that waits on the spool ends with a SPOOL status: a command, or a job at S3. -/
def State.splJobFail (s : State) (j detail : Nat) : State :=
  match s.job? j with
  | none => s
  | some x =>
    match x.stage with
    | .firmware => s.doneErr j spoolErr detail
    | .waiting _ => s.refuse j spoolErr detail 0
    | _ => s

/-! ## Works and commits (R291) -/

/-- The ROLE record of a re-spooling's switch goes in its own commit (Table 10.9 t3). -/
def SplWork.alone : SplWork → Bool
  | .primary _ => true
  | _ => false

/-- The records written are committed before the next is written: 256 of them, or a record that goes alone (R291). -/
def commitsNow (ws : List SplWork) (next : SplWork) : Bool :=
  ws ≠ [] && (decide (256 ≤ ws.length) || next.alone || ws.any SplWork.alone)

/-- Issue the next frame of a port: an exchange that waits, a record write, whose IV waits while instance T cannot serve (R399), the
commit of what is written, or the close of a closing port. -/
def State.splKick (s : State) (p : Port) : State :=
  let x := s.port p
  if x.flight.isSome || !x.session then s
  else
    match x.wants, x.staged with
    | o :: rest, _ => (s.setPort p { x with wants := rest }).sendSpl p o
    | [], w :: rest =>
      if commitsNow x.inCommit w then s.sendSpl p (.commit x.inCommit)
      else if !s.serves 4 then s
      else ((s.setPort p { x with staged := rest }).writeRecord p w).sendSpl p (.write w)
    | [], [] =>
      if x.inCommit ≠ [] then s.sendSpl p (.commit x.inCommit)
      else if x.state = 7 then s.sendSpl p .close
      else s

/-- An exchange is asked for: it begins once the link is free (R293). -/
def State.askSpl (s : State) (p : Port) (o : SplOut) : State :=
  if (s.port p).wants.contains o || (s.port p).flight = some o then s
  else (s.modPort p (fun x => { x with wants := x.wants ++ [o] })).splKick p

/-- Stage works on a port without delay; they take the coalesced records with them. -/
def State.stageAt (s : State) (p : Port) (ws : List SplWork) : State :=
  let x := s.port p
  (((s.setPort p { x with staged := x.staged ++ ws ++ x.coalesce, coalesce := [] }).dlRemove 5
    (.spoolCoalesceExpiry p)).splKick p)

/-- A port that takes device records: open, writable, not STALE (R296). -/
def Spl.takesDevice (x : Spl) : Bool := x.state = 6 && !x.ro && x.role ≠ 4

/-- A port that takes key records: the primary, or both spools of a re-spooling (Table 10.9 t0). -/
def Spl.takesKeys (x : Spl) : Bool := x.state = 6 && (x.role = 2 || ((x.role = 1 || x.role = 3) && !x.ro))

/-- The open port that holds the key records: the PRIMARY; of a re-spooling, the spool that vigil RAM names, or else its source (R285,
R298). -/
def State.primaryPort (s : State) : Option Port :=
  let open_ (p : Port) (r : Nat) : Bool := (s.port p).state = 6 && (s.port p).role = r
  (bothPorts.find? (fun p => open_ p 1)).or
    ((bothPorts.find? (fun p => (open_ p 2 || open_ p 3) && s.vigil.primSerial = some (s.port p).serial)).or
      (bothPorts.find? (fun p => open_ p 3)))

/-- A primary is open. -/
def State.primaryOpen (s : State) : Bool := s.primaryPort.isSome

/-- A primary is open, and some spool takes its new records. -/
def State.primaryWritable (s : State) : Bool := s.primaryOpen && bothPorts.any (fun p => (s.port p).takesKeys)

/-- A record number that no spool which takes key records has used (R289). -/
def State.newRecno (s : State) : Nat × State :=
  let n := max s.spl.a.nextRec s.spl.b.nextRec
  (n, s.eachPort (bothPorts.filter (fun p => (s.port p).takesKeys)) (fun s p => s.modPort p (fun x => { x with nextRec := n + 1 })))

/-- Put a device record on a port's delay list entry for the coalescing time. -/
def State.coalesceAt (s : State) (p : Port) (w : SplWork) : State :=
  let x := s.port p
  let c := fld s.spl.cfg.toNat 16 16
  if c = 0 then s.stageAt p [w]
  else if x.coalesce.contains w then s
  else
    let s := s.setPort p { x with coalesce := x.coalesce ++ [w] }
    if x.coalesce = [] then s.dlInsert 5 (s.now + c) (.spoolCoalesceExpiry p) else s

/-- Write device records to every spool that takes them. -/
def State.deviceRecord (s : State) (w : SplWork) : State :=
  s.eachPort (bothPorts.filter (fun p => (s.port p).takesDevice)) (fun s p => s.coalesceAt p w)

/-- GLB_TIME_STS.SPOOL_CKPT_OFF: since t11 no spool takes checkpoints (R42, R296). -/
def State.ckptOff (s : State) : Bool := decide (11 ≤ s.glb.step) && !bothPorts.any (fun p => (s.port p).takesDevice)

/-- Every work a port holds. -/
def Spl.works (x : Spl) : List SplWork :=
  x.staged ++ x.inCommit ++ (match x.flight with | some (.write w) => [w] | _ => [])

/-- A work is still to be acknowledged by some spool. -/
def State.workPending (s : State) (w : SplWork) : Bool := bothPorts.any (fun p => (s.port p).works.contains w)

/-- A restore is complete: the generation advances, the RESTORED notice is posted, and its command ends (R326). -/
def State.restored (s : State) (j : Nat) (x : Job) : State :=
  let f := fld x.param 0 10
  ((s.advanceGen f ((s.strand f).gen + 1)).notice (fld x.param 0 10) 8 (x.note % 2 ^ 24) (x.note / 2 ^ 24)).done j []

/-- A restore that fails leaves the destination DISABLED with no key and no ring (R325). -/
def State.undoRestore (s : State) (f : Nat) : State :=
  let s := s.each ((s.rings.filter (fun e => e.1 / 256 = f)).map (fun e => e.1 % 256)) (fun s r => s.removeRing f r)
  let s := s.setPage f { s.page f with admBase := 0, admCfg := 0 }
  let s := s.setStrand f { s.strand f with state := .disabled }
  { s with kst := { s.kst with keys := s.kst.keys.keep (fun i _ => i / 262144 != f) } }

/-- The ports whose checkpoint POWER_DOWN_PREP counts: those it staged on that took both records and are still open (R109). -/
def State.ckptPorts (s : State) (x : Job) : Nat :=
  b2n (bitOf x.note 0 && s.spl.a.state = 6) + 2 * b2n (bitOf x.note 1 && s.spl.b.state = 6)

/-- POWER_DOWN_PREP completes once its checkpoint and mirror are durable (R109). -/
def State.powerDownEnd (s : State) : State :=
  match s.jobs.find? (fun e => e.2.stage = .firmware && e.2.opcode = 0xF203 && e.2.phase = 2) with
  | some (j, x) =>
    if s.workPending .ckpt || s.workPending .boots then s
    else s.done j (leBytes 4 s.glb.ptcLife.toNat ++ leBytes 4 s.glb.boots.toNat ++ leBytes 8 (s.ckptPorts x))
  | none => s

/-- A checkpoint or mirror that a port refused does not count for a POWER_DOWN_PREP that waits for it (R109). -/
def State.ckptRefused (s : State) (p : Port) : State :=
  s.each (s.jobsWhere (fun x => x.stage = .firmware && x.opcode = 0xF203 && x.phase = 2))
    (fun s j => s.modJob j (fun x => { x with note := setFld x.note (portNo p) 1 0 }))

/-- A re-spooling ends without its completion (R299): the spool vigil RAM names is PRIMARY again, the
other STALE, with nothing more copied to it (log 141); the primary's role record follows. -/
def State.respoolAbort (s : State) (detail : Nat) : State :=
  match s.spl.respool with
  | none => s
  | some r =>
    let s : State := { s with spl := { s.spl with respool := none } }
    let s := s.eachPort bothPorts (fun s p =>
      s.modPort p (fun x =>
        if x.state ≠ 6 then x
        else if s.vigil.primSerial = some x.serial then { x with role := 1 }
        else if x.role = 2 || x.role = 3 then { x with role := 4 }
        else x))
    let s := s.eachPort (bothPorts.filter (fun p => (s.port p).takesKeys)) (fun s p => s.coalesceAt p .role)
    (s.doneErr r.job spoolErr detail).splEvt 17

/-- A work's commit on a port failed: what waits on it ends with a SPOOL status. -/
def State.workFail (s : State) (p : Port) (detail : Nat) (w : SplWork) : State :=
  match w with
  | .index slot ceil =>
    match s.key? slot with
    | some k =>
      if k.resvTo = some ceil then
        let s := s.setKey slot { k with resvTo := none }
        s.each (s.jobsWhere (fun x => x.stage = .waiting .index && keySlot (handleOwner x.handle) (handleIndex x.handle) = slot))
          (fun s j => s.splJobFail j detail)
      else s
    | none => s
  | .key slot job =>
    let s : State := { s with kst := { s.kst with keys := s.kst.keys.erase slot } }
    s.splJobFail job detail
  | .commitRec slot job | .shadowRec slot job =>
    let s := match s.key? slot with
      | some k =>
        match k.repl with
        | some r => (s.setKey slot k.replDone).wipeTwin slot k r
        | none => s
      | none => s
    s.splJobFail job detail
  | .tomb slot job _ _ =>
    ({ s with kst := { s.kst with tombs := s.kst.tombs.filter (fun t => t ≠ (slot, job)) } } : State).splJobFail job detail
  | .restKey _ job | .restIndex _ job =>
    match s.job? job with
    | some x => if x.stage = .firmware then (s.undoRestore (fld x.param 0 10)).splJobFail job detail else s
    | none => s
  | .ckpt | .boots => s.ckptRefused p
  | .primary _ | .copy _ _ => s.respoolAbort detail
  | .role => s

/-- Commit works without delay on every spool that takes key records; where there is none any more, they fail as R296 gives. -/
def State.commitWorks (s : State) (ws : List SplWork) : State :=
  let ps := bothPorts.filter (fun p => (s.port p).takesKeys)
  if ps = [] then ws.foldl (fun s w => s.workFail .a (if s.primaryOpen then 0x0142 else 0x0141) w) s
  else s.eachPort ps (fun s p => s.stageAt p ws)

/-- A record of a restored key is durable; with the last of them the restore is complete (R326). -/
def State.restDone (s : State) (job : Nat) : State :=
  let mine (w : SplWork) : Bool := match w with | .restKey _ j | .restIndex _ j => j = job | _ => false
  if bothPorts.any (fun p => (s.port p).works.any mine) then s
  else
    match s.job? job with
    | some x => if x.stage = .firmware then s.restored job x else s
    | none => s

/-- A work is durable. -/
def State.workDone (s : State) (w : SplWork) : State :=
  match w with
  | .index slot ceil =>
    match s.key? slot with
    | some k => if k.resvTo = some ceil then s.setKey slot { k with ceil := ceil, resvTo := none } else s
    | none => s
  | .key slot job =>
    let s := match s.key? slot with | some k => s.setKey slot { k with recOk := true } | none => s
    match s.job? job with
    | some x => if x.stage = .firmware then s.done job x.result else s
    | none => s
  | .restKey slot job =>
    (match s.key? slot with | some k => s.setKey slot { k with recOk := true } | none => s).restDone job
  | .restIndex _ job => s.restDone job
  | .shadowRec slot job =>
    match s.key? slot with
    | some k =>
      match k.repl with
      | some r => if r.job = job && r.step = 4 then s.commitWorks [.commitRec slot job] else s
      | none => s
    | none => s
  | .commitRec slot job =>
    match s.key? slot with
    | some k =>
      match k.repl with
      | some r => if r.job = job && r.step = 4 then s.setKey slot { k with repl := some { r with step := 5 } } else s
      | none => s
    | none => s
  | .tomb slot job _ _ =>
    let s : State := { s with kst := { s.kst with tombs := s.kst.tombs.filter (fun t => t ≠ (slot, job)) } }
    if s.kst.tombs.any (fun t => t.2 = job) then s else s.done job []
  | .ckpt | .boots | .role | .primary _ | .copy _ _ => s

/-- The record numbers of the reads that a port holds. -/
def Spl.reads (x : Spl) : List Nat :=
  (x.wants ++ x.flight.toList).filterMap (fun o => match o with | .read n => some n | _ => none)

/-- A job waits for the material of a key: a job at S3, a command for the key-encryption key that it names, or the save of the key's
strand (R107, R129). -/
def Job.awaits (x : Job) (slot uid : Nat) : Bool :=
  (x.stage = .waiting .spoolKey && x.holds uid) ||
    (x.stage = .firmware && x.phase = 1 &&
      (([0x5004, 0x5007, 0xF107, 0xF108].contains x.opcode &&
          [x.handle, x.param].any (fun h => keySlot (handleOwner h) (handleIndex h) = slot)) ||
        (x.opcode = 0xF107 && fld x.param 0 10 = slot / 262144)))

/-- A job that waits for a key's material ends with a status. -/
def State.awaitFail (s : State) (j major detail : Nat) : State :=
  match s.job? j with
  | some x => if x.stage = .firmware then s.doneErr j major detail else s.refuse j major detail 0
  | none => s

/-- Every job that waits for a key's material ends with a status. -/
def State.awaitersFail (s : State) (slot uid major detail : Nat) : State :=
  s.each (s.jobsWhere (fun x => x.awaits slot uid)) (fun s j => s.awaitFail j major detail)

/-- A read of a key's record fails with its port: what waits for it ends with SPOOL (Table 10.15). -/
def State.readFail (s : State) (n detail : Nat) : State :=
  match s.keyOfRec n with
  | some (slot, k) =>
    let s := s.awaitersFail slot k.uid spoolErr detail
    match k.repl with
    | some r => if r.step = 1 then (s.setKey slot k.replDone).splJobFail r.job detail else s
    | none => s
  | none => s

/-- A port that held a work has gone: the work is done where the other spool of a re-spooling, still the primary, has acknowledged it,
and fails where nothing holds it any more (R297 to R299). -/
def State.workLost (s : State) (p : Port) (detail : Nat) (w : SplWork) : State :=
  let q := s.port (otherPort p)
  if s.workPending w then s
  else if decide (w.kind < 0x10) && !(match w with | .copy _ _ => true | _ => false) && q.state = 6 && q.takesKeys &&
      s.vigil.primSerial = some q.serial then s.workDone w
  else s.workFail p detail w

/-- A port loses its session and everything in flight; jobs that waited on its commits or reads end with SPOOL. -/
def State.splLose (s : State) (p : Port) (detail : Nat) : State :=
  let x := s.port p
  let s := (s.setPort p { x with
    session := false, keys := [], nonce := [], rnd := [], h3 := [], finish := [], shake := 0, commitBytes := 0, pairing := false, flight := none, wants := []
    staged := [], inCommit := [], coalesce := [], role := 0, errors := 0, job := none }).dlRemove 5 (.spoolCoalesceExpiry p)
  let s := (x.works.foldl (fun s w => s.workLost p detail w) s).powerDownEnd
  let s := x.reads.foldl (fun s n => s.readFail n detail) s
  match x.job with
  | some j => s.splJobFail j detail
  | none => s

/-- A port enters FAILED (R288, R293). -/
def State.splFailed (s : State) (p : Port) (detail : Nat) : State :=
  let s := s.splLose p detail
  let s := (s.modPort p (fun x => { x with state := 8 })).portEvt p 4
  s.respoolAbort detail

/-- HELLO with a fresh nonce (Table 10.3 t0); the further random values of the handshake are drawn with it (log 152). While instance T
cannot serve, the handshake waits (R399). -/
def State.sayHello (s : State) (p : Port) : State :=
  let s := s.modPort p (fun x => { x with
    shake := 1, seq := 0, rseq := 0, nonce := [], rnd := [], keys := [], h3 := [], finish := [], flight := none })
  if !s.serves 4 then s
  else
    let (n, s) := s.drawT 96
    (s.modPort p (fun x => { x with nonce := n.take 32, rnd := n.drop 32 })).sendSpl p .hello

/-- Count a link error, saturating in the port's half of SPL_CNT_ERR. -/
def State.splCount (s : State) (p : Port) : State :=
  let c := s.spl.cntErr.toNat
  let lo := 16 * portNo p
  { s with spl := { s.spl with cntErr := BitVec.ofNat 32 (setFld c lo 16 (min (fld c lo 16 + 1) 0xFFFF)) } }

/-- Requests of trusted firmware on instance T that could not be served are made now: the nonce of a handshake, the IV of a record
(R290, R399). -/
def State.wakeT (s : State) : State :=
  if !s.serves 4 then s
  else s.eachPort bothPorts (fun s p =>
    if (s.port p).shake = 1 && (s.port p).flight.isNone then s.sayHello p else s.splKick p)

/-- A link error: the exchange is repeated, a handshake from its start, and the fourth in a row fails the port (R293). -/
def State.linkError (s : State) (p : Port) : State :=
  let s := s.splCount p
  let x := s.port p
  if 3 ≤ x.errors then s.splFailed p 0x0701
  else
    let s := s.setPort p { x with errors := x.errors + 1 }
    if x.shake = 1 || x.shake = 2 then s.sayHello p
    else
      match x.flight with
      | some o => s.emitSpl p o
      | none => s

/-- A response has come: the exchange ends and its count of errors with it, and the SEQ of the next response follows its own (R293). -/
def State.splAnswered (s : State) (p : Port) (frame : Option Bytes := none) : State :=
  s.modPort p (fun x => { x with
    flight := none, errors := 0, rseq := (match frame with | some b => leAt b 8 8 | none => x.rseq) + 1 })

/-- A response to the exchange in flight: a frame that does not hold is a link error; otherwise the exchange ends, and `go` follows. -/
def State.onFrame (s : State) (p : Port) (o : SplOut) (frame : Option Bytes) (go : State → State) : State :=
  if (s.port p).frameHolds o.cmd frame then go (s.splAnswered p frame) else s.linkError p

/-! ## Sessions and roles (R285 to R288) -/

/-- The handshake starts (Table 10.3 t0). -/
def State.startShake (s : State) (p : Port) (pairing : Bool) (job : Option Nat) : State :=
  (s.modPort p (fun x => { x with pairing := pairing, job := job })).sayHello p

/-- A replacement that a warm reset interrupted in t4 is settled by the spool's COMMIT records (R143, Table 5.11): with one, the
key is rebuilt from the record it names, as after a power-on reset; without one, the old key stands. -/
def State.settleCommits (s : State) (slots : List Nat) : State :=
  let new (i : Nat) (k : KeyObj) : Bool := k.commitDue && slots.contains i
  let hit := s.kst.keys.keep new
  { s with kst := { s.kst with
    keys := (s.kst.keys.keep (fun i k => !new i k)).each (fun _ k => { k with commitDue := false })
    claimed := hit.foldl (fun t e => Tbl.insert t e.1 (s.kst.epoch.getD e.1 0)) s.kst.claimed
    rebuild := s.kst.rebuild || hit ≠ [] } }

/-- An INDEX record of the spool reserves indices beyond a key's CEIL: its commit landed though the port was lost. From its CEIL on
the key signs, and what lies below is burned at the next use (R148, R297, log 141). -/
def State.raiseCeils (s : State) (l : List (Nat × Nat × Nat)) : State :=
  l.foldl (fun (s : State) r =>
    match s.key? (keySlot r.1 r.2.1) with
    | some k => if k.ceil < r.2.2 then s.setKey (keySlot r.1 r.2.1) { k with ceil := r.2.2, resvTo := none, opened := false } else s
    | none => s) s

/-- A port becomes PRIMARY, vigil RAM takes it over, and a rebuild that is due begins (R285, R292). -/
def State.becomePrimary (s : State) (p : Port) (rep : SpoolReport) : State :=
  let s := s.modPort p (fun x => { x with role := 1 })
  let s : State := { s with vigil := { s.vigil with
    primSerial := some rep.serial, primSwSeq := rep.swSeq, primCommit := rep.commitNo } }
  let s := if rep.roleRec = 1 then s else s.coalesceAt p .role
  let s := (s.settleCommits (rep.commits.map (fun c => keySlot c.1 c.2))).raiseCeils rep.indexes
  if s.kst.rebuildDue then
    { s with kst := { s.kst with
      rebuildDue := false, rebuild := true
      claimed := (rep.claims.filter (fun c => (s.key? (keySlot c.1 c.2.1)).isNone)).foldl
        (fun t c => Tbl.insert t (keySlot c.1 c.2.1) (BitVec.ofNat 4 c.2.2)) s.kst.claimed } }
  else s

/-- The command that waits for a session ends. -/
def State.splJobDone (s : State) (p : Port) : State :=
  match (s.port p).job with
  | some j => (s.modPort p (fun x => { x with job := none })).done j []
  | none => s

/-- A session is established: the port is OPEN and takes its role (R285), or FAILED on a rollback (R288). A role record that says
COPY_SOURCE is that of a primary whose re-spooling was interrupted (Table 10.2, R299). -/
def State.splOpened (s : State) (p : Port) (rep : SpoolReport) : State :=
  let s := s.modPort p (fun x => { x with
    state := 6, role := 0, mine := true, session := true, shake := 0, pairing := false, flight := none, errors := 0, serial := rep.serial
    nextRec := rep.live.foldl (fun n c => max n (c.recno % 2 ^ 56 + 1)) x.nextRec
    vers := rep.live.foldl (fun t c => t.put 0 c.recno (max (t.getD c.recno 0) c.version)) []
    commitNo := rep.commitNo, swSeq := rep.swSeq, freeMib := rep.freeMib, records := rep.records, ckpt := rep.life
    mirror := rep.boots, rb := false })
  let s := s.splUsage p rep.used rep.readOnly
  let q := s.port (otherPort p)
  if rep.roleRec = 1 || rep.roleRec = 3 then
    match s.vigil.primSerial with
    | some sn =>
      if sn = rep.serial && s.vigil.primSwSeq = rep.swSeq then
        if rep.commitNo < s.vigil.primCommit then
          (s.splFailed p 0x0705).modPort p (fun x => { x with rb := true })
        else (s.becomePrimary p rep).splJobDone p
      else (s.modPort p (fun x => { x with role := 4 })).splJobDone p
    | none =>
      if q.state = 6 && q.role = 1 && decide (rep.swSeq ≤ q.swSeq) then
        (s.modPort p (fun x => { x with role := 4 })).splJobDone p
      else
        let s := if q.state = 6 && q.role = 1 then s.modPort (otherPort p) (fun x => { x with role := 4 }) else s
        (s.becomePrimary p rep).splJobDone p
  else if rep.roleRec = 2 then (s.modPort p (fun x => { x with role := 4 })).splJobDone p
  else s.splJobDone p

/-- A cartridge has been paired: it is PRIMARY with SW_SEQ 1 where nothing names a primary, otherwise STANDBY (R285). -/
def State.splPaired (s : State) (p : Port) (rep : SpoolReport) : State :=
  let none_ := s.vigil.primSerial.isNone && !s.primaryOpen
  let s := s.splOpened p { rep with roleRec := 0 }
  let s := if none_ then
      (s.modPort p (fun x => { x with swSeq := 1 })).becomePrimary p { rep with swSeq := 1, roleRec := 1 }
    else s
  s.coalesceAt p .role

/-! ## Presence (R283, R297, R470) -/

/-- A link is powered and its port can work. -/
def State.splUp (s : State) : Bool := s.awake && (s.glb.phase = .gather || s.glb.phase = .running)

/-- SPOOL_PRES_EDGE: a raw high turns the outputs off; a frame in flight during the pulse is a link error. A low one says that PRES_N
has read low for 10 µs, and the outputs return (R470, log 152). -/
def execSpoolPresEdge (port : Port) (high : Bool) (s : State) : Host.Outcome State Fault Refusal :=
  finish (if s.pins.mainPower then
      let s := s.modPort port (fun x => { x with highZ := high })
      if high && (s.port port).flight.isSome then s.linkError port else s
    else s)

/-- SPOOL_INSERT: the debounced presence of a cartridge; the port begins probing. -/
def execSpoolInsert (port : Port) (s : State) : Host.Outcome State Fault Refusal :=
  finish (let s := s.modPort port (fun x => { x with pres := true })
    if s.splUp && (s.port port).state = 0 then
      (s.modPort port (fun x => { x with state := 1 })).portEvt port 0
    else s)

/-- SPOOL_REMOVE: session keys wiped, the port EMPTY, the commit in flight failed, a re-spooling aborted (R297, R299). -/
def execSpoolRemove (port : Port) (s : State) : Host.Outcome State Fault Refusal :=
  finish (if (s.port port).state = 0 then s.modPort port (fun x => { x with pres := false })
    else
      let s := (s.respoolAbort 0x0704).splLose port 0x0701
      (s.modPort port (fun x => { out := x.out, frames := x.frames, nextRec := x.nextRec, written := x.written })).portEvt port 1)

/-- SPOOL_PROBE_RESULT: the probe ends in UNPAIRED, FOREIGN, INVALID or CLOSED; a closed cartridge opens where AUTO_OPEN or the
command that probed asks for it. -/
def execSpoolProbeResult (port : Port) (report : SpoolReport) (s : State) : Host.Outcome State Fault Refusal :=
  finish (if s.splUp && (s.port port).state = 1 && decide (2 ≤ report.outcome ∧ report.outcome ≤ 5) then
      let job := (s.port port).job
      let s := s.modPort port (fun x => { x with state := report.outcome, serial := report.serial, mine := report.outcome = 5 })
      if report.outcome = 5 then
        if bitOf s.spl.cfg.toNat 0 || job.isSome then s.startShake port false job else s
      else
        match job with
        | some j => (s.modPort port (fun x => { x with job := none })).doneErr j spoolErr 0x0102
        | none => s
    else s)

/-! ## Responses of a cartridge (Table 10.7) -/

/-- The values of the handshake once the spool's reply is there: `payload` is the t1 payload before the signature, which ends with
the ephemeral encapsulation key and ct2 (R286). -/
def State.sessionKeys (s : State) (p : Port) (payload signature : Bytes) : State :=
  let r := (s.port p).rnd
  let n := payload.length
  let enc := mlkemEncaps (slice payload (n - 2272) 1184) (r.take 32)
  let k2 := mlkemShared 0x11 (seedForm 0x11 s.idKemSeed) (payload.drop (n - 1088))
  let h1 := sha3 (s.splPayload (s.port p) .hello ++ payload)
  let h2 := sha3 (h1 ++ signature ++ enc.take 1088)
  let sig := signSeed (ascii "AKN-SPOOL-D") s.idSeed h2 (r.drop 32)
  let h3 := sha3 (h2 ++ sig)
  s.modPort p (fun x => { x with keys := kmac 0x20 (enc.drop 1088 ++ k2) h3 96, h3 := h3, finish := enc.take 1088 ++ sig, rnd := [] })

/-- The spool certificate chain of a t1 payload holds against the root of the spool authority in ROM, and the signature over H1 under
its key: both as the operands say, and where the payload is written out, by the checks of R286 (log 150). -/
def State.shakeOk (s : State) (p : Port) (genuine signatureOk : Bool) (payload signature : Bytes) : Bool × Bool :=
  if payload = [] then (genuine, signatureOk)
  else
    let chain := slice payload 48 (payload.length - 48 - 2272)
    let h1 := sha3 (s.splPayload (s.port p) .hello ++ payload)
    (genuine && Config.accepts 0x10A10 [chain],
      signatureOk && verifies (ascii "AKN-SPOOL-S") (algoBytes 0x10A11 [chain] 1952) h1 signature)

/-- HELLO: the reply of Table 10.3 t1. A chain that fails is INVALID; a signature that fails is a link error (R286). -/
def execHello (port : Port) (genuine signatureOk : Bool) (s : State) (payload signature : Bytes := [])
    (frame : Option Bytes := none) : Host.Outcome State Fault Refusal :=
  finish (if (s.port port).flight = some .hello && (s.port port).shake = 1 then
      let ok := s.shakeOk port genuine signatureOk payload signature
      if !(s.port port).frameHolds 1 frame then s.linkError port
      else if !ok.1 then
        let job := (s.port port).job
        let s := s.modPort port (fun x => { x with
          state := 4, mine := false, shake := 0, flight := none, job := none, pairing := false })
        match job with
        | some j => s.doneErr j spoolErr 0x0102
        | none => s
      else if !ok.2 then s.linkError port
      else (((s.splAnswered port frame).sessionKeys port payload signature).modPort port (fun x => { x with shake := 2 })).sendSpl
        port .finish
    else s)

/-- The t3 tag: KMAC256 of H3 under the confirmation key KC (R286). -/
def Spl.confirmTag (x : Spl) : Bytes := kmac 0x21 (x.keys.drop 64) x.h3 32

/-- FINISH: key confirmation (Table 10.3 t3). A tag that fails is a link error; otherwise KC is wiped and the session stands. The
`report` is what the device then reads: STATUS, LIST and the device records (log 150). -/
def execFinish (port : Port) (tagOk : Bool) (report : SpoolReport) (s : State) (tag : Bytes := []) (frame : Option Bytes := none) :
    Host.Outcome State Fault Refusal :=
  finish (if (s.port port).flight = some .finish && (s.port port).shake = 2 then
      let x := s.port port
      if !(x.frameHolds 2 frame && tagOk && (tag = [] || tag == x.confirmTag)) then s.linkError port
      else
        let s := (s.splAnswered port frame).modPort port (fun x => { x with keys := x.keys.take 64, h3 := [], finish := [] })
        if (s.port port).pairing then (s.modPort port (fun x => { x with session := true, shake := 3 })).sendSpl port .pair
        else s.splOpened port report
    else s)

/-- PAIR: the spool's answer to the pairing command (R287). -/
def execPair (port : Port) (result : SpoolResult) (report : SpoolReport) (s : State) (frame : Option Bytes := none) :
    Host.Outcome State Fault Refusal :=
  finish (if (s.port port).flight = some .pair && (s.port port).shake = 3 then
      s.onFrame port .pair frame (fun s =>
        match result with
        | .ok => s.splPaired port report
        | _ => s.splLose port 0x0102)
    else s)

/-- STATUS: usage, free space, record count, commit number and the read-only flag of an open spool (R295); the device asks for it
after each commit (log 150). -/
def execStatus (port : Port) (report : SpoolReport) (s : State) (frame : Option Bytes := none) : Host.Outcome State Fault Refusal :=
  finish (if (s.port port).flight = some .status then
      s.onFrame port .status frame (fun s =>
        let s := s.modPort port (fun x => { x with freeMib := report.freeMib, records := report.records })
        (s.splUsage port report.used report.readOnly).splKick port)
    else s)

/-- A primary is open that holds a key's record; the records of a primary given up for lost are abandoned (R298). -/
def State.spoolHas (s : State) (k : KeyObj) : Bool :=
  s.primaryOpen && (match k.spoolRec with | some r => r.1 ≠ 0 | none => true)

/-- The READ of an evicted key's record is asked of the primary spool (R129). -/
def State.fetchRecord (s : State) (slot : Nat) : State :=
  match s.key? slot with
  | some k =>
    match k.spoolRec with
    | some (n, _) =>
      match s.primaryPort with
      | some p => s.askSpl p (.read n)
      | none => s
    | none => s
  | none => s

/-- WRITE: a record is staged on the spool, or refused. -/
def execWrite (port : Port) (result : SpoolResult) (s : State) (frame : Option Bytes := none) : Host.Outcome State Fault Refusal :=
  finish (match (s.port port).flight with
    | some (.write w) =>
      s.onFrame port (.write w) frame (fun s =>
        match result with
        | .ok => (s.modPort port (fun x => { x with inCommit := x.inCommit ++ [w] })).splKick port
        | .full => (s.workFail port 0x0702 w).powerDownEnd.splKick port
        | _ => (s.workFail port 0x0703 w).powerDownEnd.splKick port)
    | _ => s)

/-! ## Re-spooling (R298, Table 10.9) -/

/-- Source port of a re-spooling. -/
def Respool.src (r : Respool) : Port := if r.srcB then .b else .a

/-- Change the re-spooling in progress. -/
def State.modRespool (s : State) (f : Respool → Respool) : State :=
  { s with spl := { s.spl with respool := s.spl.respool.map f } }

/-- t2: every SPOOL_REC names the target's identifier of its record: the same number, in the version that the target has it (log
141). -/
def State.rewriteRecs (s : State) (tgt : Port) : State :=
  { s with kst := { s.kst with keys := s.kst.keys.each (fun _ k => { k with
      spoolRec := k.spoolRec.map (fun r => match (s.port tgt).vers.getD r.1 0 with | 0 => r | v => (r.1, v)) }) } }

/-- t1 done: the records are on the target; t2 runs and the ROLE record of t3 is written in its own commit. -/
def State.respoolCopied (s : State) (r : Respool) : State :=
  let tgt := otherPort r.src
  ((s.rewriteRecs tgt).modRespool (fun r => { r with step := 2 })).stageAt tgt [.primary (s.vigil.primSwSeq + 1)]

/-- t3 done: the target is PRIMARY and vigil RAM names it; RELEASE goes to the source. -/
def State.respoolSwitched (s : State) (r : Respool) : State :=
  let tgt := otherPort r.src
  let x := s.port tgt
  let q := s.vigil.primSwSeq + 1
  let s := (s.setPort tgt { x with role := 1, swSeq := q }).modRespool (fun r => { r with step := 3 })
  let s : State := { s with vigil := { s.vigil with primSerial := some x.serial, primSwSeq := q, primCommit := x.commitNo } }
  s.askSpl r.src .release

/-- A record listed in t1 is not copied: a device record, which each spool has of its own; one superseded, tombstoned, or on the
target in the same or a higher VERSION. An INDEX record of a merge is read for its CEIL first (Table 10.9). -/
def State.skipsCopy (s : State) (r : Respool) (c : SpoolRec) : Bool :=
  let src := s.port r.src
  let tgt := s.port (otherPort r.src)
  let tomb := c.recno % 2 ^ 56 + 2 ^ 56 * 0x04
  0x10 ≤ c.kind || decide (c.version < src.vers.getD c.recno 0) ||
    (c.kind ≠ 0x04 && (src.vers.getD tomb 0 ≠ 0 || tgt.vers.getD tomb 0 ≠ 0)) ||
    (!(r.merge && c.kind = 0x02) && decide (c.version ≤ tgt.vers.getD c.recno 0))

/-- t1 goes on: the next record to copy is read from the source; when none is left, what has been read is written, and with its
commit t1 is done. -/
def State.respoolStep (s : State) : State :=
  match s.spl.respool with
  | none => s
  | some r =>
    let tgt := otherPort r.src
    if r.step ≠ 1 then s
    else
      match r.todo.dropWhile (s.skipsCopy r) with
      | c :: l => (s.modRespool (fun r => { r with todo := c :: l })).askSpl r.src (.read c.recno)
      | [] =>
        let s := s.modRespool (fun r => { r with todo := [], batch := [] })
        if r.batch ≠ [] then s.stageAt tgt r.batch
        else if (s.port tgt).works.any (fun w => match w with | .copy _ _ => true | _ => false) then s
        else s.respoolCopied r

/-- The record that t1 copies has been read, and is written to the target re-encrypted, in batches of 256: an INDEX record that the
target has already, only with a higher CEIL than its key's, which then rises, as the version that supersedes the target's. A record
whose tag fails is not copied. -/
def State.respoolRead (s : State) (r : Respool) (c : SpoolRec) (body : Option Bytes) : State :=
  let tgt := otherPort r.src
  let has := (s.port tgt).vers.getD c.recno 0
  let s := s.modRespool (fun r => { r with todo := r.todo.tail })
  match body with
  | none => s.respoolStep
  | some b =>
    let ix := (handleOwner (leAt b 0 4), handleIndex (leAt b 0 4), leAt b 4 8)
    let low := c.kind = 0x02 && has ≠ 0 && (match s.key? (keySlot ix.1 ix.2.1) with | some k => decide (ix.2.2 ≤ k.ceil) | none => false)
    if low then s.respoolStep
    else
      let s := if c.kind = 0x02 && r.merge then s.raiseCeils [ix] else s
      let w : SplWork := .copy { c with version := if c.kind = 0x02 then max c.version (has + 1) else c.version } b
      let l := r.batch ++ [w]
      if 256 ≤ l.length then ((s.modRespool (fun r => { r with batch := [] })).stageAt tgt l).respoolStep
      else (s.modRespool (fun r => { r with batch := l })).respoolStep

/-- A commit's acknowledgement takes a re-spooling on: the copies of t1, or the ROLE record of t3. -/
def State.respoolOn (s : State) (p : Port) (ws : List SplWork) : State :=
  match s.spl.respool with
  | none => s
  | some r =>
    if p ≠ otherPort r.src then s
    else if r.step = 1 then s.respoolStep
    else if r.step = 2 && ws.any SplWork.alone then s.respoolSwitched r
    else s

/-- A READ of a key's record has an answer: the material, or none when its tag fails, which marks the key UNUSABLE and ends what waits
for it with INTEGRITY 0x0701 (R290). -/
def State.keyRead (s : State) (slot : Nat) (k : KeyObj) (plain : Option Bytes) : State :=
  match plain with
  | some b =>
    let m := if k.mat ≠ [] then k.mat else b.drop 0x70
    match k.repl with
    | some r =>
      if r.step = 1 then s.setKey slot { k with repl := some { r with step := 2, mat := m } } else s.refill slot k m
    | none => s.refill slot k m
  | none =>
    let s := match k.repl with
      | some r =>
        if r.step = 1 then (s.setKey slot k.replDone).doneErr r.job keyErr 0x010C else s.setKey slot { k with unusable := true }
      | none => s.setKey slot { k with unusable := true }
    s.awaitersFail slot k.uid integrityErr 0x0701

/-- READ: a record's body (R290). A spool that does not answer the record has none: what waits for it ends with SPOOL 0x0141, as for a
record on a lost primary (log 150). -/
def execRead (port : Port) (recno : Nat) (tagOk : Bool) (body : Bytes) (s : State) (result : SpoolResult := .ok)
    (frame : Option Bytes := none) : Host.Outcome State Fault Refusal :=
  finish (if (s.port port).flight = some (.read recno) then
      let id := s.readIdent recno
      let copying := s.spl.respool.bind (fun r =>
        if port = r.src && r.step = 1 then (r.todo.head?.filter (fun c => c.recno = recno)).map (fun c => (r, c)) else none)
      s.onFrame port (.read recno) frame (fun s =>
        let plain := if result = SpoolResult.ok then s.openRecord (s.port port) tagOk id body else none
        let s := match s.keyOfRec recno with
          | some (slot, k) =>
            if result ≠ SpoolResult.ok then s.readFail recno 0x0141
            else if k.atHand && k.repl.isNone && plain.isSome then s
            else s.keyRead slot k plain
          | none => s
        (match copying with | some (r, c) => s.respoolRead r c plain | none => s).splKick port)
    else s)

/-- The commit units of a commit of some bytes (R291). -/
def commitUnits (bytes : Nat) : Nat := max 1 (ceilDiv bytes 4096)

/-- COMMIT: the acknowledgement makes the records of the commit durable, and uses up its commit units; a refusal fails what waits on
them (R291, R296). -/
def execCommit (port : Port) (result : SpoolResult) (commitNo : Nat) (s : State) (frame : Option Bytes := none) :
    Host.Outcome State Fault Refusal :=
  finish (match (s.port port).flight with
    | some (.commit ws) =>
      s.onFrame port (.commit ws) frame (fun s =>
        let units := commitUnits (s.port port).commitBytes
        let s := s.modPort port (fun x => { x with inCommit := [], commitBytes := 0 })
        match result with
        | .ok =>
          let s := (s.modPort port (fun x => { x with commitNo := commitNo })).trace
            { event := 0x13, src := some 4, arg := portNo port + commitNo * 2 ^ 32 }
          let s := s.splUsage port ((s.port port).used + units) (s.port port).ro
          let s : State := if s.vigil.primSerial = some (s.port port).serial then
            { s with vigil := { s.vigil with primCommit := commitNo } } else s
          let s := ws.foldl (fun s w => if s.workPending w then s else s.workDone w) s
          ((s.respoolOn port ws).powerDownEnd.askSpl port .status).splKick port
        | .full => (ws.foldl (fun s w => s.workFail port 0x0702 w) s).powerDownEnd.splKick port
        | _ => (ws.foldl (fun s w => s.workFail port 0x0703 w) s).powerDownEnd.splKick port)
    | _ => s)

/-- LIST: identifiers of the source's records in a re-spooling; once all are listed, the live ones are read and written to the target
(Table 10.9 t1). -/
def execList (port : Port) (records : List SpoolRec) (cursor : Nat) (s : State) (frame : Option Bytes := none) :
    Host.Outcome State Fault Refusal :=
  finish (match s.spl.respool with
    | some r =>
      if port = r.src && r.step = 0 && (s.port port).flight = some .list then
        s.onFrame port .list frame (fun s =>
          let s := s.modRespool (fun r => { r with
            cursor := cursor, todo := r.todo ++ records, step := if cursor ≠ 0 then 0 else 1 })
          (if cursor ≠ 0 then s.askSpl port .list else s.respoolStep).splKick port)
      else s
    | none => s)

/-- RELEASE: the source is erased and unpaired; the re-spooling completes (Table 10.9 t4). A refusal counts as a link error
(log 141). -/
def execRelease (port : Port) (result : SpoolResult) (s : State) (frame : Option Bytes := none) : Host.Outcome State Fault Refusal :=
  finish (match s.spl.respool with
    | some r =>
      let x := s.port port
      if port = r.src && r.step = 3 && x.flight = some .release then
        if !(x.frameHolds 9 frame && result = SpoolResult.ok) then s.linkError port
        else
          let s := s.modPort port (fun x => { x with
            state := 2, role := 0, mine := false, session := false, flight := none, errors := 0, staged := [], inCommit := []
            commitBytes := 0, coalesce := [], records := 0, wants := [], keys := [], vers := [] })
          let s : State := { s with spl := { s.spl with respool := none } }
          let s := x.works.foldl (fun s w => if s.workPending w then s else s.workDone w) (s.dlRemove 5 (.spoolCoalesceExpiry port))
          (s.done r.job []).splEvt 16
      else s
    | none => s)

/-- CLOSE: the session keys are wiped and the port is CLOSED. -/
def execClose (port : Port) (_result : SpoolResult) (s : State) (frame : Option Bytes := none) : Host.Outcome State Fault Refusal :=
  finish (if (s.port port).state = 7 && (s.port port).flight = some .close then
      if !(s.port port).frameHolds 10 frame then s.linkError port
      else s.modPort port (fun x => { x with state := 5, role := 0, session := false, keys := [], wants := [], flight := none, errors := 0 })
    else s)

/-- SPOOL_LINK_TIMEOUT: a response has not come within 10 ms (R293). -/
def execSpoolLinkTimeout (port : Port) (s : State) : Host.Outcome State Fault Refusal :=
  finish (if (s.port port).flight.isSome then s.linkError port else s)

/-- SPOOL_COALESCE_EXPIRY: coalesced device records are committed (R291). -/
def execSpoolCoalesceExpiry (port : Port) (s : State) : Host.Outcome State Fault Refusal :=
  finish (if (s.port port).session && (s.port port).coalesce ≠ [] then s.stageAt port [] else s)

/-- SPOOL_CHECKPOINT: PTC_LIFE goes to each paired spool every 60 s (R52). -/
def execSpoolCheckpoint (s : State) : Host.Outcome State Fault Refusal :=
  finish (if s.ticking && s.glb.lifeSrc ≠ 3 then
      ((s.dlRemove 5 .spoolCheckpoint).dlInsert 5 (s.now + 60000000) .spoolCheckpoint).deviceRecord .ckpt
    else s)

/-! ## The manager's commands (R113, R284, R298, R300) -/

/-- The port a spool command names. -/
def Job.port (x : Job) : Port := if bitOf x.param 0 then .b else .a

/-- The 32-byte status block (Table 10.10). -/
def State.splStatus (s : State) (p : Port) : Bytes :=
  let x := s.port p
  let open_ := x.state = 6
  leBytes 1 x.state ++ leBytes 1 (if open_ then x.role else 0) ++
    leBytes 2 (b2n x.ro + 2 * b2n x.warn + 4 * b2n x.rb + 8 * b2n x.pres) ++ leBytes 2 x.lifeField ++
    leBytes 2 x.freeMib ++ leBytes 4 x.used ++ leBytes 4 x.records ++ (if x.state = 0 then zeros 16 else padTo 16 x.serial)

/-- SPOOL_STATUS (R300). -/
def execSpoolStatus (job : Nat) (s : State) : Host.Outcome State Fault Refusal :=
  finish (match s.cmdJob job 0xF401 with
    | none => s
    | some x => s.done job (s.splStatus x.port))

/-- SPOOL_PAIR (R284, R287): an unpaired cartridge starts the handshake. -/
def execSpoolPair (job : Nat) (s : State) : Host.Outcome State Fault Refusal :=
  finish (match s.cmdJob job 0xF402 with
    | none => s
    | some x =>
      let p := s.port x.port
      if p.job = some job then s
      else if p.state = 0 then s.doneErr job spoolErr 0x0101
      else if p.state = 3 || p.state = 4 then s.doneErr job spoolErr 0x0102
      else if p.state = 2 && p.shake = 0 then s.startShake x.port true (some job)
      else s.doneErr job conflictErr 0x0107)

/-- SPOOL_OPEN (R284): from CLOSED the handshake, from FAILED the probe; in CLOSING the command waits (R113), and its deadline ends
the wait, but not an opening that has begun (R95). -/
def execSpoolOpen (job : Nat) (s : State) : Host.Outcome State Fault Refusal :=
  finish (match s.cmdJob job 0xF403 with
    | none => s
    | some x =>
      let p := s.port x.port
      if p.job = some job then s
      else if p.state = 0 then s.doneErr job spoolErr 0x0101
      else if p.state = 5 && p.shake = 0 then (s.waitPhase job 2).startShake x.port false (some job)
      else if p.state = 5 && p.job.isNone then (s.waitPhase job 2).modPort x.port (fun y => { y with job := some job })
      else if p.state = 8 then (s.waitPhase job 2).modPort x.port (fun y => { y with state := 1, job := some job, rb := false })
      else if p.state = 7 then s.waitPhase job 1
      else s.doneErr job conflictErr 0x0107)

/-- SPOOL_CLOSE (R284): an open port begins to close, and the command completes; a re-spooling that runs on the port ends (log
141). -/
def execSpoolClose (job : Nat) (s : State) : Host.Outcome State Fault Refusal :=
  finish (match s.cmdJob job 0xF404 with
    | none => s
    | some x =>
      if (s.port x.port).state = 6 then
        let s := s.respoolAbort 0x0701
        ((s.modPort x.port (fun y => { y with state := 7, staged := y.staged ++ y.coalesce, coalesce := [] })).splKick
          x.port).done job []
      else s.doneErr job conflictErr 0x0107)

/-- What SPOOL_RESPOOL does with the roles of its ports (R298): 0 move, 1 merge, 2 promote in place; none is a conflict. -/
def respoolKind (src tgt : Spl) : Option Nat :=
  if src.state ≠ 6 then none
  else if src.role = 1 && tgt.state = 6 && tgt.role = 0 then some 0
  else if src.role = 4 && tgt.state = 6 && (tgt.role = 0 || tgt.role = 1) then some 1
  else if src.role = 0 && tgt.state = 0 then some 2
  else none

/-- SPOOL_RESPOOL (R298). A source that becomes PRIMARY in place abandons the records on the lost primary: their keys keep record
number 0, which names none. -/
def execSpoolRespool (job : Nat) (s : State) : Host.Outcome State Fault Refusal :=
  finish (match s.cmdJob job 0xF405 with
    | none => s
    | some x =>
      let p := x.port
      let src := s.port p
      let tgt := s.port (otherPort p)
      match s.spl.respool with
      | some r => if r.job = job then s else s.doneErr job conflictErr 0x0107
      | none =>
        match respoolKind src tgt with
        | none => s.doneErr job conflictErr 0x0107
        | some 2 =>
          let q := s.vigil.primSwSeq + 1
          let s := s.setPort p { src with role := 1, swSeq := q }
          let s : State := { s with vigil := { s.vigil with
            primSerial := some src.serial, primSwSeq := q, primCommit := src.commitNo } }
          let s : State := { s with kst := { s.kst with keys := s.kst.keys.each (fun _ k =>
            { k with spoolRec := k.spoolRec.map (fun y => (0, y.2)) }) } }
          (s.coalesceAt p .role).done job []
        | some k =>
          if tgt.ro then s.doneErr job spoolErr 0x0103
          else if tgt.freeMib < 2048 - src.freeMib then s.doneErr job spoolErr 0x0702
          else
            let s := (s.setPort p { src with role := 3 }).modPort (otherPort p) (fun y => { y with role := 2 })
            let s : State := { s with spl := { s.spl with
              respool := some { job := job, srcB := p = .b, step := 0, merge := k = 1 } } }
            let s := (if src.ro then s else s.coalesceAt p .role).coalesceAt (otherPort p) .role
            (s.waitPhase job 2).askSpl p .list)

end Sys2Proof.Machine
end

