-- ==== Sys2Proof/Machine/KeyStore.lean ====
section
/-! DEFINITION. The key store's shared rules (chapter 5): key types and sizes (R122, R128, R130), policy blocks (R123 to R125,
R127), the checks of a handle (R121), creation and eviction (R120, R128, R129, R488), the key cache (R130), uses (R126), the
derivation tree (R132), destruction (R149, R150). -/

namespace Sys2Proof.Machine

/-! ## Policy blocks (Table 5.3) -/

/-- A policy is refused for a type (R124); `words` is the RSA modulus in words. -/
def Policy.refused (p : Policy) (t words : Nat) : Bool :=
  (!pubOnly t && p.mask = 0) || decide (2 < p.mask) || decide (4 < p.fanout) || decide (p.notAfter ≤ p.notBefore) ||
    ((baseType t = 0x05 || (baseType t = 0x60 && decide (words < 32))) && !p.flag polLegacy) ||
    (stateful t && (p.flag polExport || p.flag polMirror)) || (p.flag polExport && p.maxUses ≠ 0) ||
    ((stateful t || p.maxUses ≠ 0) && !p.flag polPersist)

/-- A relative window becomes absolute, and WIN_REL is cleared (R125). -/
def Policy.absolute (p : Policy) (life : Nat) : Policy :=
  if p.flag polWinRel then
    { p with
      flags := setBit p.flags polWinRel false
      notBefore := min (life + p.notBefore) 0xFFFFFFFE
      notAfter := if p.notAfter = 0xFFFFFFFF then p.notAfter else min (life + p.notAfter) 0xFFFFFFFE }
  else p

/-- `n` is equal to or narrower than `o` in every field (R127). -/
def Policy.narrows (n o : Policy) : Bool :=
  (n.ops &&& ~~~o.ops) = 0 && (n.flags &&& ~~~o.flags) = 0 &&
    n.flag polPersist = o.flag polPersist && n.flag polLegacy = o.flag polLegacy && n.flag polWinRel = o.flag polWinRel &&
    decide (o.mask ≤ n.mask) && n.fanout = o.fanout &&
    (n.maxUses = o.maxUses || (o.flag polPersist && n.maxUses ≠ 0 && (o.maxUses = 0 || decide (n.maxUses < o.maxUses)))) &&
    decide (o.notBefore ≤ n.notBefore) && decide (n.notAfter ≤ o.notAfter)

/-! ## Quotas (R128, R130) -/

/-- KEY_ENTRIES of a function; the manager has what no strand quota assigns. -/
def State.entryQuota (s : State) (f : Nat) : Nat :=
  if f = 0 then 4194304 - (s.strands.map (fun e => e.2.quota.keyEntries)).sum else (s.strand f).quota.keyEntries
/-- CACHE_KIB of a function in lines; the manager has what no strand quota assigns. -/
def State.lineQuota (s : State) (f : Nat) : Nat :=
  4 * (if f = 0 then 16384 - (s.strands.map (fun e => e.2.quota.cacheKib)).sum else (s.strand f).quota.cacheKib)
/-- Lines of the key cache that an owner's keys take. -/
def State.linesUsed (s : State) (f : Nat) : Nat :=
  ((s.allKeys.filter (fun e => e.1 / 262144 = f && e.2.cached)).map (fun e => e.2.lines)).sum

/-- The key is warm nowhere any more (R239). -/
def State.wipeKeyWarm (s : State) (uid : Nat) : State :=
  { s with units := s.units.each (fun _ u =>
      match u.warm with
      | some (_, i) => if i = uid then { u with warm := none } else u
      | none => u) }

/-- The KEYWIN entry of a key: PTC_BOOT at which PTC_LIFE reaches NOT_AFTER (R125, R335). -/
def State.armExpiry (s : State) (slot : Nat) : State :=
  let c : Instr := .keyExpiry (slot / 262144) (slot % 262144)
  let s := s.dlRemove 4 c
  match s.key? slot with
  | none => s
  | some k =>
    if k.policy.notAfter = 0xFFFFFFFF || k.expired then s
    else s.dlInsert 4 (s.glb.lifeAt.toNat + 1000000 * (k.policy.notAfter - s.glb.ptcLife.toNat)) c

/-! ## Creation (R120, R128, R488) -/

/-- A directory slot is free for a new key. -/
def State.slotFree (s : State) (slot : Nat) : Bool :=
  (s.kst.keys.get? slot).isNone && (s.kst.quarantine.get? slot).isNone && (s.kst.claimed.get? slot).isNone

/-- The lowest-numbered free, unquarantined slot of an owner. -/
def State.lowestSlot (s : State) (f : Nat) : Option Nat :=
  let mine {α : Type} (t : Tbl α) : Nat := (t.filter (fun e => e.1 / 262144 = f)).length
  let taken := mine s.kst.keys + mine s.kst.quarantine + mine s.kst.claimed
  (firstBelow (min 262143 (taken + 1)) (fun i => s.slotFree (keySlot f (i + 1)))).map (fun i => keySlot f (i + 1))

/-- What a creation needs of the spool: a writable primary, for a PERSIST key (R25, R296). -/
def State.persistCheck (s : State) (p : Policy) : Option (Nat × Nat) :=
  if !p.flag polPersist || s.primaryWritable then none
  else if s.primaryOpen then some (spoolErr, 0x0142) else some (spoolErr, 0x0141)

/-- Create a key object of an owner: the limits of R128 in their order, then the lowest free slot (R488). The policy is
absolute from now on. -/
def State.createKey (s : State) (f : Nat) (k : KeyObj) : Except (Nat × Nat) (State × Nat) :=
  match s.persistCheck k.policy with
  | some e => .error e
  | none =>
    match s.lowestSlot f with
    | none => .error (resourceErr, 0x0144)
    | some slot =>
      if s.entryQuota f < s.entriesOf f + k.entries then .error (resourceErr, 0x0141)
      else
        match s.makeRoom [1, k.run] s.kst.keys.length with
        | (s, some [h, a]) =>
          if !pubOnly k.type && decide (s.lineQuota f < k.lines) then .error (resourceErr, 0x0143)
          else
            let persist := k.policy.flag polPersist
            let (n, s) := if persist then s.newRecno else (0, s)
            let k := { k with
              uid := s.kst.nextUid, policy := k.policy.absolute s.glb.ptcLife.toNat, lru := s.kst.clock
              hdr := h, halfA := some a, halfB := none, active := false, recOk := false
              spoolRec := if persist then some (n, 1) else none }
            let s : State := { s with kst := { s.kst with
              keys := s.kst.keys.insert slot k, nextUid := s.kst.nextUid + 1, clock := s.kst.clock + 1 } }
            .ok (s.armExpiry slot, slot)
        | _ => .error (resourceErr, 0x0142)

/-- A creation ends its command: a PERSIST key's completion waits for its record's commit (R291). -/
def State.created (s : State) (job slot : Nat) (result : Bytes) : State :=
  match s.key? slot with
  | none => s
  | some k =>
    if k.policy.flag polPersist then
      (s.modJob job (fun x => { x with result := result, phase := 2 })).commitWorks [.key slot job]
    else s.done job result

/-! ## The checks of a handle (R121) -/

/-- The window of a key is open: 0, or the detail of check 8 (R125). -/
def KeyObj.windowErr (k : KeyObj) (life : Nat) : Option (Nat × Nat) :=
  if life < k.policy.notBefore then some (keyErr, 0x0107)
  else if k.policy.notAfter ≠ 0xFFFFFFFF && decide (k.policy.notAfter ≤ life) then some (keyErr, 0x0108)
  else none

/-- Checks 1 to 5 of R121. KEY_REPLACE and KEY_DESTROY clear an unusable entry, so check 5 does not stop them (R131). -/
def State.findKey (s : State) (f h opcode : Nat) : Except (Nat × Nat) (Nat × KeyObj) :=
  let slot := keySlot (handleOwner h) (handleIndex h)
  if handleIndex h = 0 && !isDwk h then .error (keyErr, 0x0101)
  else if maxVf < handleOwner h then .error (keyErr, 0x0101)
  else if handleOwner h ≠ f then .error (keyErr, 0x0102)
  else if !s.rootUp then .error (keyErr, 0x0110)
  else if isDwk h then .ok (slot, s.dwkObj f)
  else
    match s.key? slot with
    | none => .error (keyErr, 0x0103)
    | some k =>
      if (s.epochOf slot).toNat ≠ handleEpoch h then .error (keyErr, 0x0103)
      else if k.unusable && opcode ≠ 0x5007 && opcode ≠ 0x5008 then .error (integrityErr, 0x0141)
      else .ok (slot, k)

/-- Check 9 of R121: the uses may be reserved (R126, R223). MAX_USES has no effect on a TDEA key. -/
def KeyObj.usesLeft (k : KeyObj) (n : Nat) : Bool :=
  if n = 0 then true
  else if baseType k.type = 0x05 then decide (k.uses + k.reserved + n ≤ 2 ^ 20)
  else k.policy.maxUses = 0 || decide (k.uses + k.reserved + n ≤ k.policy.maxUses)

/-! ## Stateful indices (R145 to R148) -/

/-- The key object of an identity: in its slot, or destroyed and kept for the jobs that hold it (R149). -/
def State.keyOf (s : State) (slot uid : Nat) : Option KeyObj :=
  match (s.key? slot).filter (fun k => k.uid = uid) with
  | some k => some k
  | none => (s.kst.dying.find? (fun e => e.2.uid = uid)).map (·.2)

/-- Ask for a reservation up to `ceil`, when none is in flight (R146). -/
def State.reserveIndices (s : State) (slot : Nat) : State :=
  match s.key? slot with
  | none => s
  | some k =>
    let c := min (k.ceil + 1024) k.last
    if k.resvTo.isSome || c = k.ceil || !s.primaryWritable then s
    else (s.setKey slot { k with resvTo := some c }).commitWorks [.index slot c]

/-! ## The key cache (R130) -/

/-- Evict least recently used unpinned keys of an owner until `n` lines fit its quota `q`; none when that cannot be. -/
def State.makeLines (s : State) (f n q : Nat) : Nat → Option State
  | 0 => none
  | fuel + 1 =>
    if s.linesUsed f + n ≤ q then some s
    else
      match leastUsed (fun i k => i / 262144 = f && k.cached && !s.pinned k.uid) s.kst.keys with
      | some (slot, k) => (s.setKey slot { k with cached := false }).makeLines f n q fuel
      | none => none

/-- The cached form of a key is in the cache; a key that has gone needs none. -/
def State.isCached (s : State) (uid : Nat) : Bool :=
  match s.allKeys.find? (fun e => e.2.uid = uid) with | some e => e.2.cached | none => true

/-- The lines of one key are claimed in its owner's quota `q`; none: they cannot be had now. -/
def State.claimLines (s : State) (q slot : Nat) (k : KeyObj) : Option State :=
  let touch (s : State) : State :=
    let t := s.kst.clock
    ({ s with kst := { s.kst with clock := t + 1 } } : State).modKey slot k.uid (fun k => { k with cached := true, lru := t })
  if s.isCached k.uid then some (touch s)
  else if q < k.lines then none
  else (s.makeLines (slot / 262144) k.lines q (s.kst.keys.length + 1)).map
    (fun s => touch (s.modKey slot k.uid (fun k => { k with macFn := 0 })))

/-- Claim cache space and a pin for a job's key, and for the tweak key of AES-XTS (R130, R222, R234). `q` is the quota in lines the job was admitted under. None: no
space can be had now. A public key that does not fit is used uncached, and is not pinned. -/
def State.claimCache (s : State) (j q : Nat) : Option State :=
  match s.job? j with
  | none => none
  | some x =>
    match x.key with
    | none => some s
    | some (slot, k) =>
      if isDwk x.handle then some s
      else if !s.isCached k.uid && decide (q < k.lines) && pubOnly k.type then some s
      else
        let s := s.modJob j (fun x => { x with pinned := true })
        match s.claimLines q slot k, x.key2 with
        | none, _ => none
        | some s, none => some s
        | some s, some (slot2, k2) => s.claimLines q slot2 k2

/-! ## Destruction (R149, R150) -/

/-- KEY_DESTROY's effect at S3: EPOCH rises, VALID falls, warm and cached forms go; a replacement in progress is overtaken
(R144). The material waits for the last job that holds it. -/
def State.destroyKey (s : State) (slot : Nat) : State :=
  match s.key? slot with
  | none => s
  | some k =>
    let e := s.epochOf slot
    let s := s.dlRemove 4 (.keyExpiry (slot / 262144) (slot % 262144))
    let s : State := { s with kst := { s.kst with
      keys := s.kst.keys.erase slot
      epoch := s.kst.epoch.put 0 slot (e + 1)
      quarantine := if e = 15 then s.kst.quarantine.put false slot true else s.kst.quarantine
      dying := s.kst.dying ++ [(slot, if k.repl.isSome then k.replDone else k)] } }
    let s := s.wipeKeyWarm k.uid
    let s := match k.repl with
      | some r => s.doneErr r.job conflictErr 0x0141
      | none => s
    let s := if k.policy.flag polMirror && s.plyUp then s.plySend (.destroy (slot / 262144) (slot % 262144)) else s
    s.keySettle

end Sys2Proof.Machine
end

