-- ==== Sys2Proof/Machine/PubKey.lean ====
section
/-! DEFINITION. The checks of a public key or peer value (R135, R169, R177, R185, R187, R189, R192, R195, R209, R210, Table 7.8),
each with the status it gives. What needs a curve's or group's constants, which the spec does not contain, is a function of the
input (log 3). -/

namespace Sys2Proof.Machine

/-- The 12-bit coefficients of an ML-KEM key's t-hat part are all below 3,329 (R169); `n` counts pairs of coefficients. -/
def modulusOk : Nat → Bytes → Bool
  | 0, _ => true
  | n + 1, b0 :: b1 :: b2 :: r =>
    let w := b0.toNat + 256 * b1.toNat + 65536 * b2.toNat
    decide (w % 4096 < 3329) && decide (w / 4096 < 3329) && modulusOk n r
  | _ + 1, _ => false

/-- Length of an ML-KEM encapsulation key of rank k. -/
def ekLen (k : Nat) : Nat := 384 * k + 32

/-- Field length of a Weierstrass type. -/
def fieldLen (t : Nat) : Nat := [32, 48, 66, 32, 48, 64].getD (baseType t - 0x61) 0

/-- A Weierstrass point: length and encoding, infinity, coordinate range, curve equation, in that order (R209). -/
def pointErr (t : Nat) (b : Bytes) : Option (Nat × Nat) :=
  let n := fieldLen t
  if b = [0] then some (inputErr, 0x0303)
  else if b.length ≠ 1 + 2 * n || b.head? ≠ some 4 then some (inputErr, 0x0305)
  else if (b.drop 1).all (· = 0) then some (inputErr, 0x0303)
  else if !Config.accepts (0x10B00 + baseType t) [b] then some (inputErr, 0x0304)
  else if !Config.accepts (0x10C00 + baseType t) [b] then some (inputErr, 0x0302)
  else none

/-- An RSA public key in the layout of Table 7.2 has a header of the table and its own length. -/
def rsaShape (b : Bytes) : Bool :=
  let n := leAt b 0 4
  let e := leAt b 4 4
  decide (8 ≤ b.length) && decide (128 ≤ n ∧ n ≤ 2048) && decide (n % 8 = 0) && decide (1 ≤ e ∧ e ≤ 32) &&
    decide (b.length = 8 + n + e)

/-- The checks of n and e of R210. -/
def rsaValuesOk (b : Bytes) : Bool :=
  let k := leAt b 0 4
  let n := ofBe (slice b 8 k)
  let e := ofBe (slice b (8 + k) (leAt b 4 4))
  decide (n % 2 = 1) && decide (2 ^ (8 * k - 1) ≤ n) && decide (e % 2 = 1) && decide (3 ≤ e) && decide (e < n)

/-- An HSS or LMS public key inside HSS: L and the top type codes, in the documents' byte order. -/
def hssPubLevels (b : Bytes) : Nat := ofBe (slice b 0 4)
/-- LMS type code of an HSS public key. -/
def hssPubLms (b : Bytes) : Nat := ofBe (slice b 4 4)
/-- LM-OTS type code of an HSS public key. -/
def hssPubOts (b : Bytes) : Nat := ofBe (slice b 8 4)
/-- OID of an XMSS or XMSS^MT public key. -/
def treePubOid (b : Bytes) : Nat := ofBe (slice b 0 4)

/-- The length that a stateful public key's own type fields imply (R185); none: a set that Table 6.15 does not list. -/
def statefulPubLen (t : Nat) (b : Bytes) : Option Nat :=
  if baseType t = 0x40 then
    let c := hssPubLms b
    let o := hssPubOts b
    if 1 ≤ hssPubLevels b && hssPubLevels b ≤ 8 && lmsHeight c ≠ 0 && otsN o = lmsM c && lmsShake c == otsShake o then
      some (28 + lmsM c)
    else none
  else (treeSet t (treePubOid b)).map (fun x => 4 + 2 * x.1)

/-- The bits of an HQC key that lie above position n in its last byte are 0 (R187; n mod 8 of the document's sets, log 20). -/
def hqcPadOk (t : Nat) (b : Bytes) : Bool :=
  match b.getLast? with
  | some x => decide (x.toNat < (if baseType t = 0x49 then 8 else 32))
  | none => false

/-- An X25519 value without the bit that RFC 7748 ignores (Table 7.8). -/
def xValue (t : Nat) (b : Bytes) : Bytes := if t = 0x69 then b.take 31 ++ (b.drop 31).map (· &&& 0x7F) else b

/-- A peer value of X25519 or X448 is neither 0 nor 1 nor, which takes the curve's constants, another of low order (Table 7.8). -/
def xPeerOk (t : Nat) (b : Bytes) : Bool :=
  decide (2 ≤ ofLe (xValue t b)) && Config.accepts (0x10B00 + t) [xValue t b]

/-- The check of a public key or peer value of a type (TYPE[7] ignored), and the status of its first failure. -/
def pubKeyErr (t : Nat) (b : Bytes) : Option (Nat × Nat) :=
  let len (n : Nat) : Option (Nat × Nat) := if b.length = n then none else some (inputErr, 0x0001)
  let bt := baseType t
  if 0x10 ≤ bt && bt ≤ 0x12 then
    (len (ekLen (bt - 0x0E))).or (if modulusOk (128 * (bt - 0x0E)) b then none else some (inputErr, 0x0201))
  else if 0x20 ≤ bt && bt ≤ 0x22 then len ([1312, 1952, 2592].getD (bt - 0x20) 0)
  else if 0x30 ≤ bt && bt ≤ 0x3B then len (2 * (16 + 8 * ((bt - 0x30) / 4)))
  else if 0x40 ≤ bt && bt ≤ 0x42 then
    match statefulPubLen t b with
    | none => some (unsupportedErr, 0x0201)
    | some n => if b.length = n then none else some (inputErr, 0x0204)
  else if 0x48 ≤ bt && bt ≤ 0x4A then
    (len ([2249, 4522, 7245].getD (bt - 0x48) 0)).or (if hqcPadOk t b then none else some (inputErr, 0x0204))
  else if 0x50 ≤ bt && bt ≤ 0x59 then len (mcPub.getD (bt - 0x50) 0)
  else if bt = 0x60 then (if rsaShape b && rsaValuesOk b then none else some (inputErr, 0x030F))
  else if 0x61 ≤ bt && bt ≤ 0x66 then pointErr t b
  else if bt = 0x67 || bt = 0x68 then
    (if b.length = (if bt = 0x67 then 32 else 57) && Config.accepts (0x10B00 + bt) [b] then none
     else some (inputErr, 0x0305))
  else if bt = 0x69 || bt = 0x6A then
    (if b.length ≠ (if bt = 0x69 then 32 else 56) then some (inputErr, 0x0305)
     else if xPeerOk bt b then none else some (inputErr, 0x0307))
  else if bt = 0x6B then
    (if !([256, 384, 512, 768, 1024].contains b.length) then some (inputErr, 0x0305)
     else if decide (2 ≤ ofBe b) && Config.accepts (0x10B00 + bt) [b] then none else some (inputErr, 0x0308))
  else if bt = 0x70 then
    if b.length = 2017 then pointErr 0x61 (b.drop 1952) else some (inputErr, 0x0001)
  else if bt = 0x71 then
    if b.length = 1984 then (if Config.accepts 0x10B67 [b.drop 1952] then none else some (inputErr, 0x0305))
    else some (inputErr, 0x0001)
  else if bt = 0x72 then
    if b.length ≠ 1216 then some (inputErr, 0x0001)
    else if !modulusOk 384 b then some (inputErr, 0x0201)
    else if xPeerOk 0x69 (b.drop 1184) then none else some (inputErr, 0x0307)
  else if bt = 0x73 then
    if b.length ≠ 1249 then some (inputErr, 0x0001)
    else if !modulusOk 384 b then some (inputErr, 0x0201) else pointErr 0x61 (b.drop 1184)
  else some (keyErr, 0x0104)

end Sys2Proof.Machine
end

