-- ==== Sys2Proof/Machine/Units.lean ====
section
/-! DEFINITION. Creels and their units: which may be dealt to, which may start a job, and the units on which firmware runs a part
of a command (R23, R134, R135, R226, R234). -/

namespace Sys2Proof.Machine

/-- The creel is out of dealing: FRM_CRL_STS.HELD. -/
def State.creelHeld (s : State) (f c : Nat) : Bool :=
  let x := s.creel f c
  bitOf x.ctl.toNat 0 || x.heldLoad || x.heldRetired

/-- A unit is not retired. -/
def State.unretired (s : State) (f c u : Nat) : Bool := !(s.unit f c u).retired

/-- A unit is idle and may start a job. -/
def State.idle (s : State) (f c u : Nat) : Bool :=
  let v := s.unit f c u
  v.job.isNone && !v.retired && v.recovering.isNone

/-- Spindles of a creel that a job holds. -/
def State.heldSpindles (s : State) (f c : Nat) : Nat := (List.range 12).countP (fun u => (s.unit f c u).job.isSome)

/-- The creel may start one more spindle job (R254). -/
def State.gateOpen (s : State) (f c : Nat) : Bool := !s.cap.gated || decide (s.heldSpindles f c < s.cap.gateN)

/-- OPCODE [15:8]: class and family. -/
def Job.fam (x : Job) : Nat := x.opcode / 256

/-- The footprint is 8 banks (R240). -/
def opBanks8 (x : Job) (key : Option KeyObj) : Bool :=
  match x.fam with
  | 0x13 => x.opOp = 2
  | 0x12 => 2 ≤ x.opParam
  | 0x22 => x.opOp = 1 && 8 ≤ x.opParam
  | 0x23 => x.opOp = 1 && (match key with | some k => opensTree k k.next | none => false)
  | _ => false

/-- The job is an AES-XTS job. -/
def isXts (x : Job) : Bool := x.fam = 0x41 && x.opParam = 5

/-- The handle that PARAM names beside KEY: the tweak key of AES-XTS, the key-encryption key of KEY_WRAP and KEY_REPLACE. -/
def Job.handle2 (x : Job) : Option Nat :=
  if isXts x || x.opcode = 0x5004 || (x.opcode = 0x5007 && x.param ≠ 0 && x.param ≠ 0xFFFFFFFF) then some x.param else none

/-- The entry of the customer image that a CUSTOM job names. -/
def State.customEntry (s : State) (x : Job) : Option RtnEntry :=
  match s.mcs.cust with
  | some img => img.entries[x.opFamily]?
  | none => none

/-- The footprint of a job is 8 banks (R240, R273); a stateful signature's goes by the index assigned to it, or the next one. -/
def State.banks8 (s : State) (x : Job) : Bool :=
  if x.opClass = 9 then (match s.customEntry x with | some e => e.foot8 | none => false)
  else if x.index.isSome then x.newTree
  else
    opBanks8 x (x.key.map (fun k =>
      match s.key? k.1 with
      | some y => if y.uid = k.2.uid then { y with next := y.nextNow } else k.2
      | none => k.2))

/-- Bank 7 of a spindle is free for the carder: not lent, not used by an 8-bank job, in the pool (R240, R251). -/
def State.bankFree (s : State) (f c u : Nat) : Bool :=
  let v := s.unit f c u
  v.lent.isNone && !v.retired3 && v.recovering ≠ some 3 &&
    (match v.job with | some j => (match s.job? j with | some y => !s.banks8 y | none => true) | none => true)

/-- The free bank 7 the carder takes: of a retired spindle, then of one that computes, then of an idle one (R240). -/
def State.bankFor (s : State) (f c : Nat) : Option Nat :=
  let us := (List.range 12).filter (s.bankFree f c)
  (us.find? (fun u => (s.unit f c u).retired)).or
    ((us.find? (fun u => (s.unit f c u).job.isSome)).or us.head?)

/-! ## Units for firmware (R23, R134, R135) -/

/-- What a part of a command needs: a spindle, with bank 7 of its own for a footprint of 8 banks (R240), a carder with one staging
bank (R234), the masking order, the spindles that it may fan out on (R244), and the key it uses on the spindle, which stays warm
there (R238). -/
structure FirmNeed where
  /-- a spindle -/
  spindle : Bool := true
  /-- the carder of the creel -/
  carder : Bool := false
  /-- footprint of 8 banks -/
  banks8 : Bool := false
  /-- masking order -/
  mask : Nat := 0
  /-- FANOUT -/
  fan : Nat := 1
  /-- the slot and the uid of the key used, where its cached form may stay warm -/
  warm : Option (Nat × Nat) := none

/-- The need of a part that runs in the seal island alone. -/
def FirmNeed.seal : FirmNeed := { spindle := false }

/-- A spindle that the part may take. -/
def State.firmSpindle (s : State) (n : FirmNeed) (f c u : Nat) : Bool :=
  s.idle f c u && s.gateOpen f c && (!n.banks8 || (s.unit f c u).lent.isNone)

/-- The units of a frame that the part may take now: each a creel and a unit, 12 for the carder alone. -/
def State.firmUnits (s : State) (n : FirmNeed) (f : Nat) : List (Nat × Nat) :=
  let cs := (List.range 11).filter (fun c =>
    !s.creelHeld f c && (!n.carder || (s.idle f c 12 && (s.bankFor f c).isSome)) &&
      (n.mask = 0 || ((s.creel f c).maskSeeded && !(s.creel f c).maskHeld)))
  (cs.map (fun c =>
    if n.spindle then ((List.range 12).filter (s.firmSpindle n f c)).map (fun u => (c, u)) else [(c, 12)])).flatten

/-- A frame has a creel that could ever run the part (R232). -/
def State.firmFrame (s : State) (n : FirmNeed) (f : Nat) : Bool :=
  (List.range 11).any (fun c =>
    !s.creelHeld f c && (!n.spindle || (List.range 12).any (s.unretired f c)) && (!n.carder || s.unretired f c 12))

/-- Warm keys are enabled in a creel (R239). -/
def State.warmOn? (s : State) (f c : Nat) : Bool :=
  let ctl := (s.creel f c).ctl.toNat
  bitOf ctl 1 && fld ctl 16 16 ≠ 0

/-- The part has used a unit: its memory is wiped, and no key is warm on it (R204, R227) but `warm`, the one the part used, where the
creel keeps warm keys (R238). -/
def State.usedUnit (s : State) (f c u : Nat) (warm : Option (Nat × Nat) := none) : State :=
  s.setUnit f c u { s.unit f c u with
    warm := if s.warmOn? f c then warm else none, opMem := [], micro := {}, idleAt := s.now }

/-- Firmware runs a part of command `j` on the units it needs, for the cycles that `cyc` gives, and goes on with `go`. The units lie
in the job's home frame, or in the next frame that has a usable creel (R233); which of those that are idle, the spec leaves open,
and a free value picks (log 130). While none is idle the command waits; where no frame could ever serve it, it ends with RESOURCE
0x0401, as a job of the pipeline does. A part that needs no unit runs in the seal island. -/
def State.onUnits (s : State) (j : Nat) (x : Job) (n : FirmNeed) (cyc : State → Nat × State) (go : State → State) : State :=
  if !n.spindle && !n.carder then
    let (c, s) := cyc s
    go (s.modJob j (fun x => { x with cycles := c, engine := engineCode (s.homeOf x) 15 15 }))
  else
    match ((List.range 4).map (fun i => (s.homeOf x + i) % 4)).find? (s.firmFrame n) with
    | none => s.doneErr j resourceErr 0x0401
    | some f =>
      let l := s.firmUnits n f
      if l = [] then s
      else
        let (r, s) := s.freeNum
        let (cr, u) := l.getD (r % l.length) (0, 0)
        let more := ((List.range 12).filter (fun v => v ≠ u && s.firmSpindle n f cr v)).take (n.fan - 1)
        let (c, s) := cyc s
        let s := s.each (u :: ((if n.carder then [12] else []) ++ more)) (fun s v => s.usedUnit f cr v (if v < 12 then n.warm else none))
        go (s.modJob j (fun x => { x with cycles := c, engine := engineCode f cr u, fFanout := more ≠ [] }))

end Sys2Proof.Machine
end

