-- ==== Sys2Proof/Machine/Keys.lean ====
section
/-! DEFINITION. The key-store commands of class 0x5 (R134 to R151), replacement (R141 to R144), expiry, the rebuild after a
power-on reset (R292, R488), and an uncorrectable error of the key table (R131, R485). -/

namespace Sys2Proof.Machine

/-! ## What S3 checks of a key-store command -/

/-- Cycles at a masking order: order 2 divides the rate by 1 / 0.35 (R30, Table 8.4), rounded up to a whole cycle
(DESIGN CHOICE, log 99). -/
def atOrder (mask cycles : Nat) : Nat := if mask = 2 then ceilDiv (cycles * 20) 7 else cycles

/-- TYPE of KEY_GENERATE. -/
def genType (x : Job) : Nat := fld x.param 0 8

/-- The parameter list of KEY_GENERATE's PARAM and auxiliary block; the exponent of a generated RSA key is 65,537 (R210). -/
def genParam (x : Job) : List Nat :=
  let ln := fld x.param 8 8
  match genType x with
  | 0x06 => [ln]
  | 0x08 => [if ln = 0 then 256 else ln]
  | 0x60 => [fld x.param 16 9, 3]
  | 0x6B => [ln]
  | 0x40 =>
    ((List.range (leAt x.auxData 0 4)).map (fun i => [leAt x.auxData (4 + 8 * i) 4, leAt x.auxData (8 + 8 * i) 4])).flatten
  | 0x41 | 0x42 => [leAt x.auxData 0 4]
  | _ => []

/-- The PARAM of KEY_GENERATE (R135). -/
def genParamErr (x : Job) : Option (Nat × Nat) :=
  let t := genType x
  let ln := fld x.param 8 8
  let w := fld x.param 16 9
  if pubOnly t || !typeListed t then some (keyErr, 0x0104)
  else if fld x.param 25 7 ≠ 0 then some (inputErr, 4)
  else
    let ok :=
      if t = 0x06 then decide (16 ≤ ln ∧ ln ≤ 128) && w = 0
      else if t = 0x08 then w = 0
      else if t = 0x6B then decide (1 ≤ ln ∧ ln ≤ 5) && w = 0
      else if t = 0x60 then ln = 0 && decide (16 ≤ w ∧ w ≤ 256)
      else ln = 0 && w = 0
    if ok then none else some (inputErr, 4)

/-- PARAM, input and auxiliary lengths of a key-store command (R71, R85, Table 5.6). -/
def keyCmdErr (x : Job) : Option (Nat × Nat) :=
  let plain (param : Bool) (inOk auxOk : Bool) : Option (Nat × Nat) :=
    if !param then some (inputErr, 4) else if !inOk then some (inputErr, 1) else if !auxOk then some (inputErr, 2) else none
  match x.opcode with
  | 0x5001 =>
    (genParamErr x).or (plain true (x.inLen = 32)
      (if genType x = 0x40 then true else if genType x = 0x41 || genType x = 0x42 then true else x.auxLen = 0))
  | 0x5002 =>
    if fld x.param 8 24 ≠ 0 then some (inputErr, 4)
    else if !pubOnly (fld x.param 0 8) || !typeListed (fld x.param 0 8) then some (keyErr, 0x0104)
    else plain true true (x.auxLen = 32)
  | 0x5003 => plain (x.param = 0) true (x.auxLen = 0)
  | 0x5004 => plain true (x.inLen = 0) (x.auxLen = 0)
  | 0x5005 => plain (x.param = 0) true (x.auxLen = 0)
  | 0x5006 => plain (x.param = 0) (x.inLen = 1184 || x.inLen = 1568) (x.auxLen = 0)
  | 0x5007 =>
    plain true (if x.param = 0 || x.param = 0xFFFFFFFF then x.inLen = 0 else true) (x.auxLen = 0 || x.auxLen = 3)
  | 0x5008 | 0x5009 | 0x500A => plain (x.param = 0) (x.inLen = 0) (x.auxLen = 0)
  | 0x500B => plain (x.param = 0) (x.inLen = 32) (x.auxLen = 0)
  | 0x500C =>
    if x.fn ≠ 0 then some (unsupportedErr, 0x0141) else plain (fld x.param 10 22 = 0) (x.inLen = 0) (x.auxLen = 0)
  | _ => some (unsupportedErr, 1)

/-- The command takes a key in KEY. -/
def keyCmdKeyed (x : Job) : Bool := decide (0x5003 ≤ x.opcode ∧ x.opcode ≤ 0x500B)

/-- Checks 6 and 7 of R121 for a key-store command, and what else S3 decides from the key (R120, R141, R292). -/
def State.keyCmdKeyErr (s : State) (x : Job) (k : KeyObj) : Option (Nat × Nat) :=
  let t := k.type
  if isDwk x.handle && x.opcode ≠ 0x5003 then some (keyErr, 0x0104)
  else
    match x.opcode with
    | 0x5003 => if t ≠ 0x07 then some (keyErr, 0x0104) else if !k.policy.op 5 then some (keyErr, 0x0105) else none
    | 0x5005 =>
      if t ≠ 0x11 && t ≠ 0x12 then some (keyErr, 0x0104) else if !k.policy.op 9 then some (keyErr, 0x0105) else none
    | 0x5007 => if stateful t || (pubOnly t && x.param = 0) then some (keyErr, 0x0104) else none
    | 0x5008 =>
      if k.policy.flag polPersist && !s.primaryWritable then
        some (spoolErr, if s.primaryOpen then 0x0142 else 0x0141)
      else none
    | 0x5009 => if baseType t < 0x10 then some (keyErr, 0x0104) else none
    | _ => none

/-- The output of a key-store command in bytes, where opcode and key tell it at S3 (R71). -/
def keyCmdOut (x : Job) (k : Option KeyObj) : Nat :=
  match x.opcode with
  | 0x5001 => 8 + (match keySizes (genType x) (genParam x) with | some z => z.pub | none => 0)
  | 0x5002 | 0x5003 | 0x5005 => 4
  | 0x5004 => match k with | some k => 80 + k.len | none => 0
  | 0x5006 => match k with | some k => 0x30 + (if x.inLen = 1184 then 1088 else 1568) + 8 * ceilDiv k.len 8 + 8 | none => 0
  | 0x5007 => match k with | some k => if baseType k.type < 0x10 then 3 else k.pub.length | none => 0
  | 0x5009 => match k with | some k => k.pub.length | none => 0
  | 0x500A => 128
  | _ => 0

/-- A key-store command computes with secrets or draws random bytes (R24). -/
def keyCmdRandom (x : Job) : Bool :=
  [0x5001, 0x5003, 0x5004, 0x5005, 0x5006, 0x5007].contains x.opcode

/-! ## Where a command computes (R134, R135) -/

/-- Key-generation cycles at masking order 1 (Tables 5.16, 6.8, 6.12, 6.14, 6.17, 6.18, 7.5, 7.7); none where the spec gives
a mean. -/
def genCycles (t : Nat) (p : List Nat) : Option Nat :=
  let k := 1000
  let adj (n : Nat) (sh : Bool) (c : Nat) : Nat := (if sh then c * 45 / 100 else c) * (if n = 24 then 8 else 10) / 10
  match t with
  | 0x10 => some (80 * k) | 0x11 => some (120 * k) | 0x12 => some (170 * k)
  | 0x20 => some (190 * k) | 0x21 => some (300 * k) | 0x22 => some (460 * k)
  | 0x40 => some ((hssLevels p).map (fun l =>
      adj 32 (lmsShake l.1) ([42000, 62000, 155000, 1330000].getD ((l.2 - 1) % 4) 0 * k * 2 ^ lmsHeight l.1 / 1024))).sum
  | 0x41 | 0x42 =>
    match treeSet t (p.getD 0 0) with
    | some (n, h, d, sh) => some (d * adj n sh (474000000 * k * 2 ^ (h / d) / 1048576))
    | none => none
  | 0x48 => some (160 * k) | 0x49 => some (320 * k) | 0x4A => some (520 * k)
  | 0x61 => some (200 * k) | 0x62 => some (540 * k) | 0x63 => some (1250 * k)
  | 0x64 => some (250 * k) | 0x65 => some (690 * k) | 0x66 => some (1450 * k)
  | 0x67 => some (150 * k) | 0x68 => some (480 * k) | 0x69 => some (150 * k) | 0x6A => some (470 * k)
  | 0x6B => some ([700, 1900, 4000, 10000, 20000].getD (p.getD 0 0 - 1) 0 * k)
  | 0x70 => some (500 * k) | 0x71 => some (450 * k) | 0x72 => some (270 * k) | 0x73 => some (320 * k)
  | _ =>
    if 0x30 ≤ t && t ≤ 0x3B then
      some ([14000, 17000, 600, 700, 20000, 24000, 900, 1100, 26000, 31000, 2400, 2900].getD (t - 0x30) 0 * k)
    else none

/-- What a key generation needs: of a symmetric type nothing but the seal island; a spindle, the carder, or both (R135); 8 banks
for Classic McEliece, HQC-192, HQC-256 and the stateful schemes (R240); Classic McEliece fans out by the class field (R191, R244). -/
def genNeed (x : Job) (t mask : Nat) : FirmNeed :=
  if t < 0x10 then .seal
  else {
    spindle := !decide (0x60 ≤ t ∧ t ≤ 0x6B)
    carder := decide (0x60 ≤ t ∧ t ≤ 0x6B) || decide (0x70 ≤ t ∧ t ≤ 0x73)
    banks8 := stateful t || decide (0x50 ≤ t ∧ t ≤ 0x59) || t = 0x49 || t = 0x4A
    mask := mask
    fan := if 0x50 ≤ t && t ≤ 0x59 then x.fanout else 1 }

/-- The cycles of a key generation: 600 of the seal island for a symmetric type; a free value where the spec gives a mean. -/
def State.genCost (s : State) (t : Nat) (p : List Nat) (mask : Nat) : Nat × State :=
  if t < 0x10 then (600, s)
  else
    match genCycles t p with
    | some c => (atOrder mask c, s)
    | none => let (c, s) := s.freeNum; (c + 1, s)

/-- A command generates a key of a type on its units, and goes on. -/
def State.generateOn (s : State) (j : Nat) (x : Job) (t : Nat) (p : List Nat) (mask : Nat) (go : State → State) : State :=
  s.onUnits j x (genNeed x t mask) (fun s => s.genCost t p mask) go

/-- An RSA stored form of `w` words made from a seed: two primes that are functions of the seed (log 3), n their product, the
exponent 65,537, and the CRT values that match (R210). -/
def rsaForm (w e : Nat) (seed : Bytes) : Bytes :=
  let h := 4 * w
  let prime (i : Nat) : Nat := ofBe (algoBytes 0x10860 [seed, leBytes 2 w, leBytes 1 i] h)
  let p := prime 0
  let q := prime 1
  let inv (a m : Nat) : Nat := (invMod (8 * h) (a % m) m).getD 0
  beBytes (2 * h) (p * q) ++ beBytes e 65537 ++ beBytes h p ++ beBytes h q ++ beBytes h (inv 65537 (p - 1)) ++
    beBytes h (inv 65537 (q - 1)) ++ beBytes h (inv q p)

/-- New material of a type of one part from its random bytes: they are a symmetric key; the seed of one that holds what is computed
from it; the seeds of the levels of an HSS key, after its type codes; the seeds of an XMSS or XMSS^MT key, after its OID and before
its root (Table 5.2); otherwise the seed of the scheme's key generation (log 3). -/
def freshPart (t : Nat) (p : List Nat) (rnd : Bytes) : Bytes :=
  let n := match keySizes t p with | some z => z.stored | none => 0
  if t < 0x10 then rnd
  else if regenerates t then rnd ++ expandOf t rnd
  else if t = 0x40 then
    leBytes 4 (hssLevels p).length ++ zeros 4 ++
      ((hssLevels p).zipIdx.map (fun e => leBytes 4 e.1.1 ++ leBytes 4 e.1.2 ++ slice rnd (48 * e.2) 48)).flatten
  else if t = 0x41 || t = 0x42 then
    leBytes 4 (p.getD 0 0) ++ zeros 4 ++ rnd ++ algoBytes (0x10800 + t) [leBytes 4 (p.getD 0 0), rnd] ((n - 8) / 4)
  else if t = 0x60 then rsaForm (p.getD 0 0) (p.getD 1 0) rnd
  else algoBytes (0x10800 + t) [rnd, (p.map (leBytes 4)).flatten] n

/-- The random bytes that `freshPart` takes for a type with `levels` HSS levels. -/
def partDraws (t : Nat) (p : List Nat) (levels : Nat) : Nat :=
  if t < 0x10 then (match keySizes t p with | some z => z.stored | none => 0)
  else if regenerates t then seedLen t
  else if t = 0x40 then 48 * levels
  else if t = 0x41 || t = 0x42 then 3 * (((match keySizes t p with | some z => z.stored | none => 0) - 8) / 4)
  else 64

/-- The random bytes that new material of a type takes: of a composite or hybrid type both parts'. -/
def matDraws (t : Nat) (p : List Nat) (levels : Nat) : Nat :=
  match typeParts t with
  | some (a, b) => partDraws a [] 0 + partDraws b [] 0
  | none => partDraws t p levels

/-- New material of a type from reserved random bytes. -/
def newMaterial (t : Nat) (p : List Nat) (rnd : Bytes) : Bytes :=
  let rnd := padTo (matDraws t p (hssLevels p).length) rnd
  match typeParts t with
  | some (a, b) => freshPart a [] (rnd.take (partDraws a [] 0)) ++ freshPart b [] (rnd.drop (partDraws a [] 0))
  | none => freshPart t p rnd

/-- The random bytes S3 reserves for a key-store command (R392): the material of KEY_GENERATE and of a KEY_REPLACE in place, an IV of
KEY_WRAP, the encapsulation of KEY_EXPORT. The set of an XMSS or XMSS^MT key and the levels of an HSS key stand in an auxiliary buffer that is
not read yet: the most that its length allows is reserved. -/
def keyCmdDraws (x : Job) (k : Option KeyObj) : Nat :=
  match x.opcode with
  | 0x5001 =>
    if genType x = 0x41 || genType x = 0x42 then 96 else matDraws (genType x) (genParam x) (min 8 ((x.auxLen - 4) / 8))
  | 0x5004 => 12
  | 0x5006 => 32
  | 0x5007 => if x.param = 0 then (match k with | some k => matDraws k.type k.param (hssLevels k.param).length | none => 0) else 0
  | _ => 0

/-- The pairwise-consistency test of a key pair (log 3). -/
def pctOk (t : Nat) (mat pub : Bytes) : Bool := decide (t < 0x10) || Config.accepts 0x10A00 [leBytes 1 t, mat, pub]

/-- A fresh key object. -/
def mkKey (t : Nat) (p : List Nat) (pol : Policy) (mat pub : Bytes) : KeyObj :=
  { uid := 0, type := t, mat := mat, pub := pub, policy := pol, check := checkOf t pub mat, param := p
    len := mat.length, last := if stateful t then lastIndex t p else 0, opened := true }

/-- A use reserved for a command becomes a use (R126). -/
def State.spendUse (s : State) (j : Nat) : State :=
  match s.job? j with
  | none => s
  | some x =>
    match x.reserved, x.key with
    | true, some (slot, k) =>
      (s.modKey slot k.uid (fun k => { k with reserved := k.reserved - x.useCount, uses := min (k.uses + x.useCount) (2 ^ 64 - 1) })).modJob j
        (fun x => { x with reserved := false, used := true })
    | _, _ => s

/-- A command ends with a status after its computation. -/
def State.cmdFail (s : State) (j : Nat) (e : Nat × Nat) : State := s.doneErr j e.1 e.2

/-- A command ends OK without having computed with its key: the use reserved for it is returned (R126). -/
def State.doneFree (s : State) (j : Nat) (result : Bytes) : State := (s.unreserve j).done j result

/-- A command begins to compute with its key: a window that has closed since S3 ends it with KEY 0x0107 or 0x0108 and uses nothing
(R125). -/
def State.inWindow (s : State) (j : Nat) (k : KeyObj) (go : State) : State :=
  match k.windowErr s.glb.ptcLife.toNat with
  | some e => s.cmdFail j e
  | none => go

/-! ## A key-encryption key that a command names (R119 to R121, R126, R129) -/

/-- The key-encryption key a handle of a function names: checks 1 to 8 of R121 with an OPS bit, and a use left. The handle that
PARAM names is checked when the command executes, and its use counted then: the spec does not say where (log 134). -/
def State.kekAt (s : State) (f handle op : Nat) : Except (Nat × Nat) (Nat × KeyObj) :=
  match s.findKey f handle 0x5004 with
  | .error e => .error e
  | .ok (slot, k) =>
    if k.type ≠ 0x07 then .error (keyErr, 0x0104)
    else if !k.policy.op op then .error (keyErr, 0x0105)
    else
      match k.windowErr s.glb.ptcLife.toNat with
      | some e => .error e
      | none => if k.usesLeft 1 then .ok (slot, k) else .error (keyErr, 0x0106)

/-- A use of the key-encryption key is counted, and its material leaves the fill buffer. -/
def State.useKek (s : State) (slot uid : Nat) : State :=
  s.modKey slot uid (fun w => { w with uses := min (w.uses + 1) (2 ^ 64 - 1), inBuffer := false })

/-- A command goes on with the key-encryption key that a handle names, once its material is at hand: an evicted one is fetched from
the spool first (R129). `go` counts the use when it computes. -/
def State.withKek (s : State) (j : Nat) (x : Job) (handle op : Nat) (fail : State → Nat × Nat → State)
    (go : State → Nat → KeyObj → State) : State :=
  match s.kekAt x.fn handle op with
  | .error e => fail s e
  | .ok (slot, w) =>
    if isDwk handle || w.atHand then go s slot w
    else if !s.spoolHas w then fail s (spoolErr, 0x0141)
    else if x.phase = 1 then s
    else (s.fetchRecord slot).waitPhase j 1

/-! ## KEY_GENERATE, KEY_LOAD_PUBLIC -/

/-- KEY_GENERATE's parameter set and policy, once the input has been read (R124, R182, R183). -/
def genBlockErr (x : Job) : Option (Nat × Nat) :=
  let t := genType x
  let p := genParam x
  let lenOk := if t = 0x40 then x.auxLen = 4 + 4 * p.length else if stateful t then x.auxLen = 4 else true
  if stateful t && (!lenOk || (keySizes t p).isNone) then some (unsupportedErr, 0x0201)
  else if !policyClean x.block || (policyOf x.block).refused t (p.getD 0 0) then some (keyErr, 0x0109)
  else none

/-- KEY_GENERATE (R135): the last-level tree of a stateful key is built with it (R186). -/
def execKeyGenerate (job : Nat) (s : State) : Host.Outcome State Fault Refusal :=
  finish (match s.cmdJob job 0x5001 with
    | none => s
    | some x =>
      if x.phase ≠ 0 then s
      else
        let t := genType x
        let p := genParam x
        let pol := policyOf x.block
        match genBlockErr x with
        | some e => s.cmdFail job e
        | none =>
          if x.outCap < keyCmdOut x none then s.doneShort job (keyCmdOut x none)
          else s.generateOn job x t p pol.mask (fun s =>
            let mat := newMaterial t p x.rnd
            let pub := pubOf t p mat
            if !pctOk t mat pub then s.doneErr job keyErr 0x010B
            else
              match s.createKey x.fn { mkKey t p pol mat pub with tree := if stateful t then some 0 else none } with
              | .error e => s.cmdFail job e
              | .ok (s, slot) => s.created job slot (leBytes 4 (s.handleOf slot) ++ zeros 4 ++ pub)))

/-- The parameter list of a public-only object. -/
def pubParam (t : Nat) (b : Bytes) : List Nat :=
  if baseType t = 0x60 then [leAt b 0 4 / 8, leAt b 4 4]
  else if baseType t = 0x6B then [match [256, 384, 512, 768, 1024].idxOf? b.length with | some i => i + 1 | none => 0]
  else []

/-- KEY_LOAD_PUBLIC (R135): the scheme's public-key checks, the policy, then the object. A stored public key with m = 24 is not
supported (Table 6.15). -/
def execKeyLoadPublic (job : Nat) (s : State) : Host.Outcome State Fault Refusal :=
  finish (match s.cmdJob job 0x5002 with
    | none => s
    | some x =>
      if x.phase ≠ 0 then s
      else
        let t := fld x.param 0 8
        let b := x.block
        let p := pubParam t b
        match pubKeyErr t b with
        | some e => s.cmdFail job e
        | none =>
          if baseType t = 0x40 && lmsM (hssPubLms b) = 24 then s.doneErr job unsupportedErr 0x0201
          else if !policyClean x.auxData || (policyOf x.auxData).refused t (p.getD 0 0) then s.doneErr job keyErr 0x0109
          else
            match s.createKey x.fn (mkKey t p (policyOf x.auxData) b b) with
            | .error e => s.cmdFail job e
            | .ok (s, slot) => s.created job slot (leBytes 4 (s.handleOf slot)))

/-! ## Device blobs (Table 5.7) -/

/-- A device blob of a stored form under a wrapping key. -/
def blobOf (k : KeyObj) (key iv : Bytes) (underDwk : Bool) : Bytes :=
  let h := leBytes 4 0x42314B41 ++ leBytes 1 1 ++ leBytes 1 k.type ++ leBytes 2 (b2n underDwk) ++ leBytes 4 k.mat.length ++
    kcvOf 0x07 key ++ zeros 1 ++ k.policy.bytes ++ iv ++ zeros 4
  h ++ aeadSeal 0 key iv h k.mat 16

/-- A stored form of a type's length (R138): its parameter list. A public-only key is put through its check (DESIGN CHOICE, log 153). -/
def formParam (t : Nat) (mat : Bytes) : Option (List Nat) :=
  if pubOnly t then (if typeListed t && (pubKeyErr t mat).isNone then some (pubParam t mat) else none) else paramOf t mat

/-- The parameter lists of a stateful type that Table 6.15 supports, one for each stored size. -/
def statefulForms (t : Nat) : List (List Nat) :=
  if t = 0x40 then [[5, 1], [5, 1, 5, 1], [5, 1, 5, 1, 5, 1], [5, 1, 5, 1, 5, 1, 5, 1]]
  else if t = 0x41 then [[1], [0x0D]] else [[1], [0x21]]

/-- A length is a stored size of a type (R138): of a public-only type, of its public key. -/
def lenAllowed (t n : Nat) : Bool :=
  let b := baseType t
  if !typeListed t then false
  else if pubOnly t then
    if b = 0x60 then (List.range 32).any (fun e => decide (16 ≤ (n - 9 - e) / 8 ∧ (n - 9 - e) / 8 ≤ 256) && n = 8 + 8 * ((n - 9 - e) / 8) + (e + 1))
    else if b = 0x6B then [256, 384, 512, 768, 1024].contains n
    else if stateful b then (statefulForms b).any (fun p => (keySizes b p).any (fun z => z.pub = n))
    else (keySizes b []).any (fun z => z.pub = n)
  else if stateful t then (statefulForms t).any (fun p => (keySizes t p).any (fun z => z.stored = n))
  else (paramOf t (zeros n)).isSome

/-- What KEY_UNWRAP makes of a blob under a wrapping key (R138): type, parameters, policy, stored form. -/
def openBlob (b key : Bytes) (underDwk : Bool) : Except (Nat × Nat) (Nat × List Nat × Policy × Bytes) :=
  let t := leAt b 5 1
  let n := leAt b 8 4
  if decide (b.length < 80) || leAt b 0 4 ≠ 0x42314B41 || leAt b 4 1 ≠ 1 || decide (2 ≤ leAt b 6 2) || leAt b 0x0F 1 ≠ 0 ||
      leAt b 0x3C 4 ≠ 0 || b.length ≠ 80 + n || !lenAllowed t n then .error (inputErr, 1)
  else if bitOf (leAt b 6 2) 0 ≠ underDwk then .error (keyErr, 0x010C)
  else if slice b 0x0C 3 ≠ kcvOf 0x07 key then .error (keyErr, 0x010C)
  else
    match aeadOpen 0 key (slice b 0x30 12) (b.take 64) (b.drop 64) 16 with
    | none => .error (keyErr, 0x010C)
    | some mat =>
      match formParam t mat with
      | none => .error (inputErr, 1)
      | some p =>
        let pol := slice b 0x10 32
        if !policyClean pol || (policyOf pol).refused t (p.getD 0 0) then .error (keyErr, 0x0109)
        else .ok (t, p, policyOf pol, mat)

/-- The type whose key generation an entering key of a type runs again: its own, or its post-quantum part's (R134, R170, R178,
R181). -/
def regenType (t : Nat) : Option Nat :=
  match typeParts t with
  | some (a, _) => if regenerates a then some a else none
  | none => if regenerates t then some t else none

/-- Seal-island cycles of a wrap or an unwrap of `n` bytes (R134). -/
def wrapCycles (n : Nat) : Nat := 698 + ceilDiv n 16

/-- Cycles of opening a blob in the seal island, and of the regeneration on a spindle that its type asks for (R134). -/
def unwrapCost (t n mask : Nat) : Nat :=
  wrapCycles n + (match regenType t with | some g => atOrder mask ((genCycles g []).getD 0) | none => 0)

/-- A command opens a blob of a key in the seal island, and regenerates the key on a spindle where its type asks for it; CTIME sums
both (R134). -/
def State.unwrapOn (s : State) (j : Nat) (x : Job) (t n mask : Nat) (go : State → State) : State :=
  s.onUnits j x (if (regenType t).isSome then { mask := mask } else .seal) (fun s => (unwrapCost t n mask, s)) go

/-- KEY_UNWRAP (R138). -/
def execKeyUnwrap (job : Nat) (s : State) : Host.Outcome State Fault Refusal :=
  finish (match s.cmdJob job 0x5003 with
    | none => s
    | some x =>
      match x.key with
      | none => s
      | some (_, k) =>
        if x.phase ≠ 0 then s
        else s.inWindow job k (
          match openBlob x.block k.mat (isDwk x.handle) with
          | .error e => (s.spendUse job).cmdFail job e
          | .ok (t, p, pol, mat) => s.unwrapOn job x t mat.length pol.mask (fun s =>
            let s := s.spendUse job
            if !entryOk t mat then s.doneErr job keyErr 0x010B
            else
              match s.createKey x.fn (mkKey t p pol mat (pubOf t p mat)) with
              | .error e => s.cmdFail job e
              | .ok (s, slot) => s.created job slot (leBytes 4 (s.handleOf slot)))))

/-- The wraps made under a wrapping key of a function. -/
def State.wrapsOf (s : State) (f : Nat) (k : KeyObj) (underDwk : Bool) : Nat :=
  if underDwk then s.vigil.dwkWraps.getD f 0 else k.wraps

/-- Count a wrap (R137). -/
def State.countWrap (s : State) (f slot : Nat) (k : KeyObj) (underDwk : Bool) : State :=
  if underDwk then
    { s with vigil := { s.vigil with dwkWraps := s.vigil.dwkWraps.put 0 f (s.vigil.dwkWraps.getD f 0 + 1) } }
  else s.modKey slot k.uid (fun k => { k with wraps := k.wraps + 1 })

/-- KEY_WRAP (R136, R137). -/
def execKeyWrap (job : Nat) (s : State) : Host.Outcome State Fault Refusal :=
  finish (match s.cmdJob job 0x5004 with
    | none => s
    | some x =>
      match x.key with
      | none => s
      | some (_, k) =>
        let dwk := isDwk x.param
        match s.kekAt x.fn x.param 4 with
        | .error e => s.cmdFail job e
        | .ok (_, w0) =>
          if stateful k.type || k.policy.maxUses ≠ 0 || (!dwk && !k.policy.flag polExport) then s.doneErr job keyErr 0x010D
          else if 2 ^ 32 ≤ s.wrapsOf x.fn w0 dwk then s.doneErr job keyErr 0x0112
          else s.inWindow job k (s.withKek job x x.param 4 (fun s e => s.cmdFail job e) (fun s wslot w =>
            s.onUnits job x .seal (fun s => (wrapCycles k.mat.length, s)) (fun s =>
              (((s.spendUse job).useKek wslot w.uid).countWrap x.fn wslot w dwk).done job (blobOf k w.mat x.rnd dwk)))))

/-! ## Import and export (Table 5.8) -/

/-- The KWP key of a package: KMAC256 of the shared secret and the package's first 48 bytes (Table 5.5). -/
def kwpKey (shared pkg : Bytes) : Bytes := kmac 10 shared (pkg.take 0x30) 32

/-- Cycles of the ML-KEM step of an import (Table 6.8). -/
def decapsCycles (t : Nat) : Nat := [125000, 180000, 250000].getD (t - 0x10) 0

/-- KEY_IMPORT (R139). The seal-island cycles beside the ML-KEM step are not given: a free value. -/
def execKeyImport (job : Nat) (s : State) : Host.Outcome State Fault Refusal :=
  finish (match s.cmdJob job 0x5005 with
    | none => s
    | some x =>
      match x.key with
      | none => s
      | some (slot, k) =>
        if x.phase ≠ 0 then s
        else
          let b := x.block
          let t := leAt b 5 1
          let n := leAt b 8 4
          let c := leAt b 0x0C 4
          if decide (b.length < 0x30) || leAt b 0 4 ≠ 0x31494B41 || leAt b 4 1 ≠ 1 || leAt b 6 2 ≠ 0 ||
              c ≠ (if k.type = 0x11 then 1088 else 1568) || b.length ≠ 0x30 + c + 8 * ceilDiv n 8 + 8 || !lenAllowed t n then
            s.doneErr job inputErr 1
          else s.inWindow job k (s.onUnits job x
            { mask := k.policy.mask, warm := if k.sizes.cached ≤ 16384 then some (slot, k.uid) else none }
            (fun s => let (extra, s) := s.freeNum; (atOrder k.policy.mask (decapsCycles k.type) + extra, s)) (fun s =>
            let s := s.spendUse job
            let key := kwpKey (mlkemShared k.type k.mat (slice b 0x30 c)) b
            match aeadOpen 2 key [] [] (b.drop (0x30 + c)) 8 with
            | none => s.doneErr job keyErr 0x010C
            | some m =>
              let mat := m.take n
              let pol := slice b 0x10 32
              match formParam t mat with
              | none => s.doneErr job inputErr 1
              | some p =>
                if !policyClean pol || (policyOf pol).refused t (p.getD 0 0) then s.doneErr job keyErr 0x0109
                else if !entryOk t mat then s.doneErr job keyErr 0x010B
                else
                  match s.createKey x.fn (mkKey t p (policyOf pol) mat (pubOf t p mat)) with
                  | .error e => s.cmdFail job e
                  | .ok (s, slot) => s.created job slot (leBytes 4 (s.handleOf slot)))))

/-- A key of security category 5 (R140). -/
def KeyObj.category5 (k : KeyObj) : Bool :=
  let t := baseType k.type
  [0x03, 0x07, 0x12, 0x22, 0x4A, 0x63, 0x66, 0x68, 0x6A].contains t || (0x38 ≤ t && t ≤ 0x3B) ||
    (0x50 ≤ t && t ≤ 0x59) || (t = 0x60 && decide (240 ≤ k.param.getD 0 0))

/-- KEY_EXPORT (R139, R140): the recipient's key is checked as KEY_LOAD_PUBLIC does. -/
def execKeyExport (job : Nat) (s : State) : Host.Outcome State Fault Refusal :=
  finish (match s.cmdJob job 0x5006 with
    | none => s
    | some x =>
      match x.key with
      | none => s
      | some (_, k) =>
        let rt := if x.inLen = 1184 then 0x11 else 0x12
        if !k.policy.flag polExport then s.doneErr job keyErr 0x010D
        else if k.category5 && rt = 0x11 then s.doneErr job keyErr 0x010E
        else
          match pubKeyErr rt x.block with
          | some e => s.cmdFail job e
          | none => s.inWindow job k (s.onUnits job x {}
            (fun s => let (extra, s) := s.freeNum; ((if rt = 0x11 then 28000 else 40000) + extra, s)) (fun s =>
            let s := s.spendUse job
            let c := if rt = 0x11 then 1088 else 1568
            let enc := algoBytes (0x1110 + (rt - 0x0F)) [x.block, x.rnd] (c + 32)
            let h := leBytes 4 0x31494B41 ++ leBytes 1 1 ++ leBytes 1 k.type ++ zeros 2 ++ leBytes 4 k.mat.length ++
              leBytes 4 c ++ k.policy.bytes
            let key := kwpKey (enc.drop c) h
            s.done job (h ++ enc.take c ++ aeadSeal 2 key [] [] (padTo (8 * ceilDiv k.mat.length 8) k.mat) 8))))

/-! ## Replacement (Table 5.10) -/

/-- A replacement fails: its shadow is wiped, and its command ends with a status. -/
def State.replFail (s : State) (slot job major detail : Nat) : State :=
  let s := match s.key? slot with
    | some k =>
      match k.repl with
      | some r => (s.setKey slot k.replDone).wipeTwin slot k r
      | none => s
    | none => s
  s.doneErr job major detail

/-- A replacement has come to a step, with what its shadow half holds. -/
def State.setRepl (s : State) (slot uid : Nat) (r : Replacing) : State := s.modKey slot uid (fun k => { k with repl := some r })

/-- t4: the shadow record, then a commit record that names it, for a PERSIST key; otherwise the flip is next. -/
def State.replPersist (s : State) (slot : Nat) (k : KeyObj) (r : Replacing) : State :=
  if k.policy.flag polPersist then
    if s.primaryWritable then (s.setRepl slot k.uid { r with step := 4 }).commitWorks [.shadowRec slot r.job]
    else s.replFail slot r.job spoolErr (if s.primaryOpen then 0x0142 else 0x0141)
  else s.setRepl slot k.uid { r with step := 5 }

/-- The policy a replacement was admitted under (R127). -/
def Job.admittedPolicy (x : Job) (k : KeyObj) : Policy := match x.key with | some (_, y) => y.policy | none => k.policy

/-- t2 and t3: the shadow is verified, on entry as every private key is (R170, R178, R181), then mirrored where the policy asks for
it. A public-only object has no pair to test. -/
def State.replVerify (s : State) (slot : Nat) (k : KeyObj) (r : Replacing) (x : Job) : State :=
  let pub := pubOf k.type k.param r.mat
  let r := { r with step := 2, pub := pub, check := checkOf k.type pub r.mat }
  let kc := kcvOf k.type r.mat
  if !entryOk k.type r.mat || (!pubOnly k.type && !pctOk k.type r.mat pub) then s.replFail slot r.job keyErr 0x010B
  else if baseType k.type < 0x10 && x.auxLen = 3 && x.auxData ≠ kc then s.replFail slot r.job keyErr 0x010A
  else if (x.admittedPolicy k).flag polMirror then
    if s.plyUp then (s.setRepl slot k.uid { r with step := 3 }).plySend (.shadow (slot / 262144) (slot % 262144) r.mat)
    else s.replFail slot r.job conflictErr 0x0142
  else s.replPersist slot k r

/-- Where the pairwise-consistency test of a key pair runs, and the regeneration of one that enters as a blob: a spindle, the carder,
or both (R16, R134, R135). -/
def pctNeed (x : Job) (k : KeyObj) (mask : Nat) : FirmNeed :=
  if pubOnly k.type then .seal else { genNeed x k.type mask with fan := 1 }

/-- The cycles of the pairwise-consistency test of a shadow, which the spec does not give: a free number, beside the `more` that
filled it (log 131). A symmetric key and a public one have no such test. -/
def State.pctCost (s : State) (k : KeyObj) (more : Nat) : Nat × State :=
  if k.type < 0x10 || pubOnly k.type then (more, s)
  else let (n, s) := s.freeNum; (more + n + 1, s)

/-- t2 of a shadow read from the spool, on the units its test needs; while none is idle the replacement waits at t2. -/
def State.replTest (s : State) (slot : Nat) (k : KeyObj) (r : Replacing) (x : Job) : State :=
  let n := pctNeed x k (x.admittedPolicy k).mask
  if !n.spindle && !n.carder then s.replVerify slot k r x
  else s.onUnits r.job x n (fun s => s.pctCost k 0) (fun s => s.replVerify slot k r x)

/-- t1 from a blob: its type and length must be those of the key it replaces. -/
def replBlob (b : Bytes) (k w : KeyObj) (underDwk : Bool) : Option Bytes :=
  match openBlob b w.mat underDwk with
  | .ok (t, _, _, mat) => if t = k.type && mat.length = k.len then some mat else none
  | .error _ => none

/-- t1: the shadow is generated in place, read from the spool record, or unwrapped from the blob. -/
def State.replFill (s : State) (slot : Nat) (k : KeyObj) (r : Replacing) (job : Nat) (x : Job) : State :=
  let fail (s : State) (e : Nat × Nat) : State := s.replFail slot job e.1 e.2
  let pol := x.admittedPolicy k
  match ({ k with policy := pol } : KeyObj).windowErr s.glb.ptcLife.toNat with
  | some e => fail s e
  | none =>
    if x.param = 0 then
      s.generateOn job x k.type k.param pol.mask (fun s =>
        (s.spendUse job).replVerify slot k { r with mat := newMaterial k.type k.param x.rnd } x)
    else if x.param = 0xFFFFFFFF then
      match k.spoolRec with
      | some _ =>
        if s.spoolHas k then (((s.spendUse job).setRepl slot k.uid { r with step := 1 }).fetchRecord slot)
        else fail s (spoolErr, 0x0141)
      | none => fail s (keyErr, 0x010C)
    else
      s.withKek job x x.param 5 fail (fun s wslot w =>
        match replBlob x.block k w (isDwk x.param) with
        | none => fail ((s.spendUse job).useKek wslot w.uid) (keyErr, 0x010C)
        | some mat => s.onUnits job x (pctNeed x k pol.mask)
          (fun s => s.pctCost k (unwrapCost k.type mat.length pol.mask)) (fun s => ((s.spendUse job).useKek wslot w.uid).replVerify slot k { r with mat := mat } x))

/-- t0 of a replacement: the quota and the table have room for the shadow's run, which is allocated, and SHADOW_PENDING is 1 (Table
5.10). -/
def State.replStart (s : State) (job fn slot : Nat) (k : KeyObj) : Option State :=
  if s.entryQuota fn < s.entriesOf fn + k.run then none
  else
    match s.makeRoom [k.run] s.kst.keys.length with
    | (s, some [a]) =>
      some (s.modKey slot k.uid (fun k => { k.setThere (some a) with
        repl := some { job := job, step := 0, mat := [], pub := [], check := [] } }))
    | _ => none

/-- KEY_REPLACE (R141): t1 to t3 of a replacement whose t0 S3 has made (made here where S3 has not); and on again once a unit, the key-encryption key or the
spool's record that it waited for is there. -/
def execKeyReplace (job : Nat) (s : State) : Host.Outcome State Fault Refusal :=
  finish (match (s.takeGate job).cmdJob job 0x5007, s.takeGate job with
    | none, _ => s
    | some x, s =>
      match x.key with
      | none => s
      | some (slot, k0) =>
        match s.key? slot with
        | none => s.doneErr job keyErr 0x0103
        | some k =>
          if k.uid ≠ k0.uid then s.doneErr job keyErr 0x0103
          else
            match k.repl with
            | some r =>
              if r.job ≠ job then s.doneErr job 0x0F 0x0141
              else if r.step = 0 then s.replFill slot k r job x
              else if r.step = 2 then s.replTest slot k r x
              else s
            | none =>
              match s.replStart job x.fn slot k with
              | none => s.doneErr job resourceErr 0x0141
              | some s =>
                match s.key? slot with
                | some k => (k.repl.map (fun r => s.replFill slot k r job x)).getD s
                | none => s)

/-- KEY_ACTIVE_FLIP (t5): at a gap between admissions the new half becomes active; the old one goes with its last job (t6). -/
def execKeyActiveFlip (owner index : Nat) (s : State) : Host.Outcome State Fault Refusal :=
  finish (let slot := keySlot owner index
    match s.key? slot with
    | none => s
    | some k =>
      match k.repl with
      | some r =>
        if r.step = 5 then
          let out := if baseType k.type < 0x10 then kcvOf k.type r.mat else r.pub
          let s := s.setKey slot { k.flipTo r with repl := some { r with step := 6 } }
          let s := s.wipeKeyWarm k.uid
          let mirror := match s.job? r.job with | some x => (x.admittedPolicy k).flag polMirror | none => k.policy.flag polMirror
          let s := if mirror && r.job ≠ 0 then s.plySend (.flip owner index) else s
          let s := s.sealCycles r.job
        (s.modJob r.job (fun x => { x with
            result := out, resLen := out.length, major := 0, detail := 0, engine := s.cmdEngine x,
            fLate := s.lateNow x })).keySettle
        else s
      | none => s)

/-! ## KEY_DESTROY, KEY_PUBLIC, KEY_INFO, KEY_POLICY, KEY_PURGE -/

/-- KEY_DESTROY (R149): the slot was freed at admission; a PERSIST key's completion waits for its tombstone. -/
def execKeyDestroy (job : Nat) (s : State) : Host.Outcome State Fault Refusal :=
  finish (match s.cmdJob job 0x5008 with
    | none => s
    | some x =>
      match x.key with
      | none => s
      | some (slot, k) =>
        if x.phase ≠ 0 then s
        else
          let here := match s.key? slot with | some y => y.uid == k.uid | none => false
          let s := (if here then s.destroyKey slot else s).unreserve job
          if k.policy.flag polPersist then
            let s := s.modJob job (fun x => { x with phase := 2 })
            let s : State := { s with kst := { s.kst with tombs := s.kst.tombs ++ [(slot, job)] } }
            s.commitWorks [.tomb slot job ((k.spoolRec.map (·.1)).getD 0) x.handle]
          else s.done job [])

/-- KEY_PUBLIC. -/
def execKeyPublic (job : Nat) (s : State) : Host.Outcome State Fault Refusal :=
  finish (match s.cmdJob job 0x5009 with
    | none => s
    | some x =>
      match x.key with
      | none => s
      | some (_, k) => s.doneFree job k.pub)

/-- KEY_INFO: the header entry and PTC_LIFE (Table 5.6). -/
def execKeyInfo (job : Nat) (s : State) : Host.Outcome State Fault Refusal :=
  finish (match s.cmdJob job 0x500A with
    | none => s
    | some x =>
      match x.key with
      | none => s
      | some (slot, k) =>
        let k := match s.key? slot with | some y => if y.uid = k.uid then y else k | none => k
        s.doneFree job (s.headerBytes slot k ++ leBytes 16 s.glb.ptcLife.toNat))

/-- KEY_POLICY (R127), of a key that a KEY_DESTROY admitted since has taken from its slot too (R149). -/
def execKeyPolicy (job : Nat) (s : State) : Host.Outcome State Fault Refusal :=
  finish (match s.cmdJob job 0x500B with
    | none => s
    | some x =>
      match x.key with
      | none => s
      | some (slot, k0) =>
        match s.keyOf slot k0.uid with
        | none => s.doneErr job keyErr 0x0103
        | some k =>
          let n := policyOf x.block
          if !policyClean x.block || n.refused k.type (k.param.getD 0 0) || !n.narrows k.policy then
            s.doneErr job keyErr 0x0109
          else ((s.modKey slot k.uid (fun k => { k with policy := n })).armExpiry slot).doneFree job [])

/-- KEY_PURGE (R151): every key of a disabled strand goes as by KEY_DESTROY, those that a rebuild still owes included, and quarantine
ends. -/
def execKeyPurge (job : Nat) (s : State) : Host.Outcome State Fault Refusal :=
  finish (match s.cmdJob job 0x500C with
    | none => s
    | some x =>
      let f := fld x.param 0 10
      if x.phase ≠ 0 then s
      else if !s.vfEnabled f then s.doneErr job inputErr 0x0107
      else if (s.strand f).state ≠ .disabled then s.doneErr job conflictErr 0x0103
      else
        let mine := (s.kst.keys.filter (fun e => e.1 / 262144 = f))
        let owed := (s.kst.claimed.filter (fun e => e.1 / 262144 = f)).map (·.1)
        let kept := (mine.filter (fun e => e.2.policy.flag polPersist)).map (·.1) ++ owed
        if kept ≠ [] && !s.primaryWritable then
          s.doneErr job spoolErr (if s.primaryOpen then 0x0142 else 0x0141)
        else
          let handle (i : Nat) : Nat :=
            mkHandle f (i % 262144) ((s.kst.claimed.get? i).getD (s.epochOf i)).toNat
          let (ws, s) := kept.foldl (fun (a : List SplWork × State) i =>
            match ((a.2.key? i).bind (·.spoolRec)).map (·.1) with
            | some n => (a.1 ++ [.tomb i job n (handle i)], a.2)
            | none => let (n, s) := a.2.newRecno; (a.1 ++ [.tomb i job n (handle i)], s)) (([] : List SplWork), s)
          let s := s.each (mine.map (·.1)) State.destroyKey
          let s : State := { s with kst := { s.kst with
            epoch := (s.kst.claimed.keep (fun i _ => i / 262144 == f)).foldl (fun t e => Tbl.put t 0 e.1 (e.2 + 1)) s.kst.epoch
            claimed := s.kst.claimed.keep (fun i _ => i / 262144 != f)
            quarantine := s.kst.quarantine.keep (fun i _ => i / 262144 != f) } }
          let s := s.wipeWarm (fun i => i / 262144 = f)
          if kept = [] then s.done job []
          else
            let s : State := { s with kst := { s.kst with tombs := s.kst.tombs ++ kept.map (fun i => (i, job)) } }
            (s.modJob job (fun x => { x with phase := 2 })).commitWorks ws)

/-! ## Expiry, fetch, rebuild, errors -/

/-- KEY_EXPIRY: the KEYWIN entry of a key fires, and the key is marked expired when its NOT_AFTER has been reached (R125). -/
def execKeyExpiry (owner index : Nat) (s : State) : Host.Outcome State Fault Refusal :=
  finish (let slot := keySlot owner index
    match s.key? slot with
    | none => s
    | some k =>
      if k.policy.notAfter ≠ 0xFFFFFFFF && decide (k.policy.notAfter ≤ s.glb.ptcLife.toNat) then
        (s.setKey slot { k with expired := true }).dlRemove 4 (.keyExpiry owner index)
      else s.armExpiry slot)

/-- The ML-KEM part of a type, whose embedded hash each fetch of the key checks (R170). -/
def hashedKem (t : Nat) : Bool := (0x10 ≤ t && t ≤ 0x12) || t = 0x72 || t = 0x73

/-- The keys of a job at S3 whose material it waits for: its own, and the tweak key of AES-XTS. -/
def State.waited (s : State) (x : Job) : List (Nat × KeyObj) :=
  (x.key.toList ++ x.key2.toList).filter (fun e => match s.key? e.1 with | some k => k.uid = e.2.uid | none => false)

/-- KEY_FETCH_COMPLETE: the material of a missed key is in the fill buffer, and the job goes on at S3 with KEY_FETCHED set
(R130). An ML-KEM key whose embedded hash does not hold is UNUSABLE (R170). -/
def execKeyFetchComplete (job : Nat) (intact : Bool) (s : State) : Host.Outcome State Fault Refusal :=
  finish (match s.job? job with
    | none => s
    | some x =>
      match x.key with
      | none => s
      | some (slot, k0) =>
        if x.stage = .waiting .cache || x.stage = .waiting .spoolKey || x.fetching then
          let k := match s.key? slot with | some k => if k.uid = k0.uid then k else k0 | none => k0
          if (s.waited x).any (fun e => match s.key? e.1 with | some k => !k.atHand && !k.cached | none => false) then s
          else if !intact && hashedKem k.type then
            (s.modKey slot k.uid (fun k => { k with unusable := true })).refuse job integrityErr 0x0201 0
          else
            let s : State :=
              if x.stage = .waiting .spoolKey then
                { s with kst := { s.kst with cntMissSpool := satInc s.kst.cntMissSpool } }
              else { s with kst := { s.kst with cntMissHbm := satInc s.kst.cntMissHbm } }
            if x.fetching then s.modJob job (fun x => { x with fetching := false, fKeyFetched := true })
            else (s.leaveS3 job).modJob job (fun x => { x with stage := .s3, fKeyFetched := true })
        else s)

/-- NEXT, CEIL and BURNED of a rebuilt key: those of its header, or of its INDEX record, from whose CEIL on it signs. What lay between
the old NEXT, which is lost, and CEIL is burned: 1,279 indices at most (R148); how many is a free value (log 139). -/
def rebuiltIndex (h : Bytes) (rec : Option (Nat × Nat)) (n : Nat) : Nat × Nat × Nat :=
  match rec with
  | some (c, b) => (c, c, b + n % (min 1279 c + 1))
  | none => (leAt h 0x38 8, leAt h 0x40 8, leAt h 0x48 8)

/-- The object that a KEY record gives back: its header's fields, and what its stored form tells. -/
def rebuiltKey (r : KeyRecord) (uid hdr n : Nat) : KeyObj :=
  let h := r.header
  let t := leAt h 0 1
  let p := (formParam t r.form).getD []
  let (next, ceil, burned) := rebuiltIndex h r.indexRec n
  { uid := uid, type := t, mat := r.form, pub := pubOf t p r.form, param := p, len := leAt h 4 4
    policy := policyOf (slice h 0x10 32), uses := leAt h 0x30 8, next := next, ceil := ceil, burned := burned
    last := if stateful t then lastIndex t p else 0, check := slice h 0x50 32
    spoolRec := some (r.id.recno, r.id.version), recOk := true, unusable := !r.tagOk, hdr := hdr, halfA := none }

/-- The primary knows of a KEY record that a rebuild has read: its number and its VERSION (R289). -/
def State.sawRecord (s : State) (id : SpoolRec) : State :=
  match s.primaryPort with
  | some p => s.modPort p (fun x => { x with
      nextRec := max x.nextRec (id.recno % 2 ^ 56 + 1), vers := x.vers.put 0 id.recno (max (x.vers.getD id.recno 0) id.version) })
  | none => s

/-- PERSIST_REBUILD: a KEY record of the primary gives its slot back with the recorded EPOCH; its material stays on the spool
(R292, R488), its stateful key frozen where a save had frozen it (R324). A record whose tag fails ends the jobs that wait for it with
INTEGRITY 0x0701 (R290). No record: the rebuild has ended. The count of wraps under a key-encryption key starts again at 0, since no record
holds it (log 135). -/
def execPersistRebuild (rec : Option KeyRecord) (s : State) : Host.Outcome State Fault Refusal :=
  finish (if !s.kst.rebuild then s
    else
      match rec with
      | none => { s with kst := { s.kst with rebuild := false, claimed := [] } }
      | some r =>
        let slot := keySlot r.id.owner r.index
        if (s.kst.claimed.get? slot).isNone then s
        else
          let (n, s) := if r.indexRec.isSome then s.freeNum else (0, s)
          let (s, a) := s.makeRoom [1] s.kst.keys.length
          let k := { rebuiltKey r s.kst.nextUid ((a.bind (·.head?)).getD 0) n with savedAway := s.kst.frozenRecs.contains r.id.recno }
          let s : State := { s with kst := { s.kst with
            keys := s.kst.keys.insert slot k, nextUid := s.kst.nextUid + 1
            epoch := s.kst.epoch.put 0 slot (BitVec.ofNat 4 r.epoch), claimed := s.kst.claimed.erase slot } }
          let waits (x : Job) : Bool := x.stage = .waiting .spoolKey && x.key.isNone && x.fn == r.id.owner
          let named (x : Job) : Bool :=
            (x.handle :: x.handle2.toList).any (fun h => keySlot (handleOwner h) (handleIndex h) = slot)
          let s := (s.armExpiry slot).sawRecord r.id
          let s := if r.tagOk then s
            else s.each (s.jobsWhere (fun x => waits x && named x)) (fun s j => s.refuse j integrityErr 0x0701 0)
          s.each (s.jobsWhere waits) (fun s j => (s.leaveS3 j).modJob j (fun x => { x with stage := .s3 })))

/-- HBM_UNCORRECTABLE_ERROR on a header or material entry: UNUSABLE, and the jobs that meet it end with INTEGRITY 0x0141
(R131); the controller counts it and keeps the address of the first since its register was read (R485). -/
def execHbmUncorrectableError (owner index address : Nat) (s : State) : Host.Outcome State Fault Refusal :=
  finish (let held := bitOf s.hbm.errAddr.toNat 63
    let s : State := { s with hbm := { s.hbm with
      unc := satInc s.hbm.unc
      errAddr := if held then s.hbm.errAddr else BitVec.ofNat 64 (2 ^ 63 + fld address 6 29 * 64) } }
    let slot := keySlot owner index
    match s.key? slot with
    | none => s
    | some k =>
      let s := s.setKey slot { k with unusable := true }
      s.each (s.jobsWhere (fun x => (x.stage = .waiting .cache || x.stage = .waiting .spoolKey) && x.holds k.uid))
        (fun s j => s.refuse j integrityErr 0x0141 0))

end Sys2Proof.Machine
end

