-- ==== Sys2Proof/Machine/Profile.lean ====
section
/-! DEFINITION. What each job opcode of classes 0x1 to 0x4 and 0x6 to 0x8 is (chapters 6, 7 and 14): whether it is defined, its
unit, its key, its PARAM and length rules, its output size, its randomness, its masking order, its footprint, the check phase
on its public inputs, its cycles. -/

namespace Sys2Proof.Machine

/-! ## Opcodes (Tables 6.2, 7.1, 14.5) -/

/-- The tables define the opcode (R158, R200, R401). -/
def opDefined (x : Job) : Bool :=
  let o := x.opOp
  let p := x.opParam
  let two : Bool := o = 1 || o = 2
  match x.fam with
  | 0x11 | 0x12 | 0x21 => two && 1 ≤ p && p ≤ 3
  | 0x13 => two && p ≤ 9
  | 0x18 => two && p ≤ 2
  | 0x19 | 0x29 | 0x32 => two && 1 ≤ p && p ≤ 6
  | 0x1A | 0x2A | 0x33 | 0x43 | 0x81 | 0x82 => two && 1 ≤ p && p ≤ 2
  | 0x1B => two && 1 ≤ p && p ≤ 5
  | 0x22 => two && p ≤ 11
  | 0x23 | 0x24 | 0x25 | 0x34 | 0x42 | 0x61 => two && p = 0
  | 0x28 => two && p ≤ 2 && (o = 1 || 1 ≤ p)
  | 0x31 => o = 1 && 1 ≤ p && p ≤ 8
  | 0x41 => two && 1 ≤ p && p ≤ 7
  | 0x71 => 1 ≤ o && o ≤ 5 && p = 0
  | _ => false

/-- Where a job computes. -/
inductive OpUnit where
  | spindle | carder | both | aes | digest | rng
deriving DecidableEq, Repr

/-- The unit of a defined opcode; a CUSTOM job runs on a spindle (R226). -/
def opUnit (x : Job) : OpUnit :=
  match x.fam with
  | 0x18 | 0x19 | 0x1A | 0x1B | 0x28 | 0x29 | 0x2A | 0x71 => .carder
  | 0x81 | 0x82 => .both
  | 0x31 | 0x32 | 0x33 => .digest
  | 0x34 | 0x41 | 0x42 | 0x43 => .aes
  | 0x61 => .rng
  | _ => .spindle

/-- The job needs a spindle. -/
def needsSpindle (x : Job) : Bool := opUnit x = .spindle || opUnit x = .both
/-- The job needs a carder. -/
def needsCarder (x : Job) : Bool := opUnit x = .carder || opUnit x = .both

/-- Opcodes that take no key (Table 7.1, R217, R401). -/
def opKeyless (x : Job) : Bool :=
  match x.fam with
  | 0x19 | 0x1A | 0x1B => x.opOp = 2
  | 0x31 | 0x61 | 0x71 => true
  | _ => false

/-- Encapsulate, verify and RSA encrypt accept a public key: stored, or inline with KEY = 0 (R159, R160, R201). -/
def opPublic (x : Job) : Bool :=
  match x.fam with
  | 0x11 | 0x12 | 0x13 | 0x81 | 0x18 => x.opOp = 1
  | 0x21 | 0x22 | 0x23 | 0x24 | 0x25 | 0x28 | 0x29 | 0x2A | 0x82 => x.opOp = 2
  | _ => false

/-- The job's public key is inline. -/
def isInline (x : Job) : Bool := opPublic x && x.handle = 0

/-- The TYPE, TYPE[7] apart, of the key of an asymmetric opcode (Tables 6.2, 7.1). -/
def opType (x : Job) : Nat :=
  let p := x.opParam
  match x.fam with
  | 0x11 => 0x0F + p
  | 0x12 => 0x47 + p
  | 0x13 => 0x50 + p
  | 0x18 | 0x28 => 0x60
  | 0x19 | 0x29 => 0x60 + p
  | 0x1A => 0x68 + p
  | 0x1B => 0x6B
  | 0x21 => 0x1F + p
  | 0x22 => 0x30 + p
  | 0x23 => 0x40
  | 0x24 => 0x41
  | 0x25 => 0x42
  | 0x2A => 0x66 + p
  | 0x32 | 0x33 => 0x06
  | 0x42 => 0x04
  | 0x43 => 0x05
  | 0x81 => 0x71 + p
  | 0x82 => 0x6F + p
  | _ => 0

/-- A key's TYPE suits the opcode: check 6 of R121 (R159, R200, R219, R222). An FFDHE key suits the opcode of its group. -/
def typeSuits (x : Job) (k : KeyObj) : Bool :=
  match x.fam with
  | 0x34 => 1 ≤ k.type && k.type ≤ 3
  | 0x41 => 1 ≤ k.type && k.type ≤ 3
  | 0x33 => k.type = 0x06 && decide ((if x.opParam = 1 then 16 else 32) ≤ k.mat.length)
  | 0x1B => k.type = 0x6B && k.param.getD 0 0 = x.opParam
  | _ => baseType k.type = opType x && (opPublic x || !pubOnly k.type)

/-- The OPS bit of an opcode (Table 5.3). -/
def opBit (x : Job) : Nat :=
  match x.fam with
  | 0x19 | 0x1A | 0x1B => 6
  | 0x21 | 0x22 | 0x23 | 0x24 | 0x25 | 0x28 | 0x29 | 0x2A | 0x82 => if x.opOp = 1 then 2 else 3
  | 0x32 | 0x33 | 0x34 => if x.opOp = 1 then 7 else 8
  | _ => if x.opOp = 1 then 0 else 1

/-! ## PARAM (Tables 6.7, 6.9, 7.3, 7.10; R173, R187, R193, R196, R217) -/

/-- A digest's length in bytes (Table 6.10). -/
def phLen (ph : Nat) : Nat := [32, 48, 64, 32, 48, 64, 32, 64].getD (ph - 1) 0

/-- PH of a PARAM. -/
def phOf (x : Job) : Nat := fld x.param 16 8
/-- MODE of an ML-DSA or SLH-DSA PARAM, and VARIANT of EdDSA. -/
def modeOf (x : Job) : Nat := fld x.param 9 2

/-- Some of the bits of PARAM outside a mask of allowed bits is set. -/
def paramOver (x : Job) (allowed : Nat) : Bool := x.param &&& (0xFFFFFFFF - allowed) != 0

/-- TAGLEN of a MAC or AEAD job in bytes. -/
def tagLen (x : Job) : Nat :=
  match x.fam with
  | 0x32 => if fld x.param 0 8 = 0 then phLen x.opParam else fld x.param 0 8
  | 0x33 => fld x.param 8 16
  | 0x42 => 16
  | _ => fld x.param 0 8

/-- GEN_IV of an AEAD job. -/
def genIv (x : Job) : Bool :=
  x.opOp = 1 && ((x.fam = 0x41 && x.opParam = 4) || x.fam = 0x42) && bitOf x.param 8

/-- An authenticated cipher: AES-GCM or ChaCha20-Poly1305. -/
def isAead (x : Job) : Bool := (x.fam = 0x41 && x.opParam = 4) || x.fam = 0x42

/-- The check of PARAM at S3. -/
def opParamErr (x : Job) : Option (Nat × Nat) :=
  let verify := x.opOp = 2
  let p := x.opParam
  let res (allowed : Nat) : Option (Nat × Nat) := if paramOver x allowed then some (inputErr, 4) else none
  let must (ok : Bool) (d : Nat) : Option (Nat × Nat) := if ok then none else some (inputErr, d)
  let ph := phOf x
  let lo := fld x.param 0 8
  match x.fam with
  | 0x11 => res (if verify then 0 else 3)
  | 0x12 => res (if verify then 0 else 1)
  | 0x13 | 0x19 | 0x1A | 0x1B => res 0
  | 0x21 | 0x22 =>
    (res (0x00FF0600 + (if verify then 0 else 0x100) + 0xFF)).or
      (if modeOf x = 2 then must (x.fam = 0x21 && lo = 0 && ph = 0) 0x0202
       else if modeOf x = 0 then must (ph = 0) 0x0202
       else must (1 ≤ ph && ph ≤ 8) 0x0203)
  | 0x23 | 0x24 | 0x25 => if verify then none else res 0
  | 0x81 => (res (if verify then 0xC else 0xD)).or (must (fld x.param 2 2 ≤ 1) 4)
  | 0x82 => res (if verify then 0xFF else 0x1FF)
  | 0x18 =>
    (res 0x00FF00FF).or (must (if p = 2 then 1 ≤ ph && ph ≤ 6 else ph = 0 && lo = 0) 0x030E)
  | 0x28 =>
    (res 0x00FF01FF).or
      (must (if p = 0 then x.param = 0 else (1 ≤ ph && ph ≤ 6) && (p = 2 || lo = 0)) 0x030E)
  | 0x29 => (res 0x00FF0300).or (must ((1 ≤ ph && ph ≤ 8) && !(verify && bitOf x.param 9)) 0x030E)
  | 0x2A =>
    (res 0x000006FF).or
      (must (modeOf x ≤ 2 && (p = 2 || (if modeOf x = 0 then lo = 0 else modeOf x = 2 || 1 ≤ lo))) 0x030E)
  | 0x31 => (res 0xFFFF).or (must (if 7 ≤ p then x.param ≠ 0 else x.param = 0) 0x030E)
  | 0x32 => (res 0xFF).or (must (lo = 0 || (4 ≤ lo && lo ≤ phLen p)) 0x030E)
  | 0x33 => (res 0x01FFFFFF).or (must (4 ≤ tagLen x && !(verify && bitOf x.param 24)) 0x030E)
  | 0x34 => (res 0xFF).or (must (8 ≤ lo && lo ≤ 16) 0x030E)
  | 0x41 =>
    if p ≤ 3 then (res 1).or (must (p ≠ 1 || x.param = 0) 0x030E)
    else if p = 4 then (res (if verify then 0xFF else 0x1FF)).or (must (12 ≤ lo && lo ≤ 16) 0x030E)
    else if p = 5 then none
    else res 0
  | 0x42 => res (if verify then 0 else 0x100)
  | 0x43 => (res 1).or (must (p ≠ 1 || x.param = 0) 0x030E)
  | 0x61 => res (if verify then 0 else 1)
  | 0x71 =>
    must (!paramOver x 0x1FF && 1 ≤ rawL x && rawL x ≤ (if 4 ≤ x.opOp then 128 else 256)) 0x030B
  | _ => none

/-! ## Sizes -/

/-- ML-KEM ciphertext bytes. -/
def mlkemCt (p : Nat) : Nat := [768, 1088, 1568].getD (p - 1) 0
/-- HQC ciphertext bytes. -/
def hqcCt (p : Nat) : Nat := [4433, 8978, 14421].getD (p - 1) 0
/-- Classic McEliece ciphertext bytes. -/
def mcCt (p : Nat) : Nat := [96, 96, 156, 156, 208, 208, 194, 194, 208, 208].getD p 0
/-- n of an SLH-DSA set. -/
def slhN (p : Nat) : Nat := 16 + 8 * (p / 4)
/-- SLH-DSA signature bytes. -/
def slhSig (p : Nat) : Nat :=
  [7856, 7856, 17088, 17088, 16224, 16224, 35664, 35664, 29792, 29792, 49856, 49856].getD p 0
/-- Bytes of an LMS signature of a level (RFC 8554; log 20). -/
def lmsSigLen (l : Nat × Nat) : Nat := 12 + otsN l.2 * (otsP l.2 + 1) + lmsM l.1 * lmsHeight l.1
/-- Bytes of an HSS signature (RFC 8554; log 20). -/
def hssSigLen (p : List Nat) : Nat :=
  let ls := hssLevels p
  4 + (ls.map lmsSigLen).sum + ((ls.drop 1).map (fun l => 24 + lmsM l.1)).sum
/-- Chains of a Winternitz key of an XMSS set (w = 16). -/
def wotsLen (n : Nat) : Nat := if n = 24 then 51 else 67
/-- Bytes of an XMSS or XMSS^MT signature (RFC 8391; log 20). -/
def treeSigLen (t oid : Nat) : Nat :=
  match treeSet t oid with
  | some (n, h, d, _) => (if baseType t = 0x41 then 4 else ceilDiv h 8) + n + (h + d * wotsLen n) * n
  | none => 0
/-- Bytes of a shared secret of a hybrid job (Table 6.20). -/
def hybridK (x : Job) : Nat := if fld x.param 2 2 = 1 then 64 else 32
/-- Bytes of a hybrid ciphertext. -/
def hybridCt (p : Nat) : Nat := if p = 1 then 1120 else 1153
/-- Bytes of a public key of an opcode's type where the type alone fixes it. -/
def pubLen (x : Job) : Nat :=
  match x.fam with
  | 0x11 => ekLen (x.opParam + 1)
  | 0x12 => [2249, 4522, 7245].getD (x.opParam - 1) 0
  | 0x13 => mcPub.getD x.opParam 0
  | 0x21 => [1312, 1952, 2592].getD (x.opParam - 1) 0
  | 0x22 => 2 * slhN x.opParam
  | 0x81 => if x.opParam = 1 then 1216 else 1249
  | 0x82 => if x.opParam = 1 then 2017 else 1984
  | _ => 0
/-- Bytes of an FFDHE element. -/
def ffdheLen (p : Nat) : Nat := [256, 384, 512, 768, 1024].getD (p - 1) 0
/-- Bytes of an X25519 or X448 value. -/
def xLen (p : Nat) : Nat := if p = 1 then 32 else 56
/-- Bytes of an EdDSA signature. -/
def edSig (p : Nat) : Nat := if p = 1 then 64 else 114
/-- Bytes of a PQ signature job's message digest or representative, none when any length goes (R174). -/
def sigIn (x : Job) : Option Nat :=
  if modeOf x = 1 then some (phLen (phOf x)) else if modeOf x = 2 then some 64 else none
/-- CTX_LEN. -/
def ctxLen (x : Job) : Nat := fld x.param 0 8

/-! ## RSA keys of a job (Table 7.2, R201) -/

/-- The places at which the header of an inline RSA public key may stand in the auxiliary buffer: after the OAEP label, or behind
a signature of each length that AUX_LEN allows, the longer first (R201). -/
def rsaOffsets (x : Job) : List Nat :=
  if x.fam = 0x18 then [if x.opParam = 2 then ctxLen x else 0]
  else
    let a := x.auxLen
    ((List.range 17).map (fun i => (a - 9) / 2 - i)).filter (fun k => decide (2 * k + 9 ≤ a ∧ a ≤ 2 * k + 40))

/-- A header of NBYTES and EBYTES at offset `o` of the auxiliary buffer is one of Table 7.2, and fits AUX_LEN (R201). -/
def rsaHeaderOk (x : Job) (o n e : Nat) : Bool :=
  decide (128 ≤ n ∧ n ≤ 2048) && decide (n % 8 = 0) && decide (1 ≤ e ∧ e ≤ 32) && decide (x.auxLen = o + 8 + n + e) &&
    (x.fam = 0x18 || o = n)

/-- The modulus length that the header bytes read at S3 give, 8 for each place. None: INPUT 0x030F. -/
def rsaHeader (x : Job) (hdr : Bytes) : Option Nat :=
  let at_ (i : Nat) : Nat × Nat := (leAt hdr (8 * i) 4, leAt hdr (8 * i + 4) 4)
  if x.fam = 0x18 then
    match rsaOffsets x with
    | o :: _ => if rsaHeaderOk x o (at_ 0).1 (at_ 0).2 then some (at_ 0).1 else none
    | [] => none
  else
    match (rsaOffsets x).zipIdx.find? (fun p => (at_ p.2).1 = p.1 && (at_ p.2).2 = x.auxLen - 2 * p.1 - 8) with
    | some p => if rsaHeaderOk x p.1 (at_ p.2).1 (at_ p.2).2 then some p.1 else none
    | none => none

/-- Offset of an inline RSA public key in the auxiliary buffer (R201). None: no offset meets the rule. -/
def rsaOffset (x : Job) (aux : Bytes) : Option Nat :=
  if x.fam = 0x18 then (rsaOffsets x).head?
  else (rsaOffsets x).find? (fun k => leAt aux k 4 = k && leAt aux (k + 4) 4 = x.auxLen - 2 * k - 8)

/-- The RSA public key of a job in the layout of Table 7.2: its inline key, or its stored key's. -/
def rsaPub (x : Job) (k : Option KeyObj) (aux : Bytes) : Option Bytes :=
  if isInline x then
    match rsaOffset x aux with
    | some o => if rsaShape (aux.drop o) then some (aux.drop o) else none
    | none => none
  else k.map (·.pub)

/-- k of an RSA public key in the layout of Table 7.2. -/
def rsaBytes (b : Bytes) : Nat := leAt b 0 4
/-- The modulus. -/
def rsaN (b : Bytes) : Nat := ofBe (slice b 8 (rsaBytes b))
/-- The public exponent. -/
def rsaE (b : Bytes) : Nat := ofBe (slice b (8 + rsaBytes b) (leAt b 4 4))

/-- The longest message the padding of an RSA encryption or decryption allows. -/
def rsaMax (x : Job) (k : Nat) : Nat :=
  if x.opParam = 0 then k else if x.opParam = 1 then k - 11 else k - 2 * phLen (phOf x) - 2

/-! ## Lengths at S3 (R161, R201, R212, R219) -/

/-- The input and auxiliary lengths of an RSA job. -/
def rsaLenErr (x : Job) (k : Nat) : Option (Nat × Nat) :=
  let p := x.opParam
  let h := phLen (phOf x)
  if x.fam = 0x18 then
    let label := if p = 2 then ctxLen x else 0
    if x.opOp = 1 then
      if p = 0 && x.inLen ≠ k then some (inputErr, 1)
      else if !isInline x && x.auxLen ≠ label then some (inputErr, 2)
      else if p = 2 && k < 2 * h + 2 then some (inputErr, 0x030D)
      else if rsaMax x k < x.inLen then some (inputErr, 0x030D) else none
    else if x.inLen ≠ k then some (inputErr, 1) else if x.auxLen ≠ label then some (inputErr, 2) else none
  else
    let digest := bitOf x.param 8
    let salt := fld x.param 0 8
    if p = 0 && x.inLen ≠ k then some (inputErr, 1)
    else if digest && x.inLen ≠ h then some (inputErr, 1)
    else if x.opOp = 1 && x.auxLen ≠ 0 then some (inputErr, 2)
    else if x.opOp = 2 && !isInline x && x.auxLen ≠ k then some (inputErr, 2)
    else if p = 2 && !(x.opOp = 2 && salt = 0xFF) && k < salt + h + 2 then some (inputErr, 0x030D)
    else none

/-- The input length, the auxiliary length and the data lengths of a defined opcode whose sizes do not depend on an RSA key:
INPUT 1 and 2, and the details of Tables 7.14 and 14.12. -/
def opLenErr (x : Job) : Option (Nat × Nat) :=
  let inIs (n : Nat) : Option (Nat × Nat) := if x.inLen = n then none else some (inputErr, 1)
  let auxIs (n : Nat) : Option (Nat × Nat) := if x.auxLen = n then none else some (inputErr, 2)
  let auxMin (n : Nat) : Option (Nat × Nat) := if n ≤ x.auxLen then none else some (inputErr, 2)
  let block (ok : Bool) : Option (Nat × Nat) := if ok then none else some (inputErr, 0x030C)
  let p := x.opParam
  let one := x.opOp = 1
  let inl := if isInline x then pubLen x else 0
  match x.fam with
  | 0x11 => if one then (inIs (if bitOf x.param 1 then 32 else 0)).or (auxIs inl) else (inIs (mlkemCt p)).or (auxIs 0)
  | 0x12 => (inIs (if one then 0 else hqcCt p)).or (auxIs inl)
  | 0x13 => (inIs (if one then 0 else mcCt p)).or (auxIs inl)
  | 0x81 => (inIs (if one then 0 else hybridCt p)).or (auxIs inl)
  | 0x21 | 0x22 =>
    (match sigIn x with | some n => inIs n | none => none).or
      (auxIs ((if one then 0 else (if x.fam = 0x21 then mldsaSig p else slhSig p) + inl) + ctxLen x))
  | 0x23 | 0x24 | 0x25 =>
    if one then auxIs 0 else if isInline x then auxMin x.param else auxIs x.param
  | 0x82 => auxIs ((if one then 0 else 3373 + inl) + ctxLen x)
  | 0x18 | 0x28 => if isInline x then auxMin ((if x.fam = 0x18 && p = 2 then ctxLen x else 0) + 1) else none
  | 0x19 | 0x1A | 0x1B => (inIs 0).or (auxMin 1)
  | 0x29 =>
    let f := 2 * fieldLen (0x60 + p)
    (if bitOf x.param 8 then inIs (phLen (phOf x)) else none).or
      (if one then auxIs 0 else if isInline x then auxMin (f + 1) else auxIs f)
  | 0x2A =>
    if one then auxIs (ctxLen x)
    else if isInline x then auxMin (edSig p + ctxLen x + 1) else auxIs (edSig p + ctxLen x)
  | 0x31 => auxIs 0
  | 0x32 | 0x34 => auxIs (if one then 0 else tagLen x)
  | 0x33 => auxIs (fld x.param 0 8 + (if one then 0 else tagLen x))
  | 0x41 =>
    if p = 1 then (block (x.inLen % 16 = 0)).or (auxIs 0)
    else if p = 2 then (block (x.inLen % 16 = 0)).or (auxIs 16)
    else if p = 3 then auxIs 16
    else if p = 4 then (block (one || tagLen x ≤ x.inLen)).or (auxMin (if genIv x then 0 else 12))
    else if p = 5 then (block (16 ≤ x.inLen)).or (auxIs 16)
    else if p = 6 then (block (x.inLen % 8 = 0 && (if one then 16 else 24) ≤ x.inLen)).or (auxIs 0)
    else (block (if one then 1 ≤ x.inLen else x.inLen % 8 = 0 && 16 ≤ x.inLen)).or (auxIs 0)
  | 0x42 => (block (one || 16 ≤ x.inLen)).or (auxMin (if genIv x then 0 else 12))
  | 0x43 => (block (x.inLen % 8 = 0)).or (auxIs (if p = 2 then 8 else 0))
  | 0x61 =>
    (inIs 0).or ((if 256 < x.auxLen then some (inputErr, 2) else none).or
      (if one then (if 1 ≤ x.outCap && x.outCap ≤ 1048576 then none else some (inputErr, 0x0A01))
       else (if x.outCap = 0 then none else some (inputErr, 0x0A01))))
  | 0x71 => (inIs (rawInLen x.opOp (rawL x))).or (auxIs 0)
  | _ => none

/-- The result's length in bytes as S3 knows it from opcode, PARAM and key (R161, R201): of a decryption with padding, the
largest message the padding allows. `k` is the RSA modulus length. -/
def opOut (x : Job) (key : Option KeyObj) (k : Nat) : Nat :=
  let p := x.opParam
  let one := x.opOp = 1
  let par := match key with | some y => y.param | none => []
  match x.fam with
  | 0x11 => if one then mlkemCt p + 32 else 32
  | 0x12 => if one then hqcCt p + 64 else 64
  | 0x13 => if one then mcCt p + 32 else 32
  | 0x21 => if one then mldsaSig p else 0
  | 0x22 => if one then slhSig p else 0
  | 0x23 => if one then hssSigLen par else 0
  | 0x24 | 0x25 => if one then treeSigLen (opType x) (par.getD 0 0) else 0
  | 0x81 => if one then hybridCt p + hybridK x else hybridK x
  | 0x82 => if one then 3373 else 0
  | 0x18 => if one then k else rsaMax x k
  | 0x28 => if one then k else 0
  | 0x19 => (if one then 0 else 1 + 2 * fieldLen (0x60 + p)) + fieldLen (0x60 + p)
  | 0x1A => if one then xLen p else 2 * xLen p
  | 0x1B => if one then ffdheLen p else 2 * ffdheLen p
  | 0x29 => if one then 2 * fieldLen (0x60 + p) else 0
  | 0x2A => if one then edSig p else 0
  | 0x31 => if 7 ≤ p then fld x.param 0 16 else phLen p
  | 0x32 | 0x33 | 0x34 => if one then tagLen x else 0
  | 0x41 =>
    if p = 4 then (if one then (if genIv x then 12 else 0) + x.inLen + tagLen x else x.inLen - tagLen x)
    else if p ≤ 3 then x.inLen + (if bitOf x.param 0 then 16 else 0)
    else if p = 5 then x.inLen
    else if one then 8 * ceilDiv x.inLen 8 + 8 else x.inLen - 8
  | 0x42 => if one then (if genIv x then 12 else 0) + x.inLen + 16 else x.inLen - 16
  | 0x43 => x.inLen + (if bitOf x.param 0 then 8 else 0)
  | 0x61 => x.outCap
  | 0x71 => rawOutLen x.opOp (rawL x)
  | _ => 0

/-- A class 0x4 decryption that writes plaintext while it computes (R220). -/
def streams (x : Job) : Bool :=
  x.sub.isNone && x.opOp = 2 && (isAead x || (x.fam = 0x41 && (x.opParam = 6 || x.opParam = 7)))

/-! ## Randomness, masking, footprint, fan-out -/

/-- The job uses a private or secret key. -/
def opSecret (x : Job) : Bool := !opKeyless x && !opPublic x

/-- The masking order of a job (R163, R206, R217, R218): of an ephemeral agreement, 1. -/
def opMask (x : Job) (key : Option KeyObj) : Nat :=
  match x.fam with
  | 0x11 | 0x12 | 0x81 =>
    if x.opOp = 1 then (if bitOf x.param 0 then 1 else 0) else (key.map (·.policy.mask)).getD 0
  | 0x19 | 0x1A | 0x1B => if x.opOp = 2 then 1 else (key.map (·.policy.mask)).getD 0
  | _ => if opSecret x then (key.map (·.policy.mask)).getD 0 else 0

/-- A number of random bytes that the spec does not give: a function of the opcode, at most a frame buffer. -/
def openDraw (x : Job) : Nat := min (Config.count 0x10720 [leBytes 2 x.opcode, leBytes 4 x.param]) 16384

/-- Random bytes S3 reserves for a job from the frame buffer (R168, R175, R194, R196, R214, R221, R395). -/
def opDraws (x : Job) : Nat :=
  let det := bitOf x.param 8
  match x.fam with
  | 0x11 => if x.opOp = 1 && !bitOf x.param 1 then 32 else 0
  | 0x12 | 0x13 => if x.opOp = 1 then openDraw x else 0
  | 0x81 => if x.opOp = 1 then 32 + (if x.opParam = 1 then 32 else openDraw x % 16353) else 0
  | 0x21 => if x.opOp = 1 && !det then 32 else 0
  | 0x22 => if x.opOp = 1 && !det then slhN x.opParam else 0
  | 0x23 | 0x24 | 0x25 => if x.opOp = 1 then openDraw x else 0
  | 0x82 => if x.opOp = 1 && !det then 32 + (if x.opParam = 1 then openDraw x % 16353 else 0) else 0
  | 0x18 => if x.opOp = 1 && x.opParam ≠ 0 then openDraw x else 0
  | 0x28 => if x.opOp = 1 && x.opParam = 2 then fld x.param 0 8 else 0
  | 0x19 => if x.opOp = 2 then openDraw x else 0
  | 0x1A => if x.opOp = 2 then xLen x.opParam else 0
  | 0x1B => if x.opOp = 2 then [32, 40, 48, 56, 64].getD (x.opParam - 1) 0 else 0
  | 0x29 => if x.opOp = 1 && !bitOf x.param 9 then openDraw x else 0
  | 0x41 | 0x42 => if genIv x then 12 else 0
  | _ => 0

/-- The job needs randomness (R24). -/
def opRandom (x : Job) : Bool :=
  opSecret x || decide (0 < opDraws x) || x.fam = 0x61 || (x.opOp = 1 && (x.fam = 0x12 || x.fam = 0x13)) ||
    (opPublic x && decide (0 < opMask x none))

/-- Fan-out applies (Table 6.3). -/
def opFans (x : Job) : Bool := x.opOp = 1 && (x.fam = 0x21 || x.fam = 0x22 || x.fam = 0x82)

/-- Verify-after-sign may run: the bit group of FRM_VAS, 0 post-quantum, 1 carder (R248). -/
def opVas (x : Job) : Option Nat :=
  if x.opOp ≠ 1 then none
  else
    match x.fam with
    | 0x21 | 0x22 | 0x23 | 0x24 | 0x25 | 0x82 => some 0
    | 0x28 | 0x29 | 0x2A => some 1
    | _ => none

/-! ## The check phase (R160, R169, R187, R194, R209, Table 7.8) -/

/-- L of a classical job in words (R202). -/
def carderL (x : Job) (k : Nat) : Nat :=
  match x.fam with
  | 0x18 | 0x28 => ceilDiv k 8
  | 0x19 | 0x29 => ceilDiv (fieldLen (0x60 + x.opParam)) 8
  | 0x1A | 0x2A => if x.opParam = 1 then 4 else 7
  | 0x1B => ffdheLen x.opParam / 8
  | 0x71 => rawL x
  | _ => 4

/-- The carder's check phase covers a Weierstrass or Edwards point. -/
def checksPoint (x : Job) : Bool :=
  match x.fam with
  | 0x19 => true
  | 0x29 => isInline x
  | 0x2A => x.opOp = 2
  | 0x71 => 4 ≤ x.opOp
  | 0x81 | 0x82 => x.fam = 0x82 || x.opParam = 2
  | _ => false

/-- Cycles of the carder's check phase (R209). -/
def carderCheck (x : Job) (k : Nat) : Nat :=
  let L := carderL x k
  if checksPoint x then 1440 + 4 * L + 3 * L ^ 2 else 1200 + 4 * L

/-- The cycles of a job that its check phase ends. The spec gives no figure for an inline stateful key: a function of the
opcode. -/
def opCheckCycles (x : Job) (k : Nat) (e : Nat × Nat) : Nat :=
  match x.fam with
  | 0x11 => [1600, 2400, 3200].getD (x.opParam - 1) 0
  | 0x12 => 300
  | 0x23 | 0x24 | 0x25 => Config.count 0x10750 [leBytes 2 x.opcode]
  | 0x81 => if e = (inputErr, 0x0201) then 2400 else (if isInline x then 2400 else 0) + carderCheck x k
  | _ => carderCheck x k

/-- r and s of an ECDSA signature for keys of type `t` lie in 1 to the group order less 1 (Table 7.8). -/
def ecdsaRange (t : Nat) (sig : Bytes) : Bool :=
  let f := fieldLen t
  decide (ofBe (sig.take f) ≠ 0) && decide (ofBe (slice sig f f) ≠ 0) && Config.accepts (0x10D00 + t) [sig.take (2 * f)]

/-- R of an EdDSA signature of `n` bytes for keys of type `t` decodes, and S is below the group order (Table 7.8). -/
def edRange (t n : Nat) (sig : Bytes) : Bool :=
  Config.accepts (0x10B00 + t) [sig.take (n / 2)] && Config.accepts (0x10D00 + t) [slice sig (n / 2) (n / 2)]

/-- The first check of a job's public inputs that fails at the start of S5. -/
def opCheck (x : Job) (key : Option KeyObj) : Option (Nat × Nat) :=
  let aux := x.aux.getD []
  let inp := x.input.getD []
  let p := x.opParam
  let inl := isInline x
  match x.fam with
  | 0x11 | 0x12 => if inl then pubKeyErr (opType x) aux else none
  | 0x23 | 0x24 | 0x25 =>
    if inl then
      match statefulPubLen (opType x) (aux.drop x.param) with
      | none => some (unsupportedErr, 0x0201)
      | some n => if x.auxLen = x.param + n then none else some (inputErr, 0x0204)
    else if x.fam = 0x23 && x.opOp = 2 && decide (lmsM (hssPubLms ((key.map (·.pub)).getD [])) = 24) then
      some (unsupportedErr, 0x0201)
    else none
  | 0x81 =>
    if inl then pubKeyErr (opType x) aux
    else if x.opOp = 2 then
      (if p = 2 then pointErr 0x61 (inp.drop 1088)
       else if xPeerOk 0x69 (inp.drop 1088) then none else some (inputErr, 0x0307))
    else none
  | 0x82 => if inl then pubKeyErr (opType x) ((aux.drop 3373).take (pubLen x)) else none
  | 0x18 =>
    match rsaPub x key aux with
    | none => some (inputErr, 0x030F)
    | some b =>
      if !rsaValuesOk b then some (inputErr, 0x030F)
      else if (x.opOp = 2 || p = 0) && decide (rsaN b ≤ ofBe inp) then some (inputErr, 0x0301) else none
  | 0x28 =>
    match rsaPub x key aux with
    | none => some (inputErr, 0x030F)
    | some b =>
      if !rsaValuesOk b then some (inputErr, 0x030F)
      else if x.opOp = 2 then
        (if rsaN b ≤ ofBe (aux.take (rsaBytes b)) then some (verifyFail, 0x0302) else none)
      else if p = 0 && decide (rsaN b ≤ ofBe inp) then some (inputErr, 0x0301) else none
  | 0x19 => pointErr (0x60 + p) aux
  | 0x1A => pubKeyErr (0x68 + p) aux
  | 0x1B => if aux.length ≠ ffdheLen p then some (inputErr, 0x0305) else pubKeyErr 0x6B aux
  | 0x29 =>
    let f := fieldLen (0x60 + p)
    if x.opOp = 1 then none
    else
      (if inl then pointErr (0x60 + p) (aux.drop (2 * f)) else none).or
        (if ecdsaRange (0x60 + p) aux then none else some (verifyFail, 0x0302))
  | 0x2A =>
    if x.opOp = 1 then none
    else
      let n := edSig p
      let a := (aux.drop n).take (x.auxLen - n - ctxLen x)
      (if inl then pubKeyErr (0x66 + p) a else none).or
        (if edRange (0x66 + p) n aux then none else some (verifyFail, 0x0302))
  | 0x71 => rawErr x
  | _ => none

/-! ## Cycles (Tables 6.5, 6.8, 6.12, 6.14, 6.17 to 6.19, 6.21, 6.26, 7.5, 7.7, 7.9, 7.11; R490) -/

/-- Block size and cycles of a pre-hash function (Table 6.5). -/
def phBlock (ph : Nat) : Nat × Nat :=
  [(64, 68), (128, 90), (128, 90), (136, 26), (104, 26), (72, 26), (168, 26), (136, 26)].getD (ph - 1) (1, 0)

/-- Cycles that a message adds beyond its first 1,024 bytes. -/
def overMsg (n : Nat) (b : Nat × Nat) : Nat := ceilDiv (n - 1024) b.1 * b.2

/-- What the message of an ML-DSA or SLH-DSA job adds (Table 6.5). -/
def sigMsg (x : Job) : Nat :=
  let one := x.opOp = 1
  let p := x.opParam
  if modeOf x = 3 then overMsg x.inLen (phBlock (phOf x))
  else if modeOf x ≠ 0 then 0
  else if x.fam = 0x21 then overMsg x.inLen (136, 26)
  else if p % 2 = 1 then overMsg x.inLen (136, if one then 76 else 26)
  else if p < 4 then overMsg x.inLen (64, if one then 218 else 68)
  else overMsg x.inLen (128, if one then 300 else 90)

/-- ML-DSA signing phases of a set: set-up, attempt, encoding (Table 6.26). -/
def mldsaPhases (p : Nat) : Nat × Nat × Nat :=
  [(16000, 151500, 40000), (24000, 200000, 55104), (32000, 324000, 70000)].getD (p - 1) (0, 0, 0)

/-- The ML-DSA set of a signing job: of a composite, ML-DSA-65. -/
def mldsaSet (x : Job) : Nat := if x.fam = 0x82 then 2 else x.opParam

/-- A figure at masking order 1 of a SHA-256, n = 32 table row, for another hash or n. -/
def hashAdj (n : Nat) (shake : Bool) (c : Nat) : Nat := (if shake then c * 45 / 100 else c) * (if n = 24 then 8 else 10) / 10

/-- Signing cycles of a stateful key, for a signature that opens a new bottom tree or not (Table 6.17). -/
def statefulSign (k : KeyObj) (opens : Bool) : Nat :=
  if baseType k.type = 0x40 then
    match (hssLevels k.param).getLast? with
    | some l =>
      let w := (l.2 - 1) % 4
      let c := if opens then
          (if lmsHeight l.1 = 5 then [42000, 62000, 155000, 1330000].getD w 0 * 1000 / 32
           else [42000, 62000, 155000, 1330000].getD w 0 * 1000)
        else [35000, 45000, 90000, 665000].getD w 0
      hashAdj 32 (lmsShake l.1) c
    | none => 0
  else
    match treeSet k.type (k.param.getD 0 0) with
    | some (n, h, d, sh) =>
      hashAdj n sh (if d = 1 then (if h = 10 then 2600000 else if h = 16 then 3500000 else 4200000) else 2900000)
    | none => 0

/-- A big-endian type field of 4 bytes. -/
def beAt (b : Bytes) (off : Nat) : Nat := ofBe (slice b off 4)

/-- The type fields and the length of an HSS signature from its LMS signature at an offset on: `n` levels are left, the first
of them with the given LMS and LM-OTS types (RFC 8554; R185, log 20). -/
def hssWalk (b : Bytes) : Nat → Nat → Nat → Nat → Bool
  | 0, _, _, _ => false
  | n + 1, off, lms, ots =>
    let pathAt := off + 8 + otsN ots * (otsP ots + 1)
    let next := pathAt + 4 + lmsM lms * lmsHeight lms
    beAt b (off + 4) = ots && beAt b pathAt = lms && decide (next ≤ b.length) &&
      (if n = 0 then decide (next = b.length)
       else
         let lms2 := beAt b next
         hssWalk b n (next + 24 + lmsM lms2) lms2 (beAt b (next + 4)))

/-- The LMS and LM-OTS types of the last level of an HSS signature that `hssWalk` accepts. -/
def hssLast (b : Bytes) : Nat → Nat → Nat → Nat → Nat × Nat
  | n + 2, off, lms, ots =>
    let next := off + 12 + otsN ots * (otsP ots + 1) + lmsM lms * lmsHeight lms
    hssLast b (n + 1) (next + 24 + lmsM (beAt b next)) (beAt b next) (beAt b (next + 4))
  | _, _, lms, ots => (lms, ots)

/-- Verification cycles of a stateful job: by the last HSS level, which the stored private key or the signature names (Table 6.17).
A signature that names none ends with 0x0202; its figure, which the spec does not give, is a function of the public inputs. -/
def statefulVerify (x : Job) (key : Option KeyObj) : Nat :=
  let pub := if isInline x then (x.aux.getD []).drop x.param else (key.map (·.pub)).getD []
  if x.fam = 0x23 then
    let fig (ots : Nat) (sh : Bool) (n : Nat) : Nat := hashAdj n sh ([12000, 16000, 38000, 300000].getD ((ots - 1) % 4) 0)
    let sig := (x.aux.getD []).take x.param
    let held := match key with | some k => if pubOnly k.type then none else (hssLevels k.param).getLast? | none => none
    match held with
    | some l => fig l.2 (lmsShake l.1) (lmsM l.1)
    | none =>
      if hssWalk sig (hssPubLevels pub) 4 (hssPubLms pub) (hssPubOts pub) then
        let l := hssLast sig (hssPubLevels pub) 4 (hssPubLms pub) (hssPubOts pub)
        fig l.2 (lmsShake l.1) (lmsM l.1)
      else Config.count 0x10751 [pub, x.aux.getD []]
  else
    match treeSet (opType x) (treePubOid pub) with
    | some (n, h, d, sh) =>
      hashAdj n sh (if x.fam = 0x24 then (if h = 10 then 130000 else if h = 16 then 135000 else 140000) else 140000 * d)
    | none => 0

/-- What the message of a stateful job adds. -/
def statefulMsg (x : Job) (key : Option KeyObj) : Nat :=
  let pub := if isInline x then (x.aux.getD []).drop x.param else (key.map (·.pub)).getD []
  let sh :=
    if x.fam = 0x23 then lmsShake (hssPubLms pub)
    else match treeSet (opType x) (treePubOid pub) with | some (_, _, _, sh) => sh | none => false
  overMsg x.inLen (if sh then (136, 26) else (64, 68))

/-- A figure of Table 7.5 for a modulus of L words: between two rows, a value of its own between theirs. -/
def rsaFig (label L : Nat) (t : List (Nat × Nat)) : Nat :=
  match t.find? (fun r => r.1 = L) with
  | some r => r.2
  | none =>
    let lo := ((t.filter (fun r => r.1 < L)).getLast?.map (·.2)).getD 0
    let hi := ((t.find? (fun r => L < r.1)).map (·.2)).getD lo
    max lo (min hi (Config.count label [leBytes 2 L]))

/-- RSA private-operation cycles, order 1 (Table 7.5). -/
def rsaPrivate (L : Nat) : Nat :=
  rsaFig 0x10740 L [(16, 200000), (32, 1300000), (48, 4200000), (64, 9500000), (128, 72000000), (256, 560000000)]
/-- RSA public-operation cycles for an exponent of `b` bits (Table 7.5, R213). -/
def rsaPublic (L b : Nat) : Nat :=
  ceilDiv (rsaFig 0x10741 L [(16, 12000), (32, 40000), (48, 88000), (64, 150000), (128, 590000), (256, 2300000)] * (b + 1)) 18

/-- Bits of a number. -/
def bitsOf (n : Nat) : Nat := if n = 0 then 0 else Nat.log2 n + 1

/-- Agreement cycles of Table 7.7. -/
def agreeCycles (x : Job) : Nat :=
  match x.fam with
  | 0x19 => [240000, 650000, 1500000, 310000, 850000, 1800000].getD (x.opParam - 1) 0
  | 0x1A => [180000, 560000].getD (x.opParam - 1) 0
  | _ => [700000, 1900000, 4000000, 10000000, 20000000].getD (x.opParam - 1) 0

/-- Key-generation cycles of an agreement's curve or group (Table 7.7). -/
def agreeGen (x : Job) : Nat :=
  match x.fam with
  | 0x19 => [200000, 540000, 1250000, 250000, 690000, 1450000].getD (x.opParam - 1) 0
  | 0x1A => [150000, 470000].getD (x.opParam - 1) 0
  | _ => [700000, 1900000, 4000000, 10000000, 20000000].getD (x.opParam - 1) 0

/-- The bytes of left_encode or right_encode of a number (SP 800-185). -/
def encLen (n : Nat) : Nat := 1 + max 1 (ceilDiv (bitsOf n) 8)

/-- Seal-island cycles of a KMAC job, order 1 (R490). -/
def kmacCycles (x : Job) (keyLen : Nat) : Nat :=
  let rate := if x.opParam = 1 then 168 else 136
  let s := fld x.param 0 8
  let out := tagLen x
  let str (n : Nat) : Nat := encLen (8 * n) + n
  let name := if s = 0 then 0 else ceilDiv (6 + str s) rate + ceilDiv (str keyLen) rate
  let msg := ceilDiv (x.inLen + encLen (if bitOf x.param 24 then 0 else 8 * out) + 1) rate
  600 + 26 * (name + msg + (ceilDiv out rate - 1))

/-- Bytes of a hash's padding at the least: one and the length field, or one. -/
def padMin (ph : Nat) : Nat := [9, 17, 17, 1, 1, 1, 1, 1].getD (ph - 1) 1

/-- Seal-island cycles of a hash of `n` bytes and `out` bytes of output (Table 7.11). -/
def hashCycles (ph n out : Nat) : Nat :=
  let b := phBlock ph
  b.2 * (ceilDiv (n + padMin ph) b.1 + (if 7 ≤ ph then ceilDiv out b.1 - 1 else 0))

/-- Seal-island cycles of a cipher or CMAC job, order 1 (Table 7.11); the bytes that count at the AEAD rate are the model's choice
(DESIGN CHOICE, log 99). -/
def cipherCycles (x : Job) (t : Nat) : Nat :=
  let rounds := 8 + 2 * t
  let n := x.inLen
  let ad := if isAead x then x.auxLen else 0
  600 +
    (if x.fam = 0x34 then max 1 (ceilDiv n 16) * (rounds + 1)
     else if x.fam = 0x43 then ceilDiv n 8 * 49
     else if x.fam = 0x42 then ceilDiv (n + ad) 8
     else if x.opParam = 2 && x.opOp = 1 then ceilDiv n 16 * (rounds + 1)
     else if 6 ≤ x.opParam then ceilDiv n 8 * (6 * (rounds + 1))
     else ceilDiv (n + ad) 16)

/-- Cycles of a job that computes to its end, but for ML-DSA attempts, composite signatures and stateful signatures. None:
the spec gives a mean or no figure. `k` is the RSA modulus length in bytes, `eb` the exponent's bits. -/
def opCycles (x : Job) (key : Option KeyObj) (k eb : Nat) : Option Nat :=
  let p := x.opParam
  let one := x.opOp = 1
  let m1 := bitOf x.param 0
  let at_ (c : Nat) : Nat := atOrder x.mask c
  let check := if isInline x then opCheckCycles x 0 (inputErr, 0x0201) else 0
  match x.fam with
  | 0x11 =>
    some (if one then (if m1 then [48000, 70000, 100000] else [19000, 28000, 40000]).getD (p - 1) 0 + check
          else at_ (decapsCycles (0x0F + p)))
  | 0x12 =>
    some (if one then (if m1 then [600000, 1200000, 1970000] else [250000, 500000, 820000]).getD (p - 1) 0 + check
          else at_ ([600000, 1150000, 1900000].getD (p - 1) 0))
  | 0x13 =>
    some (if one then [110, 110, 230, 230, 400, 400, 390, 390, 510, 510].getD p 0 * 1000
          else at_ ([1400, 1400, 3600, 3600, 6000, 6000, 6200, 6200, 6800, 6800].getD p 0 * 1000))
  | 0x21 => if one then none else some ([70000, 110000, 180000].getD (p - 1) 0 + sigMsg x)
  | 0x22 =>
    some (if one then
        at_ ([400, 480, 22, 26, 560, 680, 36, 43, 740, 900, 75, 90].getD p 0 * 1000000 + sigMsg x)
      else [350, 420, 900, 1050, 500, 620, 1300, 1550, 750, 900, 1350, 1600].getD p 0 * 1000 + sigMsg x)
  | 0x23 | 0x24 | 0x25 => if one then none else some (statefulVerify x key + statefulMsg x key)
  | 0x81 =>
    some (if one then (if m1 then 73000 else 31000) + check + [330000, 440000].getD (p - 1) 0
          else at_ (183000 + [180000, 240000].getD (p - 1) 0))
  | 0x82 => if one then none else some (110000 + [300000, 230000].getD (p - 1) 0 + overMsg x.inLen (128, 90))
  | 0x18 => some (if one then rsaPublic (k / 8) eb else at_ (rsaPrivate (k / 8)))
  | 0x28 => some (if one then at_ (rsaPrivate (k / 8)) else rsaPublic (k / 8) eb)
  | 0x19 | 0x1A | 0x1B => some (if one then at_ (agreeCycles x) else agreeGen x + agreeCycles x)
  | 0x29 => if one then none else some ([300000, 820000, 1900000, 380000, 1050000, 2200000].getD (p - 1) 0)
  | 0x2A => some (if one then at_ ([200000, 650000].getD (p - 1) 0) else [230000, 720000].getD (p - 1) 0)
  | 0x31 => some (600 + hashCycles p x.inLen (fld x.param 0 16))
  | 0x32 => some (at_ (600 + hashCycles p x.inLen 0 + hashCycles p (phLen p) 0))
  | 0x33 => some (at_ (kmacCycles x ((key.map (·.mat.length)).getD 0)))
  | 0x34 | 0x41 | 0x42 | 0x43 => some (at_ (cipherCycles x ((key.map (·.type)).getD 0)))
  | 0x71 => some (rawCycles x.opOp (rawL x))
  | _ => none

end Sys2Proof.Machine
end

