-- ==== Sys2Proof/Machine/Modes.lean ====
section
/-! DEFINITION. Modes, reset and time (chapter 2): the power and reset events, gathering and t8 to t12, drains (R36, R108), RAW
(R403), and the manager's commands DRAIN to RAW_EXIT. -/

namespace Sys2Proof.Machine

/-! ## Power and reset (R43, R44, R463, R464) -/

/-- POWER_ON: the rails rise; the device is held in reset, and its next start is a power-on reset. -/
def execPowerOn (s : State) : Host.Outcome State Fault Refusal :=
  finish (if s.pins.mainPower then s
    else { s.coldReset with pins := { s.coldReset.pins with mainPower := true, pwrOk := true, perst := true, onCell := false } })

/-- The device is held in reset with PERST_N asserted, and the link is down (R44). A power-on reset whose start has not run yet
keeps its cause; another start becomes that of a PERST_N reset. -/
def State.assertPerst (s : State) : State :=
  let t : State := if s.glb.phase = .held then
      { s with glb := { s.glb with nextCause := if s.glb.nextCause = 0 then 0 else 1 } }
    else s.warmReset 1
  { t with
    pins := { t.pins with perst := true, armed := false }
    host := { t.host with width := 0, speed := 0, flit := false, bar0 := 0, bar2 := 0, command := 0 } }

/-- PWR_OK_LOW: treated as PERST_N asserted (R464); it ends a thermal trip, after which the start is a power-on reset (R476). -/
def execPwrOkLow (s : State) : Host.Outcome State Fault Refusal :=
  finish (if s.pins.mainPower then
      let t := if s.glb.tripped then s.coldReset else s.assertPerst
      { t with pins := { t.pins with pwrOk := false, perst := true, thermTrip := false } }
    else s)

/-- PERST_N_ASSERT (R43, R44). -/
def execPerstNAssert (s : State) : Host.Outcome State Fault Refusal :=
  finish (if s.pins.mainPower then s.assertPerst else s)

/-- PERST_N_RELEASE: reset is released and KINDLE runs (Table 2.7). After a device reset it is the release of that reset. -/
def execPerstNRelease (env : KindleEnv) (s : State) : Host.Outcome State Fault Refusal :=
  finish (if s.pins.mainPower && s.glb.phase = .held && !s.glb.tripped then s.kindle env else s)

/-- MAIN_POWER_LOSS: everything but OTP and what the cell holds is lost, and the device is in VIGIL (R464); a transition that was
programming OTP leaves the byte in progress cut short (R426). -/
def execMainPowerLoss (s : State) : Host.Outcome State Fault Refusal :=
  finish (if s.pins.mainPower then
      let t := if s.pins.cell then s.cutOtp.coldReset else s.cutOtp.coldReset.loseVigil
      { t with
        pins := { t.pins with mainPower := false, pwrOk := false, perst := true, onCell := t.pins.cell, thermTrip := false }
        glb := { t.glb with phase := .vigil, mode := 0x0F } }
    else s)

/-- GLB_RESET_WRITE: 0x0000_9528 starts a device reset; other values are ignored (Table 2.2). -/
def execGlbResetWrite (value : W32) (s : State) : Host.Outcome State Fault Refusal :=
  finish (if s.barsOpen && value = 0x9528 then s.deviceReset 2 else s)

/-- PF_FLR: carried out as a device reset (Table 2.6). -/
def execPfFlr (s : State) : Host.Outcome State Fault Refusal :=
  finish (if s.barsOpen then s.deviceReset 3 else s)

/-- FAIL_STOP: an uncorrectable error in control state enters HALTED with cause 2 (Table 2.6, R88). -/
def execFailStop (s : State) : Host.Outcome State Fault Refusal :=
  finish (if s.awake then s.haltDevice 2 else s)

/-- REFCLK_LOSS: PTC_BOOT goes on from the other source without a jump (R51). -/
def execRefclkLoss (present : Bool) (s : State) : Host.Outcome State Fault Refusal :=
  finish (let s : State := { s with pins := { s.pins with refclk := present } }
    if s.awake then { s with glb := { s.glb with osc := !present, oscUsed := s.glb.oscUsed || !present } } else s)

/-- PTC_LIFE_CHECKPOINT: PTC_LIFE goes to vigil RAM every second of powered time (R52). -/
def execPtcLifeCheckpoint (s : State) : Host.Outcome State Fault Refusal :=
  finish (if s.ticking && s.tmp.loaded then
      let s := (s.dlRemove 7 .ptcLifeCheckpoint).dlInsert 7 (s.now + 1000000) .ptcLifeCheckpoint
      { s with vigil := { s.vigil with life := s.glb.ptcLife, lifeOk := true } }
    else s)

/-! ## Gathering, t8 to t12 (Table 2.7) -/

/-- GATHER_TIMEOUT: gathering unfinished 40 ms into t8 enters UNSEEDED; gathering goes on (R46). -/
def execGatherTimeout (s : State) : Host.Outcome State Fault Refusal :=
  finish (if s.live && s.glb.phase = .gather && s.rng.state = 0 && decide (s.rng.startAt + 40000 ≤ s.now) then
      { s with glb := { s.glb with unseeded := true } }
    else s)

/-- t9: the DRS of a first start (R49, R50). -/
def State.gatherT9 (s : State) (env : GatherEnv) : State :=
  let s : State := { s with glb := { s.glb with step := 9 } }
  if s.otp.drs0.kind = 1 || s.otp.drs1.kind = 1 then s
  else
    let s : State := { s with glb := { s.glb with firstStart := true } }
    let (s, spoiled) :=
      if s.otp.drs0.kind = 0 then
        let (b, s) := s.drawDrs
        let v : Byte := if env.slot0Spoils then 0xFF else 0xA5
        (({ s with otp := { s.otp with drs0 := { data := b, valid := v } } } : State), env.slot0Spoils)
      else (s, true)
    if !spoiled then s
    else
      let s : State := { s with glb := { s.glb with drsSlot0Spoiled := true } }
      let (b, s) := s.drawDrs
      let v : Byte := if env.slot1Spoils then 0xFF else 0xA5
      let s : State := { s with otp := { s.otp with drs1 := { data := b, valid := v } } }
      if env.slot1Spoils then s.kindleFail 2 else { s with glb := { s.glb with drsSlot := true } }

/-- t10: the epoch nonce when absent, with an empty key table (R132, R488); the storage root and the HBM keys. -/
def State.gatherT10 (s : State) : State :=
  let s : State := { s with glb := { s.glb with step := 10 } }
  if s.glb.zeroized then s
  else
    let s : State := match s.vigil.nonce with
      | some _ => { s with kst := { s.kst with rebuildDue := s.kst.rebuildDue || s.glb.cause = 0 } }
      | none =>
        let (b, s) := s.drawT 32
        { s with
          vigil := { s.vigil with nonce := some b, rootEpoch := s.vigil.rootEpoch + 1, dwkWraps := [] }
          kst := { nextUid := s.kst.nextUid }
          glb := { s.glb with epochNew := true } }
    { s with glb := { s.glb with root := !s.glb.debug }, hbm := { s.hbm with xts := true } }

/-- A port is probed at t11. A cartridge paired to the device opens its session with the handshake of Table 10.3, whose t1 payload and
signature `shake` gives; one whose link or session fails (outcome 8) leaves the port FAILED, and the event says so (R46, R286,
R293). -/
def State.probeAtBoot (s : State) (shakes : List (Port × Bytes × Bytes)) (e : Port × SpoolReport) : State :=
  let (p, r) := e
  let s := s.modPort p (fun x => { x with
    pres := true, state := min r.outcome 5, serial := r.serial, mine := decide (5 ≤ r.outcome) })
  if r.outcome = 8 then s.splFailed p 0x0701
  else if r.outcome = 5 then
    let (t1, sig) := ((shakes.find? (fun h => h.1 = p)).map (·.2)).getD ([], [])
    let s := (((s.startShake p false none).splAnswered p).sessionKeys p t1 sig).sendSpl p .finish
    ((s.splAnswered p).modPort p (fun x => { x with keys := x.keys.take 64, h3 := [], finish := [] })).splOpened p r
  else s

/-- What t11 finds on the ports, the higher SW_SEQ first, which wins where vigil RAM names no primary (R285). -/
def bootPorts (l : List (Port × SpoolReport)) : List (Port × SpoolReport) :=
  let l := l.filter (fun e => decide (2 ≤ e.2.outcome ∧ e.2.outcome ≤ 5) || e.2.outcome = 8)
  match l with
  | [x, y] => if x.2.swSeq < y.2.swSeq then [y, x] else [x, y]
  | _ => l.take 1

/-- The largest of some checkpoints. -/
def maxOpt (l : List (Option Nat)) : Option Nat :=
  l.foldl (fun m x => match m, x with
    | none, x => x
    | some a, none => some a
    | some a, some b => some (max a b)) none

/-- t11: spools, PTC_LIFE and BOOTS reconciled (R52, R53). With equal checkpoints LIFE_SRC reports the vigil's: the spec gives
only their maximum (log 125). With none of either, PTC_LIFE restarts at 0 now. A provisional BOOTS has counted this KINDLE and
those before it since vigil RAM was lost, so that it is added to the mirror (log 125). -/
def State.gatherT11 (s : State) (env : GatherEnv) : State :=
  let s : State := { s with glb := { s.glb with step := 11 } }
  let s := (bootPorts env.ports).foldl (fun s e => s.probeAtBoot env.shakes e) s
  let opens := bothPorts.filter (fun p => (s.port p).state = 6)
  let spool := maxOpt (opens.map (fun p => (s.port p).ckpt))
  let mirror := maxOpt (opens.map (fun p => (s.port p).mirror))
  let elapsed := s.now / 1000000
  let vig := if s.glb.lifeSeen then some (s.glb.ptcLife.toNat - elapsed) else none
  let base := maxOpt [vig, spool]
  let life : W32 := match base with
    | some b => BitVec.ofNat 32 (min (b + elapsed) 0xFFFFFFFF)
    | none => 0
  let src : BitVec 2 := match vig, spool with
    | some a, some b => if a < b then 1 else 0
    | some _, none => 0
    | none, some _ => 1
    | none, none => 2
  let boots : W32 := match s.vigil.bootsProv, mirror with
    | true, some m => BitVec.ofNat 32 (min (m + s.glb.boots.toNat) 0xFFFFFFFF)
    | _, _ => s.glb.boots
  let s : State := { s with
    glb := { s.glb with
      ptcLife := life, lifeSrc := src, boots := boots, bootsRestarted := s.vigil.bootsProv && mirror.isNone }
    vigil := { s.vigil with boots := boots, life := life, lifeOk := true, bootsProv := false } }
  s.deviceRecord .boots

/-- Steps t9 to t11 draw from instance T: for the DRS, the epoch nonce or a session (R49, R132, R392). -/
def State.gatherDraws (s : State) (env : GatherEnv) : Bool :=
  (s.otp.drs0.kind ≠ 1 && s.otp.drs1.kind ≠ 1) || s.vigil.nonce.isNone || (bootPorts env.ports).any (fun e => e.2.outcome = 5)

/-- t12: SERVICE; rings are accepted (R37). The spool checkpoints, sweeps and scans begin. -/
def State.gatherT12 (s : State) : State :=
  let scrapped := s.lcs.state = 0xC3
  let s : State := { s with glb := { s.glb with
    step := 12, phase := .running, unseeded := false
    ringsOpen := scrapped || (!s.glb.zeroized && !s.glb.debug) } }
  let s := s.dlInsert 5 (s.now + 60000000) .spoolCheckpoint
  let s := s.dlInsert 7 (s.now + 3600000000) .mchkWindowSweep
  let s := s.dlInsert 7 (s.now + 1000) (.cappingInterval 0 0)
  s.dlInsert 7 (s.now + 10) .waitForScan

/-- GATHER_COMPLETE: STARTUP of the entropy island has ended, and t9 to t12 run; after RAW_EXIT they find nothing to do. -/
def execGatherComplete (env : GatherEnv) (s : State) : Host.Outcome State Fault Refusal :=
  finish (if s.live && s.glb.phase = .gather && s.rngRuns && (s.glb.ringsOpen || !s.gatherDraws env || s.serves 4) then
      if s.glb.ringsOpen then ({ s with glb := { s.glb with phase := .running, unseeded := false } } : State).wakeT
      else
        let s := s.gatherT9 env
        if s.glb.halted then s else (s.gatherT10.gatherT11 env).gatherT12
    else s)

/-! ## Drains (R36, R108, R429) -/

/-- Everything fetched on every ring but the manager's administrative ring has retired. -/
def State.drained (s : State) : Bool :=
  let other (f r : Nat) : Bool := !(f == 0 && r == 0)
  s.jobs.all (fun e => !other e.2.fn e.2.ring) && s.hdl.ready.all (fun t => !other t.fn t.ring) &&
    (List.range 4).all (fun f => (s.frame f).parse.all (fun t => !other t.fn t.ring)) &&
    s.rings.all (fun e => e.1 == 0 || e.2.reading.isEmpty)

/-- The island enters RAW (R403): instances, reservoir, buffers and mask seeds wiped. -/
def State.enterRaw (s : State) : State :=
  { s with
    rng := { s.rng with state := 4, insts := [], res := [], acc := [], bufs := [], instantiated := 0 }
    glb := { s.glb with unseeded := false }
    creels := s.creels.each (fun _ c => { c with maskSeed := [] }) }

/-- POWER_DOWN_PREP after its drain: both checkpoints, the coalesced writes and the BOOTS mirror (R109). -/
def State.powerDownWrite (s : State) (j : Nat) : State :=
  let ps := bothPorts.filter (fun p => (s.port p).takesDevice)
  let note := ps.foldl (fun n p => n + 2 ^ portNo p) 0
  let s : State := { s with vigil := { s.vigil with life := s.glb.ptcLife, lifeOk := true, boots := s.glb.boots } }
  let s := (s.leaveS3 j).modJob j (fun x => { x with phase := 2, note := note })
  let s := s.eachPort ps (fun s p => s.stageAt p [.ckpt, .boots])
  s.powerDownEnd

/-- The drain ends for a command that waited for it, which leaves DRAIN for its target mode; the drain of a life-cycle transition
goes on beside it, to the reset (R429). -/
def State.leaveDrain (s : State) : State :=
  { s with glb := { s.glb with drain := if s.glb.drain = .lifeCycle then .lifeCycle else .none } }

/-- The drain has ended: the transition and the waiting commands proceed. -/
def State.drainEnd (s : State) : State :=
  let ws := s.glb.drainWaiters
  let s : State := { s with
    glb := { s.glb with drainWaiters := [] }
    lcs := { s.lcs with run := s.lcs.run.map (fun r => { r with at_ := max r.at_ 1 }) } }
  s.each ws (fun s j =>
    match s.job? j with
    | none => s
    | some x =>
      if x.opcode = 0xF201 then s.done j []
      else if x.opcode = 0xF203 then s.powerDownWrite j
      else if x.opcode = 0xF205 then
        let s := s.leaveDrain
        ({ s with glb := { s.glb with raw := true } } : State).enterRaw.done j []
      else if x.opcode = 0xF301 then
        let s := s.leaveDrain
        ({ s with glb := { s.glb with update := true } } : State).waitPhase j 2
      else s)

/-- A drain in force ends when nothing is left to drain. -/
def State.drainCheck (s : State) : State := if s.glb.drain ≠ .none && s.drained then s.drainEnd else s

/-- A command enters DRAIN, which GLB_MODE reports even where nothing is left to drain (Table 2.1), and waits for its end. A
drain in force for another reason stays what it is; one that only a load or RAW began is from now on that of DRAIN. -/
def State.startDrain (s : State) (j : Nat) (why : DrainFor) : State :=
  let stands := s.glb.drain = .standalone || s.glb.drain = .powerDown
  let keep := s.glb.drain = .lifeCycle || stands || (s.glb.drain ≠ .none && (why = .update || why = .raw))
  let under := s.glb.drain = .lifeCycle && (why = .standalone || why = .powerDown)
  let s : State := { s with glb := { s.glb with
    drain := if keep then s.glb.drain else why, drainWaiters := s.glb.drainWaiters ++ [j]
    drainUnder := if under then why else s.glb.drainUnder } }
  (s.waitPhase j 1).settle.drainCheck

/-- DRAIN_COMPLETE: the last fetched job has retired. -/
def execDrainComplete (s : State) : Host.Outcome State Fault Refusal := finish s.drainCheck

/-- DRAIN (R108, R35). -/
def execDrain (job : Nat) (s : State) (hwChange : Bool := false) : Host.Outcome State Fault Refusal :=
  finish (match s.cmdJob job 0xF201 with
    | none => s
    | some x => s.unlessHw job hwChange x (if x.phase = 0 then s.startDrain job .standalone else s))

/-- RESUME (R108): ends a standalone drain, that of POWER_DOWN_PREP included (R109); otherwise no effect. -/
def execResume (job : Nat) (s : State) (hwChange : Bool := false) : Host.Outcome State Fault Refusal :=
  finish (match s.cmdJob job 0xF202 with
    | none => s
    | some x => s.unlessHw job hwChange x
      ((if s.glb.drain = .standalone || s.glb.drain = .powerDown then
        { s with glb := { s.glb with drain := .none } } else s).done job []))

/-- POWER_DOWN_PREP (R109). -/
def execPowerDownPrep (job : Nat) (s : State) (hwChange : Bool := false) : Host.Outcome State Fault Refusal :=
  finish (match s.cmdJob job 0xF203 with
    | none => s
    | some x =>
      if x.outCap < 16 then s.doneShort job 16
      else s.unlessHw job hwChange x
        (if x.phase = 0 then s.startDrain job .powerDown
        else if x.phase = 2 then s.powerDownEnd
        else s))

/-- DEVICE_RESET (R110): the reset follows the completion. -/
def execDeviceReset (job : Nat) (s : State) (hwChange : Bool := false) : Host.Outcome State Fault Refusal :=
  finish (match s.cmdJob job 0xF204 with
    | none => s
    | some x =>
      if x.param ≠ 0x9528 then s.doneErr job inputErr 4
      else s.unlessHw job hwChange x (({ s with glb := { s.glb with resetDue := true, resetJob := some job } } : State).done job []))

/-- RAW_ENTER (R111, R403). -/
def execRawEnter (job : Nat) (s : State) (hwChange : Bool := false) : Host.Outcome State Fault Refusal :=
  finish (match s.cmdJob job 0xF205 with
    | none => s
    | some x =>
      if !s.lcs.access.getLsbD 6 then s.doneErr job conflictErr 0x0104
      else s.unlessHw job hwChange x (if x.phase = 0 then s.startDrain job .raw else s))

/-- RAW_EXIT (R111, R403): GATHER, and STARTUP of the entropy island. Outside RAW it has no effect. -/
def execRawExit (job : Nat) (s : State) (hwChange : Bool := false) : Host.Outcome State Fault Refusal :=
  finish (match s.cmdJob job 0xF207 with
    | none => s
    | some x =>
      let t : State := if s.glb.raw then
          { s with
            glb := { s.glb with raw := false, phase := .gather }
            rng := { s.rng with
              state := 0, res := [], acc := [], instantiated := 0, startAt := s.now
              srcs := s.rng.srcs.each (fun _ x =>
                { x with state := if x.state = 3 then 3 else 0, startPass := 0, startFails := 0, white := [] }) } }
        else s
      s.unlessHw job hwChange x (t.done job []))

end Sys2Proof.Machine
end

