-- ==== Sys2Proof/Machine/Rings.lean ====
section
/-! DEFINITION. Rings (chapter 3, R62 to R69, R82 to R89; chapter 4, R92 to R103, R114): doorbells, fetch, tokens, dispatch
(R329 to R332), the structural checks of S2, and the commands that create, destroy and query. -/

namespace Sys2Proof.Machine

/-! ## Functions and their limits -/

/-- Rings a function numbers (R56). -/
def ringLimit (f : Nat) : Nat := if f = 0 then 256 else 64
/-- MSI-X vectors of a function (R98). -/
def vecLimit (f : Nat) : Nat := if f = 0 then 256 else 16
/-- A function is there: the PF, or an enabled VF. -/
def State.fnThere (s : State) (f : Nat) : Bool := f = 0 || s.vfEnabled f
/-- An ordering group is assigned to some strand. -/
def State.ogAssigned (s : State) (g : Nat) : Bool :=
  s.strands.any (fun e => decide (e.2.quota.ogBase ≤ g) && decide (g < e.2.quota.ogBase + e.2.quota.ogCount))
/-- An ordering group is one of a function's (R105). -/
def State.ogOk (s : State) (f g : Nat) : Bool :=
  if f = 0 then decide (g < 4096) && !s.ogAssigned g
  else
    let q := (s.strand f).quota
    decide (q.ogBase ≤ g) && decide (g < q.ogBase + q.ogCount)
/-- Rings a function holds. -/
def State.ringCount (s : State) (f : Nat) : Nat := (s.rings.filter (fun e => e.1 / 256 = f)).length
/-- The frame with the fewest rings, the lowest in a tie (R231). -/
def State.homeFrame (s : State) : Nat :=
  let n (f : Nat) : Nat := (s.rings.filter (fun e => e.2.home = f)).length
  [1, 2, 3].foldl (fun b f => if n f < n b then f else b) 0
/-- Firmware major version in force (R2). -/
def State.fwMajor (s : State) : Nat := fld s.mcs.sfw.toNat 24 8

/-! ## Doorbells (R62 to R67) -/

/-- An ignored doorbell write is counted. -/
def State.dropBell (s : State) (f : Nat) : State :=
  let p := s.page f
  s.setPage f { p with dbDrop := satInc p.dbDrop }

/-- A doorbell write to a ring that takes it (R63). -/
def State.bell (s : State) (f r : Nat) (g : Ring) (tail : W32) : State :=
  let a := (g.tail - g.done).toNat
  let b := (tail - g.done).toNat
  if b = a then s
  else if a ≤ b ∧ b ≤ 2 ^ g.log2 then
    s.setRing f r { g with tail := tail, bells := g.bells ++ [(tail, s.glb.ptcBoot)] }
  else s.structFault f r (tail.toNat % 2 ^ g.log2) 0 0x0B

/-- DOORBELL_WRITE: an aligned 8-byte write of TAIL; what R67 lists, and a 4-byte write (R62), is ignored and counted; an access
of another size is an Unsupported Request (R8). -/
def State.doorbell (s : State) (fn ring size : Nat) (value : W64) : State :=
  if s.barsOpen && s.fnThere fn && decide (ring < ringLimit fn) then
    if size ≠ 4 && size ≠ 8 then s.unsupported
    else match s.ring? fn ring with
    | none => s.dropBell fn
    | some g =>
      if size ≠ 8 || g.destroying || g.mirror || (s.page fn).halted || !s.glb.ringsOpen then s.dropBell fn
      else s.bell fn ring g (BitVec.ofNat 32 value.toNat)
  else s

/-- The row DoorbellWrite. -/
def execDoorbellWrite (fn ring size : Nat) (value : W64) (s : State) : Host.Outcome State Fault Refusal := finish (s.doorbell fn ring size value)

/-- A transaction of the dirty log. -/
def HostWait.isBit : HostWait → Bool
  | .bitRead _ _ | .bitWrite _ _ _ => true
  | _ => false

/-! ## Fetch (R36, R64, R65, R228) -/

/-- The mode lets S1 fetch from a ring: the manager's administrative ring in more modes than the others (Table 2.1). -/
def State.mayFetch (s : State) (f r : Nat) : Bool :=
  let on := s.live && s.glb.ringsOpen && (s.glb.phase = .running || s.glb.unseeded)
  let other := s.glb.drain = .none && !s.glb.update && !s.glb.raw
  on && ((f = 0 && r = 0) || other) && (f = 0 || ((s.strand f).state = .enabled && !(s.page f).halted))

/-- Entries of a ring that S1 holds. -/
def State.ringHeld (s : State) (f r : Nat) (g : Ring) : Nat :=
  g.reading.length + g.held.length + ((s.hdl.ready.filter (fun t => t.fn = f && t.ring = r)).map (fun t => t.entries.length)).sum

/-- Entries S1 holds device-wide. -/
def State.allHeld (s : State) : Nat :=
  (s.rings.map (fun e => e.2.reading.length + e.2.held.length)).sum + (s.hdl.ready.map (fun t => t.entries.length)).sum

/-- S1 has an entry of a ring to fetch and room for it. -/
def State.wantsFetch (s : State) (f r : Nat) (g : Ring) : Bool :=
  s.mayFetch f r && !g.destroying && !g.mirror && g.fetched ≠ g.tail && decide (s.ringHeld f r g < 64)

/-- The rings with an entry to fetch, by number. -/
def State.wanting (s : State) : List Nat :=
  (s.rings.filter (fun e => s.wantsFetch (e.1 / 256) (e.1 % 256) e.2)).map (·.1)

/-- S1 serves a ring now: while it resumes after a stop, only the next one in round-robin order (R228). -/
def State.fetchTurn (s : State) (f r : Nat) : Bool :=
  !s.hdl.resuming ||
    (match s.wanting.find? (fun n => decide (s.hdl.nextRing ≤ n)) with
     | some n => n = ringNo f r
     | none => s.wanting.head? = some (ringNo f r))

/-- S1 stops on every ring when 8,192 entries are held; it has resumed once no ring is left waiting for its turn (R228). -/
def State.fetchedFrom (s : State) (f r : Nat) : State :=
  { s with hdl := { s.hdl with
    resuming := decide (8192 ≤ s.allHeld) || (s.hdl.resuming && !s.wanting.isEmpty)
    nextRing := ringNo f r + 1 } }

/-- ENTRY_FETCH: one 64-byte read of the next covered entry. -/
def execEntryFetch (fn ring : Nat) (s : State) : Host.Outcome State Fault Refusal :=
  finish (match s.ring? fn ring with
    | none => s
    | some g =>
      if s.wantsFetch fn ring g && decide (s.allHeld < 8192) && s.fetchTurn fn ring then
        let addr := g.base.toNat + 64 * (g.fetched.toNat % 2 ^ g.log2)
        ((s.setRing fn ring { g with fetched := g.fetched + 1, reading := g.reading ++ [g.fetched.toNat] }).send
          (.readReq fn addr 64)).fetchedFrom fn ring
      else s)

/-! ## Entries and tokens (R57, R58, R68) -/

/-- Word `i` of an entry. -/
def ew (e : List W64) (i : Nat) : Nat := ((e[i]?).getD 0).toNat

/-- The held entries make a token for S2: up to LAST, or 16, or up to an entry that ends the chain by its own fault. -/
def chainLen (es : List (List W64)) : Option Nat :=
  (List.range es.length).findSome? (fun i =>
    let w := ew ((es[i]?).getD []) 0
    let bad := !bitOf w 0 || (if i = 0 then !bitOf w 1 else bitOf w 1)
    if bitOf w 2 || bad || i = 15 then some (i + 1) else none)

/-- A doorbell value covers an entry. -/
def covers (tail : W32) (c : Nat) : Bool :=
  let d := (tail - BitVec.ofNat 32 c).toNat
  decide (1 ≤ d) && decide (d ≤ 65536)

/-- S1 turns held entries into a JOB_READY token once a chain is complete. The entries that a restored strand has pending from
before its restore have no doorbell on this device: their deadline counts from here, which the spec leaves open (log 127). -/
def State.makeToken (s : State) (f r : Nat) : State :=
  match s.ring? f r with
  | none => s
  | some g =>
    match chainLen (g.held.map (·.2)), g.held with
    | some n, (c, e0) :: _ =>
      let last := (c + n - 1) % 2 ^ 32
      let at_ := match g.bells.find? (fun b => covers b.1 last) with
        | some b => b.2
        | none => s.glb.ptcBoot
      let cls := min (fld (ew e0 0) 8 2) g.ceil
      let t : Token := { fn := f, ring := r, cls := cls, start := c, entries := (g.held.take n).map (·.2), bellAt := at_ }
      let s := s.setRing f r { g with
        held := g.held.drop n, bells := g.bells.filter (fun b => covers b.1 ((last + 1) % 2 ^ 32)) }
      { s with hdl := { s.hdl with ready := s.hdl.ready ++ [t] } }
    | _, _ => s

/-- ENTRY_READ_COMPLETION: the oldest read of the ring returns (log 13); an error, poisoned data, a translation failure or a time-out
is structural fault 0x0C (Table 3.9). A completion with fewer bytes is none of these: the words that did not come are free. -/
def execEntryReadCompletion (fn ring : Nat) (outcome : ReadOutcome) (words : List W64) (s : State) :
    Host.Outcome State Fault Refusal :=
  finish (match s.ring? fn ring with
    | none => s
    | some g =>
      match g.reading with
      | [] => s
      | c :: rest =>
        let s := s.setRing fn ring { g with reading := rest }
        if outcome ≠ .ok && outcome ≠ .short then (s.readError outcome).structFault fn ring (c % 2 ^ g.log2) 0 0x0C
        else
          let (b, t) := s.freeBytes (if outcome = .short then 64 else 0)
          let come := if outcome = .short then words.take 7 else words
          let es := (come ++ (List.range 8).map (fun i => (BitVec.ofNat 64 (leAt b (8 * i) 8) : W64))).take 8
          ((t.readError outcome).setRing fn ring { g with reading := rest, held := g.held ++ [(c, es)] }).makeToken fn ring)

/-! ## Dispatch (R330 to R332) -/

/-- Weight of a class. -/
def wtOf (w : W32) (c : Nat) : Nat := fld w.toNat (8 * c) 8

/-- Tokens of a frame in a class, oldest first. -/
def State.tokensOf (s : State) (f c : Nat) : List Token :=
  s.hdl.ready.filter (fun t => t.cls = c && ((s.ring? t.fn t.ring).map (·.home)).getD 0 = f)

/-- The class the frame's round serves next, with the round's state after it (R331). -/
def State.pickClass (s : State) (f : Nat) : Nat → Frame → Option (Nat × Frame)
  | 0, _ => none
  | fuel + 1, x =>
    if 0 < x.rrLeft && !(s.tokensOf f x.rrClass).isEmpty then some (x.rrClass, { x with rrLeft := x.rrLeft - 1 })
    else
      let c := if x.rrClass = 0 then 3 else x.rrClass - 1
      let wt := if x.rrClass = 0 then s.hdl.wt else x.rrWt
      s.pickClass f fuel { x with rrClass := c, rrWt := wt, rrLeft := wtOf wt c }

/-- The class a frame dispatches from: by what is left of its round, then by the round after it with the weights of now (R332);
where that finds no class of nonzero weight that holds a token, by strict priority, and the old round is over. -/
def State.chooseClass (s : State) (f : Nat) : Option (Nat × Frame) :=
  let x := s.frame f
  (s.pickClass f 9 x).or
    (([3, 2, 1, 0].find? (fun c => !(s.tokensOf f c).isEmpty)).map (fun c =>
      (c, { x with rrClass := 3, rrWt := s.hdl.wt, rrLeft := wtOf s.hdl.wt 3 })))

/-- Queue of a function (R330). -/
def queueOf (f : Nat) : Nat := f % 64

/-- Entries in a frame's parse buffer. -/
def Frame.parseLen (x : Frame) : Nat := (x.parse.map (fun t => t.entries.length)).sum

/-- The sequence number of a token's head. -/
def Token.seq (t : Token) : Nat := fld (ew ((t.entries[0]?).getD []) 0) 48 16

/-- An EV_DONE token waits for the frame: a job of its units has ended, and S6 has not looked at it yet. A raw job's token goes to a
core, and an EdDSA signature before its second digest pass has none (R329, R208). -/
def State.eventWaits (s : State) (f : Nat) : Bool :=
  s.jobs.any (fun e =>
    e.2.stage = .ended && e.2.since = 0 && !(e.2.opClass = 7 && e.2.sub.isSome) &&
      !(e.2.opcode / 256 = 0x2A && e.2.opOp = 1 && e.2.major = 0 && e.2.hashed = 1) &&
      (match e.2.place with | some (g, _) => g = f | none => false))

/-- DISPATCH: a frame takes one token while its parse buffer has room; an event token that waits comes first (R329). The timers that
have expired are commands ahead in the queue (log 12). -/
def execDispatch (frame : Nat) (s : State) : Host.Outcome State Fault Refusal :=
  finish (if s.live && decide (frame < 4) && !s.eventWaits frame then
      match s.chooseClass frame with
      | none => s
      | some (c, x) =>
        let ts := s.tokensOf frame c
        let ptr := x.rrPtr.getD c 63
        match nextAfter 64 ptr (fun q => ts.any (fun t => queueOf t.fn = q)) with
        | none => s
        | some q =>
          match ts.find? (fun t => queueOf t.fn = q) with
          | none => s
          | some t =>
            if 64 < x.parseLen + t.entries.length then s
            else
              let s := s.setFrame frame { x with parse := x.parse ++ [t], rrPtr := x.rrPtr.put 63 c q }
              let s : State := { s with hdl := { s.hdl with ready := s.hdl.ready.erase t } }
              s.trace { event := 1, src := some 0, cls := t.cls, fn := t.fn, loc := some (locCode s.dev frame 15 15), jseq := t.seq,
                        ring := t.ring, arg := q }
    else s)

/-! ## Parse (R57 to R59, R68, R69, R86) -/

/-- The fault of a head entry by its own words. Where one entry shows several, the spec gives no order: the model reports the first
in the order of Table 3.9's codes (log 127). -/
def headFault (e : List W64) : Option Nat :=
  let w := ew e 0
  if !bitOf w 0 then some 1
  else if !bitOf w 1 then some 2
  else if fld w 5 3 ≠ 0 then some 5
  else if fld w 32 16 ≠ 0 || fld w 10 6 ≠ 0 then some 6
  else none

/-- An extent breaks R59. -/
def extentBad (addr fl : Nat) : Bool :=
  let len := fld fl 0 32
  let flags := fld fl 32 32
  decide (4 ≤ flags) || flags == 3 || (len == 0 && (addr != 0 || flags != 0))

/-- The fault of a continuation by its own words and the head's SEQ. -/
def contFault (seq : Nat) (e : List W64) : Option Nat :=
  let w := ew e 0
  if !bitOf w 0 then some 1
  else if bitOf w 1 then some 3
  else if fld w 5 3 ≠ 1 then some 5
  else if fld w 8 40 ≠ 0 || fld w 3 2 ≠ 0 || ew e 7 ≠ 0 then some 6
  else if fld w 48 16 ≠ seq then some 7
  else if extentBad (ew e 1) (ew e 2) || extentBad (ew e 3) (ew e 4) || extentBad (ew e 5) (ew e 6) then some 9
  else none

/-- The used extents of a continuation. -/
def entryExts (e : List W64) : List Ext :=
  ([1, 3, 5].map (fun i =>
    ({ kind := fld (ew e (i + 1)) 32 2, addr := ew e i, len := fld (ew e (i + 1)) 0 32 } : Ext))).filter (fun x => x.len ≠ 0)

/-- The extents of a chain. -/
def chainExts (es : List (List W64)) : List Ext := ((es.drop 1).map entryExts).flatten

/-- The fault of a chain's buffers: 0x08 before 0x0A (R69, R71). -/
def bufferFault (head : List W64) (xs : List Ext) : Option Nat :=
  let bufs := [(0, ew head 2, fld (ew head 3) 0 32), (1, ew head 4, fld (ew head 3) 32 32), (2, ew head 5, fld (ew head 6) 0 32)]
  let has (k : Nat) : Bool := xs.any (fun x => x.kind = k)
  let total (k : Nat) : Nat := ((xs.filter (fun x => x.kind = k)).map (fun x => x.len)).sum
  if bufs.any (fun b => (has b.1 || b.2.1 = 0 || b.2.2 = 0) && total b.1 ≠ b.2.2) then some 8
  else if bufs.any (fun b => b.2.1 ≠ 0 && b.2.2 ≠ 0 && has b.1) then some 0x0A
  else none

/-- The structural fault S2 finds in a chain: the entry and the code. Which entry a fault of the whole chain names is the model's choice
(DESIGN CHOICE, log 87): the head for 0x08 and 0x0A, the last for 0x04. -/
def chainFault (es : List (List W64)) : Option (Nat × Nat) :=
  let head := (es[0]?).getD []
  let seq := fld (ew head 0) 48 16
  match headFault head with
  | some c => some (0, c)
  | none =>
    match (List.range es.length).findSome? (fun i =>
        if i = 0 then none else (contFault seq ((es[i]?).getD [])).map (fun c => (i, c))) with
    | some f => some f
    | none =>
      let n := es.length - 1
      if !bitOf (ew ((es[n]?).getD []) 0) 2 then some (n, 4)
      else (bufferFault head (chainExts es)).map (fun c => (0, c))

/-- The job a well-formed chain spells. -/
def State.jobOf (s : State) (t : Token) : Job :=
  let head := (t.entries[0]?).getD []
  let w := ew head 0
  let budget := fld (ew head 1) 0 32
  let cont := chainExts t.entries
  { fn := t.fn, ring := t.ring, start := t.start, n := t.entries.length, seq := BitVec.ofNat 16 (fld w 48 16)
    opcode := fld w 16 16, cls := t.cls, order := bitOf w 4, irq := bitOf w 3
    words := (head.drop 1).take 6, exts := cont
    deadline := if budget = 0 then none else some (t.bellAt.toNat + budget)
    gen := (s.strand t.fn).gen, ogrp := ((s.ring? t.fn t.ring).map (·.ogrp)).getD 0 }

/-- PARSE: S2 checks the oldest token of its parse buffer; a fault halts, a well-formed chain is a job at S3. -/
def execParse (frame : Nat) (s : State) : Host.Outcome State Fault Refusal :=
  finish (if s.live && decide (frame < 4) then
      let x := s.frame frame
      match x.parse with
      | [] => s
      | t :: rest =>
        let s := s.setFrame frame { x with parse := rest }
        match chainFault t.entries with
        | some (i, code) =>
          let size := ((s.ring? t.fn t.ring).map (fun g => 2 ^ g.log2)).getD 1
          s.structFault t.fn t.ring ((t.start + i) % size) (fld (ew ((t.entries[i]?).getD []) 0) 48 16) code
        | none => { s.setJob s.nextJob (s.jobOf t) with nextJob := s.nextJob + 1 }
    else s)

/-! ## Interrupts (R83) -/

/-- COALESCE_TIMEOUT: the ring's timer, which runs and has reached its expiry, fires (R82, R83). -/
def execCoalesceTimeout (fn ring : Nat) (s : State) : Host.Outcome State Fault Refusal :=
  finish (match s.ring? fn ring with
    | none => s
    | some g =>
      if !g.timer || (s.dl 3).any (fun e => e.cmd = .coalesceTimeout fn ring && decide (s.now < e.at_)) then s
      else if 0 < g.pendIrq then s.sendRingIrq fn ring
      else (s.setRing fn ring { g with timer := false }).dlRemove 3 (.coalesceTimeout fn ring))

/-- VECTOR_UNMASK: the host clears a vector's mask; a set PBA bit becomes one message. -/
def State.vectorUnmask (s : State) (fn vec : Nat) : State :=
  if s.barsOpen && s.fnThere fn && decide (vec < vecLimit fn) then
    let v := s.host.msix.getD (vecNo fn vec) {}
    let s : State := { s with host := { s.host with
      msix := s.host.msix.put {} (vecNo fn vec) { v with ctrl := setBit v.ctrl 0 false } } }
    if s.host.pba.getD (vecNo fn vec) false then
      ({ s with host := { s.host with pba := s.host.pba.put false (vecNo fn vec) false } } : State).send (.msix fn vec)
    else s
  else s

/-- The row VectorUnmask. -/
def execVectorUnmask (fn vec : Nat) (s : State) : Host.Outcome State Fault Refusal := finish (s.vectorUnmask fn vec)

/-! ## The administrative ring (R92, R93) -/

/-- ADM_CFG.ENABLE. -/
def FnPage.admOn (p : FnPage) : Bool := bitOf p.admCfg.toNat 31

/-- ADM_CFG_ENABLE: ring 0 is created, or the write is refused with ERR set (R93). -/
def State.admEnable (s : State) (fn : Nat) (value : W32) : State :=
  let p := s.page fn
  if s.barsOpen && s.fnThere fn && bitOf value.toNat 31 && !p.admOn then
    let log2 := fld value.toNat 0 5
    let og := fld value.toNat 16 12
    let busy := (s.ring? fn 0).isSome
    if log2 < 4 || 16 < log2 || !s.ogOk fn og || busy || !s.glb.ringsOpen || (s.strand fn).state = .disabled then
      s.setPage fn { p with admCfg := BitVec.ofNat 32 (2 ^ 29 + og * 2 ^ 16 + log2) }
    else
      let ceil := if fn = 0 then 3 else (s.strand fn).quota.ceil
      (s.setPage fn { p with admCfg := BitVec.ofNat 32 (2 ^ 31 + og * 2 ^ 16 + log2) }).setRing fn 0
        { base := p.admBase, log2 := log2, ceil := ceil, ogrp := og, home := s.homeFrame, fwMajor := s.fwMajor }
  else s

/-- The row AdmCfgEnable. -/
def execAdmCfgEnable (fn : Nat) (value : W32) (s : State) : Host.Outcome State Fault Refusal := finish (s.admEnable fn value)

/-- ADM_CFG_DISABLE: a write that clears ENABLE destroys ring 0 (R100). -/
def State.admDisable (s : State) (fn : Nat) : State :=
  let p := s.page fn
  if s.barsOpen && s.fnThere fn && p.admOn then
    (s.setPage fn { p with admCfg := setBit p.admCfg 31 false }).destroyRing fn 0
  else s

/-- The row AdmCfgDisable. -/
def execAdmCfgDisable (fn : Nat) (s : State) : Host.Outcome State Fault Refusal := finish (s.admDisable fn)

/-- RING_TEARDOWN_END: the last write-back has ended, the ring number is free (R100); a cancelled APPLET call of the ring is waited for
as well (DESIGN CHOICE, log 147). -/
def execRingTeardownEnd (fn ring : Nat) (s : State) : Host.Outcome State Fault Refusal :=
  finish (match s.ring? fn ring with
    | none => s
    | some g =>
      if g.destroying && !s.jobs.any (fun e => e.2.fn = fn && e.2.ring = ring && e.2.sub.isNone && !s.isOld e.2) then
        s.removeRing fn ring
      else s)

/-! ## Commands (R98 to R102) -/

/-- The fields of word 2 of the ring parameter block. -/
structure IrqFields where
  /-- VEC -/
  vec : Nat
  /-- CNT -/
  cnt : Nat
  /-- TMO -/
  tmo : Nat

/-- Word 2 of Table 4.4. -/
def irqFields (w : Nat) : IrqFields := { vec := fld w 0 8, cnt := fld w 8 9, tmo := fld w 20 12 }

/-- The first check of R99 that a RING_CREATE of function `f` fails. That a ring in teardown counts is the model's choice (DESIGN
CHOICE, log 147). -/
def State.ringCreateError (s : State) (f : Nat) (b : Bytes) : Option (Nat × Nat) :=
  let w0 := leAt b 0 8
  let w1 := leAt b 8 8
  let q := irqFields (leAt b 16 8)
  let r := fld w1 0 8
  let log2 := fld w1 8 5
  let kind := fld w1 18 2
  if r = 0 || ringLimit f ≤ r then some (inputErr, 0x0101)
  else if log2 < 4 || 16 < log2 then some (inputErr, 0x0102)
  else if fld w0 0 12 ≠ 0 then some (inputErr, 0x0103)
  else if !s.ogOk f (fld w1 20 12) then some (inputErr, 0x0104)
  else if vecLimit f ≤ q.vec then some (inputErr, 0x0105)
  else if q.cnt = 0 || 256 < q.cnt then some (inputErr, 0x0106)
  else if 2 ≤ kind || (kind = 1 && f ≠ 0) then some (inputErr, 0x010E)
  else
    match s.ring? f r with
    | some g => if g.destroying then some (busyErr, 0x0101) else some (conflictErr, 0x0101)
    | none =>
      if f ≠ 0 && (s.strand f).quota.maxRings ≤ s.ringCount f then some (resourceErr, 0x0102)
      else if 8192 ≤ s.rings.length then some (resourceErr, 0x0101)
      else none

/-- The ring a RING_CREATE makes. -/
def State.newRing (s : State) (f : Nat) (b : Bytes) : Ring :=
  let w1 := leAt b 8 8
  let q := irqFields (leAt b 16 8)
  let ceil := fld w1 16 2
  { base := BitVec.ofNat 64 (leAt b 0 8), log2 := fld w1 8 5, mirror := fld w1 18 2 = 1
    ceil := if f = 0 then ceil else min ceil (s.strand f).quota.ceil
    ogrp := fld w1 20 12, vec := q.vec, cnt := q.cnt, tmo := q.tmo, home := s.homeFrame, fwMajor := s.fwMajor }

/-- RING_CREATE (R98, R99, R101). -/
def execRingCreate (job : Nat) (s : State) : Host.Outcome State Fault Refusal :=
  finish (match s.cmdJob job 0xF002 with
    | none => s
    | some x =>
      match s.ringCreateError x.fn x.block with
      | some (m, d) => s.doneErr job m d
      | none => (s.setRing x.fn (leAt x.block 8 1) (s.newRing x.fn x.block)).done job [])

/-- The function a RING_DESTROY names (Table 4.3). -/
def Job.destroyFn (x : Job) : Nat := if x.fn = 0 then fld x.param 16 10 else x.fn

/-- RING_DESTROY (R100, R101). From the manager, naming a VF that is not enabled, it answers CONFLICT 0x0102 (log 132). -/
def execRingDestroy (job : Nat) (s : State) : Host.Outcome State Fault Refusal :=
  finish (match s.cmdJob job 0xF003 with
    | none => s
    | some x =>
      let f := x.destroyFn
      let r := fld x.param 0 8
      if r = 0 || ringLimit f ≤ r then s.doneErr job inputErr 0x0101
      else
        match s.ring? f r with
        | none => s.doneErr job conflictErr 0x0102
        | some g => if g.destroying then s.doneErr job conflictErr 0x0102 else (s.destroyRing f r).done job [])

/-- IRQ_SET (R102). -/
def execIrqSet (job : Nat) (s : State) : Host.Outcome State Fault Refusal :=
  finish (match s.cmdJob job 0xF004 with
    | none => s
    | some x =>
      let r := fld x.param 0 8
      let q := irqFields (leAt x.block 0 8)
      if ringLimit x.fn ≤ r then s.doneErr job inputErr 0x0101
      else if vecLimit x.fn ≤ q.vec || (r = 0 && q.vec ≠ 0) then s.doneErr job inputErr 0x0105
      else if q.cnt = 0 || 256 < q.cnt then s.doneErr job inputErr 0x0106
      else
        match s.ring? x.fn r with
        | none => s.doneErr job conflictErr 0x0102
        | some g =>
          if g.destroying then s.doneErr job conflictErr 0x0102
          else
            let s := s.setRing x.fn r { g with vec := q.vec, cnt := q.cnt, tmo := q.tmo }
            let s := if q.cnt ≤ g.pendIrq then s.sendRingIrq x.fn r else s
            s.done job [])

/-! ## Identity and capability (R1, R3, R103) -/

/-- GLB_ID. -/
def glbId : Nat := 0x1F3C9528
/-- GLB_STEP. -/
def glbStep : Nat := 0x11
/-- GLB_CAP0 of the AKN-9528. -/
def glbCap0 : Nat := 0x00001018FFC32F20

/-- A port holds a cartridge paired to this device. -/
def Spl.paired (x : Spl) : Bool := x.mine && decide (5 ≤ x.state ∧ x.state ≤ 8)

/-- The manager's ordering groups: the first, and how many (R105). -/
def State.mgrGroups (s : State) : Nat × Nat :=
  let free := (List.range 4096).filter (fun g => !s.ogAssigned g)
  (free.headD 0, free.length)

/-- The capability block of a function (Table 4.6). INFLIGHT of the manager, which has no quota, is a free value. -/
def State.capBlock (s : State) (f : Nat) : Bytes × State :=
  let q := (s.strand f).quota
  let (og0, ogn) := if f = 0 then s.mgrGroups else (q.ogBase, q.ogCount)
  let (free, s) := s.freeNum
  let infl := if f = 0 then free else q.inflight
  let a := s.spl.a
  let b := s.spl.b
  (leBytes 4 glbId ++ leBytes 4 glbStep ++ leBytes 8 glbCap0 ++ leBytes 4 s.mcs.tfw.toNat ++ leBytes 4 s.mcs.sfw.toNat ++
    leBytes 4 s.mcs.ver.toNat ++ leBytes 4 s.mcs.cver.toNat ++ leBytes 2 f ++ leBytes 2 (s.strand f).gen.toNat ++
    leBytes 2 (if f = 0 then 256 else q.maxRings) ++ leBytes 2 (vecLimit f) ++ leBytes 1 s.glb.mode.toNat ++
    leBytes 1 s.lcs.state.toNat ++
    leBytes 1 (b2n a.paired + 2 * b2n b.paired + 4 * b2n ((a.paired && a.ro) || (b.paired && b.ro))) ++ zeros 1 ++
    leBytes 2 og0 ++ leBytes 2 ogn ++ leBytes 4 infl ++ zeros 12, s)

/-- CAP_QUERY (R103). -/
def execCapQuery (job : Nat) (s : State) : Host.Outcome State Fault Refusal :=
  finish (match s.cmdJob job 0xF001 with
    | none => s
    | some x =>
      let (b, s) := s.capBlock x.fn
      s.done job b)

/-! ## Trace control (R114, R342, R447) -/

/-- TRACE_CTRL: enable, port, mirror ring and source mask; a half entry of a mirror that ends or changes its ring is not written; the port gives way to the enclosure inputs.
The bits the block does not list are ignored (log 133). -/
def execTraceCtrl (job : Nat) (s : State) : Host.Outcome State Fault Refusal :=
  finish (match s.cmdJob job 0xF501 with
    | none => s
    | some x =>
      let w := leAt x.block 0 8
      let mirror := bitOf w 2
      let ring := fld w 8 8
      let mask := fld w 32 32
      if 32 ≤ mask then s.doneErr job inputErr 4
      else if mirror && !(match s.ring? 0 ring with | some g => g.mirror && !g.destroying | none => false) then
        s.doneErr job inputErr 0x010D
      else
        let want := bitOf w 1
        let block := want && s.vigil.mfpEncl
        let s : State := { s with trc := { s.trc with
          enable := bitOf w 0, port := want && !block, blocked := block, mirror := mirror
          mirrorRing := if mirror then ring else s.trc.mirrorRing
          mirQ := if mirror && (!s.trc.mirror || ring = s.trc.mirrorRing) then s.trc.mirQ else []
          mask := BitVec.ofNat 32 mask } }
        if block then s.doneErr job conflictErr 0x0106 else s.done job [])

/-- MIRROR_ENTRY_TIMEOUT: 10 µs after its first record a mirror entry with no second is written, its second half zero (R343). -/
def execMirrorEntryTimeout (s : State) : Host.Outcome State Fault Refusal :=
  finish (match s.trc.mirQ with
    | [a] => ({ s with trc := { s.trc with mirQ := [] } } : State).mirrorEntry a [0, 0, 0, 0]
    | _ => s)

end Sys2Proof.Machine
end

