-- ==== Sys2Proof/Machine/Admit.lean ====
section
/-! DEFINITION. S3 (chapters 3, 4, 5, 8 and 11): the checks of a job in their order, the reasons to wait, the admission, and
the dealing to a creel deque (R94 to R97, R121, R126, R229 to R233, R241 to R243, R307, R308, R377, R382). -/

namespace Sys2Proof.Machine

/-! ## Administrative commands (R96, R97, Table 4.3) -/

/-- The opcodes of Table 4.3. -/
def adminOps : List Nat :=
  [0xF001, 0xF002, 0xF003, 0xF004, 0xF005, 0xF101, 0xF102, 0xF103, 0xF104, 0xF105, 0xF106, 0xF107, 0xF108, 0xF201, 0xF202,
   0xF203, 0xF204, 0xF205, 0xF206, 0xF207, 0xF301, 0xF401, 0xF402, 0xF403, 0xF404, 0xF405, 0xF501, 0xF601, 0xF602, 0xF603,
   0xF604]

/-- The commands ZEROIZED accepts (R38). -/
def zeroizedOps : List Nat := [0xF001, 0xF005, 0xF602, 0xF604, 0xF501, 0xF204]

/-- The bits of PARAM a command gives a meaning. -/
def adminParam (x : Job) : Nat :=
  match x.opcode with
  | 0xF003 => if x.fn = 0 then 0x03FF00FF else 0xFF
  | 0xF004 => 0xFF
  | 0xF101 | 0xF102 | 0xF103 | 0xF104 | 0xF105 | 0xF106 => 0x3FF
  | 0xF107 | 0xF108 => 0xF3FF
  | 0xF206 | 0xF301 => 0xF
  | 0xF401 | 0xF402 | 0xF403 | 0xF404 | 0xF405 => 1
  | 0xF602 => 0xFFFF
  | _ => 0

/-- The input length of a command; none where the command's own rules judge it. -/
def adminIn (x : Job) : Option Nat :=
  match x.opcode with
  | 0xF002 | 0xF005 | 0xF103 | 0xF104 => some 32
  | 0xF004 => some 8
  | 0xF501 => some 16
  | 0xF604 => some 40
  | 0xF108 => if bitOf x.param 12 then some 0 else none
  | 0xF301 | 0xF601 => none
  | _ => some 0

/-- The output length of a command that Table 4.3 fixes. -/
def adminOut (x : Job) : Nat :=
  match x.opcode with
  | 0xF001 => 64
  | 0xF101 | 0xF105 => 8
  | 0xF203 => 16
  | 0xF401 => 32
  | 0xF005 => 5549
  | _ => 0

/-- What refuses an administrative command at S3: major, detail, RES_LEN. -/
def State.adminErr (s : State) (x : Job) : Option (Nat × Nat × Nat) :=
  if !adminOps.contains x.opcode then some (unsupportedErr, 1, 0)
  else if x.fn ≠ 0 && decide (0xF100 ≤ x.opcode) then some (unsupportedErr, 0x0101, 0)
  else if s.glb.zeroized && !zeroizedOps.contains x.opcode then some (frozenErr, 1, 0)
  else if s.glb.raw && !([0xF001, 0xF206, 0xF207].contains x.opcode) then some (unsupportedErr, 0x0102, 0)
  else if !s.glb.raw && x.opcode = 0xF206 then some (unsupportedErr, 0x0102, 0)
  else if (if x.opcode = 0xF204 then x.param ≠ 0x9528 else paramOver x (adminParam x)) then some (inputErr, 4, 0)
  else if (adminIn x).any (fun n => x.inLen != n) then some (inputErr, 1, 0)
  else if x.auxLen ≠ 0 then some (inputErr, 2, 0)
  else if x.outCap < adminOut x then some (inputErr, 3, adminOut x)
  else none

/-! ## The key of a job (R121, R154, R222, R273) -/

/-- What refuses a CUSTOM job before its key (R273). -/
def State.customErr (s : State) (x : Job) : Option (Nat × Nat) :=
  if s.mcs.cust.isNone then some (unsupportedErr, 0x0501)
  else
    match s.customEntry x with
    | none => some (unsupportedErr, 1)
    | some e =>
      if e.inMax < x.inLen then some (inputErr, 1) else if e.auxMax < x.auxLen then some (inputErr, 2) else none

/-- The job takes a key that S3 checks. -/
def State.takesKey (s : State) (x : Job) : Bool :=
  match x.opClass with
  | 5 => keyCmdKeyed x
  | 9 => match s.customEntry x with | some e => e.key | none => false
  | 10 => x.handle ≠ 0
  | 15 => false
  | _ => !opKeyless x && !isInline x

/-- Checks 6 and 7 of R121 for a job. -/
def State.suitErr (s : State) (x : Job) (k : KeyObj) : Option (Nat × Nat) :=
  match x.opClass with
  | 5 => s.keyCmdKeyErr x k
  | 9 =>
    match s.customEntry x with
    | none => none
    | some e =>
      if k.type ≠ e.ktype then some (keyErr, 0x0104)
      else if k.policy.ops &&& e.ops ≠ e.ops then some (keyErr, 0x0105)
      else if !k.policy.flag polCustom then some (keyErr, 0x0111)
      else none
  | 10 => if isDwk x.handle then some (keyErr, 0x0104) else none
  | _ =>
    if isDwk x.handle || !typeSuits x k then some (keyErr, 0x0104)
    else if !k.policy.op (opBit x) then some (keyErr, 0x0105)
    else if x.fam = 0x18 && x.opOp = 2 && x.opParam = 1 && !k.policy.flag polLegacy then some (keyErr, 0x0302)
    else none

/-- A sub-job's KREF: the owner's generation at minting and its RIGHTS (R153), kept as `note` = payload [31:0] + 1. -/
def Job.kref (x : Job) : Option (Nat × Nat) :=
  if x.sub.isSome && x.note ≠ 0 then some (fld (x.note - 1) 16 16, fld (x.note - 1) 0 16) else none

/-- The KREF of a sub-job passes the checks of R154 against the key: the handle (checks 1 to 5), the generation, RIGHTS, OPS
and CUSTOM. -/
def State.krefOk (s : State) (x : Job) (k : KeyObj) : Bool :=
  match x.kref with
  | none => true
  | some (gen, rights) =>
    let need : Nat := if x.opClass = 9 then (match s.customEntry x with | some e => e.ops.toNat | none => 0) else 2 ^ opBit x
    gen = (s.strand x.fn).gen.toNat && rights &&& need = need && k.policy.ops.toNat &&& need = need && k.policy.flag polCustom

/-- The tweak key of an XTS job (R222): same owner, AES type and OPS, another handle and KCV. A sub-job has none, since keys
reach it only as a KREF (R382). -/
def State.tweakKey (s : State) (x : Job) (k : KeyObj) : Option (Nat × KeyObj) :=
  match s.findKey x.fn x.param x.opcode with
  | .ok (slot, t) =>
    if x.sub.isNone && !isDwk x.param && x.param ≠ x.handle && t.type = k.type && t.policy.ops = k.policy.ops &&
        kcvOf t.type t.mat ≠ kcvOf k.type k.mat then some (slot, t) else none
  | .error _ => none

/-- Checks 1 to 8 of R121 for a job that takes a key; of an APPLET call's key then CUSTOM (R377). -/
def State.handleChecks (s : State) (x : Job) : Except (Nat × Nat) (Nat × KeyObj) :=
  match s.findKey x.fn x.handle x.opcode with
  | .error e => .error e
  | .ok (slot, k) =>
    match s.suitErr x k with
    | some e => .error e
    | none =>
      if isXts x && (s.tweakKey x k).isNone then .error (keyErr, 0x0301)
      else
        match k.windowErr s.glb.ptcLife.toNat with
        | some e => .error e
        | none => if x.opClass = 10 && !k.policy.flag polCustom then .error (keyErr, 0x0111) else .ok (slot, k)

/-- The checks of a job's key: through a KREF, any mismatch of the handle, as R121 checks it, of the generation, RIGHTS, OPS or
CUSTOM gives KEY 0x0111 (R154). -/
def State.keyChecks (s : State) (x : Job) : Except (Nat × Nat) (Nat × KeyObj) :=
  match s.handleChecks x with
  | .error e => .error (if x.kref.isSome && e.2 < 0x0200 then (keyErr, 0x0111) else e)
  | .ok (slot, k) => if s.krefOk x k then .ok (slot, k) else .error (keyErr, 0x0111)

/-- A handle names a header that the rebuild has not reached yet (R292). -/
def State.owesKey (s : State) (f h : Nat) : Bool :=
  let slot := keySlot (handleOwner h) (handleIndex h)
  handleOwner h = f && s.rootUp && (s.key? slot).isNone &&
    (match s.kst.claimed.get? slot with | some e => e.toNat = handleEpoch h | none => false)

/-- A key that the job names has not been rebuilt yet. -/
def State.notRebuilt (s : State) (x : Job) : Bool := s.owesKey x.fn x.handle || x.handle2.any (s.owesKey x.fn)

/-- The cached form of the key-encryption key that a command names in PARAM no longer fits the owner's CACHE_KIB (R130). -/
def State.kekOver (s : State) (x : Job) : Bool :=
  !isXts x && x.handle2.any (fun h => !isDwk h &&
    (match s.findKey x.fn h x.opcode with | .ok (_, k) => decide (s.lineQuota x.fn < k.lines) | .error _ => false))

/-! ## Stateful indices at S3 (R146, R148, R324) -/

/-- The job assigns a stateful index. -/
def assignsIndex (x : Job) : Bool := (x.fam = 0x23 || x.fam = 0x24 || x.fam = 0x25) && x.opOp = 1

/-- Jobs admitted with the key that have not computed yet. -/
def State.indexDemand (s : State) (uid j : Nat) : Nat :=
  (s.jobsWhere (fun x => assignsIndex x && x.admitted.isSome && x.checked && x.reserved && x.holds uid)).countP (· ≠ j)

/-- Where the indices of a key stand for one more job. -/
inductive IndexState where
  /-- an index below CEIL is left for the job -/
  | free
  /-- the key has none left -/
  | spent
  /-- the job waits for a reservation, or for the jobs before it -/
  | wait
deriving DecidableEq, Repr

/-- Check 10 of R121. -/
def State.indexState (s : State) (j : Nat) (k : KeyObj) : IndexState :=
  if k.savedAway || decide (k.last ≤ k.nextNow) then .spent
  else if k.nextNow + s.indexDemand k.uid j < k.ceil then .free
  else .wait

/-! ## What S3 decides (R121, R229) -/

/-- What S3 decides of a job: a refusal, a wait, or admission with its key. -/
inductive Verdict where
  | refuse (major detail resLen : Nat)
  | wait (why : Wait)
  | go (key : Option (Nat × KeyObj))
deriving DecidableEq, Repr

/-- The frame's randomness serves a job that draws `n` bytes (R25, R395). -/
def State.rngUp (s : State) (frame n : Nat) : Bool :=
  s.rngRuns && decide (n ≤ (s.frameBuf frame).length)

/-- The job needs randomness (R24): of class F, ATTEST's hedged signature (R155) and STRAND_SAVE's IV (R323). -/
def State.needsRandom (s : State) (x : Job) : Bool :=
  match x.opClass with
  | 5 => keyCmdRandom x
  | 9 => match s.customEntry x with | some e => e.key | none => false
  | 10 => false
  | 15 => x.opcode = 0xF005 || x.opcode = 0xF107
  | _ => opRandom x

/-- Random bytes S3 reserves for a job with the key it is admitted with: a key-store command's are those of `keyCmdDraws`, ATTEST takes
32 for its hedged signature, STRAND_SAVE 12 for the blob's IV (R323, R392, R395). -/
def drawsOf (x : Job) (k : Option KeyObj) : Nat :=
  if x.opClass = 5 then keyCmdDraws x k
  else if x.opClass = 9 || x.opClass = 10 then 0
  else if x.opClass = 15 then (if x.opcode = 0xF005 then 32 else if x.opcode = 0xF107 then 12 else 0)
  else opDraws x

/-- Jobs counted against a strand's INFLIGHT (R307). -/
def State.inflight (s : State) (f : Nat) : Nat :=
  (s.jobsWhere (fun x => x.fn == f && x.ring != 0 && x.sub.isNone && x.admitted.isSome)).length

/-- The waits that depend on the strand (R307, R308): tenants' jobs of rings other than 0, sub-jobs apart. -/
def State.quotaWait (s : State) (x : Job) : Option Wait :=
  let t := s.strand x.fn
  if x.fn = 0 || x.ring = 0 || x.sub.isSome || x.admitted.isSome then none
  else if t.quota.inflight ≤ s.inflight x.fn then some .inflight
  else if t.quota.rate ≠ 0 && decide (t.level < 2 ^ 20) then some .token
  else none

/-- The material of a key has to be fetched for a job (R130): its cached form is not in the cache, and no fetch has brought it; of
KEY_PUBLIC only an evicted key's is (R129). -/
def State.fetchNeeded (s : State) (x : Job) (slot : Nat) (k : KeyObj) : Bool :=
  match s.key? slot with
  | some y =>
    y.uid == k.uid && (if x.opcode = 0x5009 then !y.atHand else !y.cached && !(x.fKeyFetched && y.atHand))
  | none => false

/-- The keys of a job whose material has to be fetched before it goes on: its own and the tweak key of AES-XTS; a key-store command
needs only the key that it computes with, wraps or shows, an APPLET call none. -/
def State.toFetch (s : State) (x : Job) (key : Option (Nat × KeyObj)) : List (Nat × KeyObj) :=
  match key with
  | none => []
  | some (slot, k) =>
    if isDwk x.handle || x.opClass = 10 ||
        (x.opClass = 5 && !decide (0x5003 ≤ x.opcode ∧ x.opcode ≤ 0x5006) && x.opcode ≠ 0x5009) then []
    else ([(slot, k)] ++ (if isXts x then (s.tweakKey x k).toList else [])).filter (fun e => s.fetchNeeded x e.1 e.2)

/-- The material of a job's keys is at hand. -/
def State.keyAtHand (s : State) (x : Job) (slot : Nat) (k : KeyObj) : Bool := (s.toFetch x (some (slot, k))).isEmpty

/-- What ends a keyed job at once where it would have to wait for the spool: an index that no commit can reserve, a key whose
material no primary holds (R25, R146). -/
def State.spoolErrAt (s : State) (j : Nat) (x : Job) (slot : Nat) (k : KeyObj) : Option (Nat × Nat) :=
  if assignsIndex x && s.primaryOpen && !s.spoolHas k then some (spoolErr, 0x0141)
  else if assignsIndex x && s.indexState j k = .wait && decide (k.ceil < k.last) && !s.primaryWritable then
    some (spoolErr, if s.primaryOpen then 0x0142 else 0x0141)
  else if (s.toFetch x (some (slot, k))).all (fun e => e.2.atHand || s.spoolHas e.2) then none
  else some (spoolErr, 0x0141)

/-- The waits of a job that every check has passed, in order: randomness, INFLIGHT, token, index, key fetch. -/
def State.waits (s : State) (j : Nat) (x : Job) (key : Option (Nat × KeyObj)) : Verdict :=
  match key.bind (fun e => s.spoolErrAt j x e.1 e.2) with
  | some e => .refuse e.1 e.2 0
  | none =>
  if s.needsRandom x && !s.rngUp (s.homeOf x) (if x.rnd = [] then drawsOf x (key.map (·.2)) else 0) then .wait .randomness
  else
    match s.quotaWait x with
    | some w => .wait w
    | none =>
      match key with
      | none => .go key
      | some (slot, k) =>
        if assignsIndex x && s.indexState j k = .wait then .wait .index
        else if s.keyAtHand x slot k then .go key
        else if (s.toFetch x key).all (fun e => e.2.atHand) then .wait .cache
        else .wait .spoolKey

/-- The cached form of a job's private or secret key no longer fits the owner's CACHE_KIB (R130). -/
def State.overCache (s : State) (x : Job) (k : Option KeyObj) : Bool :=
  match k with
  | some k => !isDwk x.handle && !pubOnly k.type && decide (s.lineQuota x.fn < k.lines)
  | none => false

/-- The uses that a job reserves of a key (R126, R223): a key-store command processes no blocks of a TDEA key. -/
def usesOf (x : Job) (k : KeyObj) : Nat := if x.opClass = 5 && baseType k.type = 0x05 then 0 else x.useCount

/-- The checks that follow those of the key for a hardware opcode: the cache quota, an RSA header, lengths that depend on the
key, OUT_CAP, the uses and the index, which are checks 9 and 10 of R121 (through a KREF, 0x0111: R154), the GEN_IV limit (R71, R126,
R130, R161, R201, R221). -/
def State.sizeChecks (s : State) (j : Nat) (x : Job) (key : Option (Nat × KeyObj)) : Verdict :=
  let k := key.map (·.2)
  let rsa := x.fam = 0x18 || x.fam = 0x28
  let size := if !rsa then none else if isInline x then x.hdr.bind (rsaHeader x) else k.map (fun k => rsaBytes k.pub)
  let n := size.getD 0
  if s.overCache x k then .refuse resourceErr 0x0143 0
  else if rsa && isInline x && x.hdr.isNone then .wait .header
  else if rsa && size.isNone then .refuse inputErr 0x030F 0
  else
    match (if rsa then rsaLenErr x n else none) with
    | some e => .refuse e.1 e.2 0
    | none =>
      let out := if x.opClass = 9 then 0 else opOut x k n
      if x.outCap < out then .refuse inputErr 3 out
      else
        match k with
        | some k =>
          if !x.reserved && !k.usesLeft x.useCount then .refuse keyErr (if x.kref.isSome then 0x0111 else 0x0106) 0
          else if assignsIndex x && s.indexState j k = .spent then
            .refuse keyErr (if x.kref.isSome then 0x0111 else 0x010F) 0
          else if genIv x && decide (2 ^ 32 ≤ k.genIvs) then .refuse keyErr 0x0303 0
          else s.waits j x key
        | none => s.waits j x key

/-- The verdict on a keyed or keyless job whose opcode, PARAM and lengths are right. -/
def State.keyVerdict (s : State) (x : Job) (rest : Option (Nat × KeyObj) → Verdict) : Verdict :=
  if !s.takesKey x then rest none
  else if s.notRebuilt x then .wait .spoolKey
  else
    match s.keyChecks x with
    | .error e => .refuse e.1 e.2 0
    | .ok k => rest (some k)

/-- What stands between a key-store command and its admission once nothing else does: a replacement of the key under way, no room for
a replacement's shadow (Table 5.10 t0), the full T-gate (R23, R25). -/
def State.cmdGo (s : State) (j : Nat) (x : Job) (key : Option (Nat × KeyObj)) : Verdict :=
  match key with
  | some (slot, k) =>
    if x.opcode = 0x5007 && k.repl.isSome then .refuse 0x0F 0x0141 0
    else if x.opcode = 0x5007 && (s.replStart j x.fn slot k).isNone then .refuse resourceErr 0x0141 0
    else if s.gateFull then .wait .tgate else .go key
  | none => if s.gateFull then .wait .tgate else .go key

/-- A key-store command (R134): its own checks, its output size, the cache quota where it uses the cached form (R130; DESIGN CHOICE, log
149), its
uses, its waits. -/
def State.cmdVerdict (s : State) (j : Nat) (x : Job) (key : Option (Nat × KeyObj)) : Verdict :=
  let k := key.map (·.2)
  let out := keyCmdOut x k
  if !s.rootUp && x.opcode ≠ 0x500C then .refuse keyErr 0x0110 0
  else if x.outCap < out then .refuse inputErr 3 out
  else if (decide (0x5003 ≤ x.opcode ∧ x.opcode ≤ 0x5006) && s.overCache x k) || s.kekOver x then
    .refuse resourceErr 0x0143 0
  else if (match k with | some k => !k.usesLeft (usesOf x k) | none => false) then .refuse keyErr 0x0106 0
  else
    match s.waits j x key with
    | .go key => s.cmdGo j x key
    | v => v

/-- An APPLET call before its key (R377, R384). -/
def State.callErr (s : State) (x : Job) : Option (Nat × Nat) :=
  match s.crx.img with
  | none => some (unsupportedErr, 0x0801)
  | some img =>
    let fore := bitOf s.crx.cfg.toNat 8 && x.opFamily = 15
    match img.recs[x.opFamily]? with
    | none => some (unsupportedErr, if fore then 0x0801 else 1)
    | some r =>
      if fore && (!r.forerunner || r.entries = 0) then some (unsupportedErr, 0x0801)
      else if r.entries ≤ fld x.opcode 0 8 then some (unsupportedErr, 1)
      else none

/-- The verdict of S3 on a job, check by check. -/
def State.verdict (s : State) (j : Nat) (x : Job) : Verdict :=
  let manager := x.fn = 0 && x.ring = 0
  let admin := x.opClass = 15
  let or3 (e : Option (Nat × Nat)) (v : Verdict) : Verdict := match e with | some e => .refuse e.1 e.2 0 | none => v
  if s.glb.zeroized && !manager then .refuse frozenErr 1 0
  else if s.glb.frozen && !manager then .refuse frozenErr 2 0
  else if decide (x.ring = 0) != admin && x.sub.isNone then .refuse unsupportedErr 2 0
  else if (s.ring? x.fn x.ring).any (fun g => g.fwMajor != s.fwMajor) then .refuse unsupportedErr 4 0
  else
    match x.opClass with
    | 15 => match s.adminErr x with
      | some (m, d, r) => .refuse m d r
      | none =>
        if s.needsRandom x && !s.rngUp (s.homeOf x) 0 then .wait .randomness
        else if x.trusted && s.gateFull then .wait .tgate else .go none
    | 5 => or3 (keyCmdErr x) (s.keyVerdict x (s.cmdVerdict j x))
    | 9 => or3 (s.customErr x) (s.keyVerdict x (s.sizeChecks j x))
    | 10 =>
      or3 (s.callErr x) (s.keyVerdict x (fun k =>
        if s.overCache x (k.map (·.2)) then .refuse resourceErr 0x0143 0
        else match s.quotaWait x with
        | some w => .wait w
        | none =>
          if 4096 ≤ s.crx.callQ.length then .refuse busyErr 0x0801 0
          else if x.trusted && x.phase = 0 then .wait .tgate
          else .go k))
    | _ =>
      if !opDefined x then .refuse unsupportedErr 1 0
      else
        or3 (opParamErr x)
          (if (x.fam = 0x11 && x.opOp = 1) && bitOf x.param 1 && !s.lcs.access.getLsbD 10 then .refuse unsupportedErr 0x0202 0
           else or3 (opLenErr x) (s.keyVerdict x (s.sizeChecks j x)))

/-! ## Dealing (R232, R233) -/

/-- The creel is usable for a job (R232). -/
def State.creelUsable (s : State) (x : Job) (f c : Nat) : Bool :=
  !s.creelHeld f c && (!needsSpindle x || (List.range 12).any (s.unretired f c)) && (!needsCarder x || s.unretired f c 12)

/-- Spindles of a creel that are computing. -/
def State.busySpindles (s : State) (f c : Nat) : Nat := (List.range 12).countP (fun u => (s.unit f c u).busy)

/-- The load of a creel for a job (R232). -/
def State.load (s : State) (x : Job) (f c : Nat) : Nat :=
  (s.creel f c).deque.length + s.busySpindles f c + (if needsCarder x && (s.unit f c 12).busy then 12 else 0)

/-- A key is warm on a creel (R238). -/
def State.warmOn (s : State) (uid f c : Nat) : Bool :=
  (List.range 12).any (fun u => match (s.unit f c u).warm with | some (_, i) => i == uid | none => false)

/-- The lowest-numbered creel of a list with the least value. -/
def leastOf (g : Nat → Nat) : List Nat → Option Nat
  | [] => none
  | c :: cs =>
    match leastOf g cs with
    | none => some c
    | some d => if g d < g c then some d else some c

/-- Where S3 deals a job. -/
inductive DealTo where
  | creel (f c : Nat)
  | full
  | noUnit
deriving DecidableEq, Repr

/-- The creel of R232 in a frame that has a usable one: where the key is warm, with `affine`, else the one of least load. -/
def State.dealIn (s : State) (x : Job) (f : Nat) (affine : Bool) : DealTo :=
  let depth := fld (s.frame f).cfg.toNat 16 8
  let warm := match x.key with
    | some (_, k) => if affine then firstBelow 11 (s.warmOn k.uid f) else none
    | none => none
  let byLoad := match leastOf (s.load x f)
      ((List.range 11).filter (fun c => s.creelUsable x f c && decide ((s.creel f c).deque.length < 128))) with
    | some c => DealTo.creel f c
    | none => .full
  match warm with
  | some c => if s.creelUsable x f c && decide ((s.creel f c).deque.length < min depth 128) then .creel f c else byLoad
  | none => byLoad

/-- The creel of R232 and R233. A job of the seal island or the entropy island needs no creel: it waits for its claim in the
home frame as if in a deque of its own, numbered 15. -/
def State.dealFrom (s : State) (x : Job) (home : Nat) : DealTo :=
  if !needsSpindle x && !needsCarder x then .creel home 15
  else
    match ((List.range 4).map (fun i => (home + i) % 4)).find? (fun f => (List.range 11).any (s.creelUsable x f)) with
    | none => .noUnit
    | some f => s.dealIn x f (f = home)

/-- Where S3 deals a job of a ring. -/
def State.dealTarget (s : State) (x : Job) : DealTo := s.dealFrom x (s.homeOf x)

/-- A job enters the bottom of a deque. -/
def State.enterDeque (s : State) (j f c : Nat) (ripe : Bool) : State :=
  let s := if c < 11 then s.setCreel f c { s.creel f c with deque := j :: (s.creel f c).deque } else s
  let s := s.modJob j (fun x => { x with stage := .deque f c, dealtAt := s.now, ripe := ripe, thief := none, since := 0, hashed := 0 })
  match s.job? j with
  | some x => s.trace (x.ev 0x03 (some 1) (locCode s.dev (s.homeOf x) 15 15) (locCode s.dev f c 15).toNat)
  | none => s

/-! ## Refusal, waiting, admission -/

/-- A job has been dealt before S3 completed its checks. -/
def Job.ranAhead (x : Job) : Bool :=
  match x.stage with
  | .deque _ _ | .s4 => true
  | _ => false

/-- What a run-ahead job staged and claimed is wiped and released, and it returns to S3 (R242); `why` 0 refused, 1 withdrawn. -/
def State.undo (s : State) (j why : Nat) : State :=
  match s.job? j with
  | none => s
  | some x =>
    if !x.ranAhead then s
    else
      let staged := x.stage = .s4
      let f := s.frameOf x
      let s := (s.undeal j).freeUnits j true
      let s := if staged && why = 1 then s.setFrame f { s.frame f with cntUndo := satInc (s.frame f).cntUndo } else s
      let s := if staged then s.trace (x.ev 0x0A (some 1) (locCode s.dev f 15 15) why) else s
      s.modJob j (fun x => { x with
        stage := .s3, place := none, thief := none, pinned := false, lines := 0, input := none, aux := none, rnd := [],
        tagged := false })

/-- S3 refuses a job (R22, R242). -/
def State.admitRefuse (s : State) (j major detail resLen : Nat) : State := (s.undo j 0).refuse j major detail resLen

/-- Requests for the pieces of a buffer. -/
def State.requestPieces (s : State) (x : Job) (kind : Nat) : State :=
  (x.pieces kind).foldl (fun s p => s.send (.readReq x.fn p.1 p.2)) s

/-- The part of a buffer's pieces from `off` on, `n` bytes of it. -/
def slicePieces : List (Nat × Nat) → Nat → Nat → List (Nat × Nat)
  | [], _, _ => []
  | (a, len) :: ps, off, n =>
    if n = 0 then []
    else if len ≤ off then slicePieces ps (off - len) n
    else (a + off, min n (len - off)) :: slicePieces ps 0 (n - min n (len - off))

/-- S3 requests the header bytes of an inline RSA key: 8 at each place where the layout may put them (R201). -/
def State.requestHeader (s : State) (x : Job) : State :=
  ((rsaOffsets x).map (fun o => slicePieces (x.pieces 2) o 8)).flatten.foldl (fun s p => s.send (.readReq x.fn p.1 p.2)) s

/-- S4 or firmware requests a job's input and auxiliary data. -/
def State.requestBuffers (s : State) (x : Job) : State :=
  let s := if x.input.isNone then s.requestPieces x 0 else s
  if x.aux.isNone then s.requestPieces x 2 else s

/-- The request for the KREF of a call is passed to trusted firmware, once the T-gate has room; the call waits at S3 for the minting
(R153, R377). -/
def State.askMint (s : State) (j : Nat) (x : Job) : State :=
  if s.gateFull || x.phase ≠ 0 then s else (s.passGate j x).modJob j (fun x => { x with phase := 1 })

/-- A job waits at S3: its reason, its deadline entry, and what the wait sets going (R146, R229, R335). -/
def State.admitWait (s : State) (j : Nat) (w : Wait) : State :=
  let s := s.undo j 1
  match s.job? j with
  | none => s
  | some x =>
    let slot := keySlot (handleOwner x.handle) (handleIndex x.handle)
    let again := x.stage = .waiting w
    let key := if w = .cache || w = .spoolKey then (match s.key? slot with | some k => some (slot, k) | none => none) else none
    let key2 := match key with | some (_, k) => if isXts x then s.tweakKey x k else none | none => none
    let away := (s.toFetch x key).filter (fun e => !e.2.atHand)
    let s := s.setJob j { x with stage := .waiting w, key := key, key2 := key2, since := if again then x.since else s.now }
    let s := match x.deadline with
      | some d => (s.dlRemove 0 (.deadlineExpiry j)).dlInsert 0 d (.deadlineExpiry j)
      | none => s
    match w with
    | .index => s.reserveIndices slot
    | .tgate => if x.opClass = 10 then s.askMint j x else s
    | .spoolKey => if again then s else s.each (away.map (·.1)) State.fetchRecord
    | .header => if again then s else s.requestHeader x
    | _ => s

/-- FANOUT of a job at its first admission (R243); a Classic McEliece key generation follows the class field (R191). -/
def State.fanoutOf (s : State) (x : Job) (k : Option KeyObj) : Nat :=
  let own := match k with | some k => k.policy.fanout | none => 0
  let field := fld (s.frame (s.homeOf x)).fanout.toNat (4 * x.cls) 3
  let made := if x.opcode = 0x5001 then genType x
    else if x.opcode = 0x5007 && x.param = 0 then (match k with | some k => k.type | none => 0) else 0
  if 0x50 ≤ made && made ≤ 0x59 then (if 1 ≤ field && field ≤ 4 then field else 1)
  else if x.opClass = 5 || x.opClass = 9 || x.opClass ≥ 10 || !opFans x then 1
  else if 1 ≤ own && own ≤ 4 then own
  else if 1 ≤ field && field ≤ 4 then field
  else 1

/-- Verify-after-sign of a job at its first admission (R248). -/
def State.vasOf (s : State) (x : Job) : Bool :=
  let r := (s.frame (s.homeOf x)).vas.toNat
  if x.opClass = 5 || x.opClass = 9 || x.opClass ≥ 10 then false
  else match opVas x with | some g => bitOf r (4 * g + x.cls) | none => false

/-- Class of a job at its admission: at most its ring's ceiling, which a STRAND_QUOTA may have lowered since the job was parsed
(R74, R93). -/
def State.ceiledClass (s : State) (x : Job) : Nat :=
  match s.ring? x.fn x.ring with
  | some g => if x.sub.isSome then x.cls else min x.cls g.ceil
  | none => x.cls

/-- FANOUT and verify-after-sign of a job, read the first time S3 passes it and kept from then on (R243, R248). -/
def State.shape (s : State) (x : Job) (k : Option KeyObj) : Job :=
  if x.shaped then x
  else
    let x := { x with cls := s.ceiledClass x }
    { x with shaped := true, fanout := s.fanoutOf x k, vas := s.vasOf x }

/-- The first admission of a job: its place, its FANOUT and verify-after-sign, its stamp and its token (R76, R243, R248, R308,
R333). -/
def State.firstAdmission (s : State) (j : Nat) (k : Option KeyObj) : State :=
  match s.job? j with
  | none => s
  | some x =>
    if x.admitted.isSome then s
    else
      let x' := { s.shape x k with
        cls := s.ceiledClass x, admitted := some s.admissions, gen := (s.strand x.fn).gen }
      let s := { s with admissions := s.admissions + 1 }
      let s := if x.order && x.ring ≠ 0 && x.sub.isNone then
          let (a, r) := s.hdl.og.getD x.ogrp (0, 0)
          ({ s with hdl := { s.hdl with og := s.hdl.og.put (0, 0) x.ogrp (a + 1, r) } } : State).setJob j { x' with stamp := some a }
        else s.setJob j x'
      let t := s.strand x.fn
      let s := if x.fn ≠ 0 && x.ring ≠ 0 && x.sub.isNone && t.quota.rate ≠ 0 then
          s.setStrand x.fn { t with level := t.level - 2 ^ 20 } else s
      match s.job? j with
      | some y =>
        s.trace (y.ev 0x02 (some 1) (locCode s.dev (s.homeOf y) 15 15) (y.gen.toNat + y.ogrp * 2 ^ 16 + b2n y.order * 2 ^ 28))
      | none => s

/-- The masking order fixed at admission (R163, R206, R217, R218, R273). -/
def jobMask (x : Job) (k : Option KeyObj) : Nat :=
  if x.opClass = 5 || x.opClass = 10 || x.opClass = 15 then 0
  else if x.opClass = 9 then (k.map (·.policy.mask)).getD 0
  else opMask x k

/-- What an admission takes for the job: the use, the randomness, the key as admitted, the quota its pin is claimed under. -/
def State.takeAdmission (s : State) (j : Nat) (key : Option (Nat × KeyObj)) : State :=
  match s.job? j with
  | none => s
  | some x =>
    let k := key.map (·.2)
    let n := (k.map (usesOf x)).getD 0
    let uses := key.isSome && x.opClass ≠ 10 && decide (0 < n) && !isDwk x.handle
    let s := match key with
      | some (slot, k) => s.modKey slot k.uid (fun k => { k with
          inBuffer := false, reserved := if uses && !x.reserved then k.reserved + n else k.reserved })
      | none => s
    let s := match k.bind (fun k => if isXts x then s.tweakKey x k else none) with
      | some (slot, t) => s.modKey slot t.uid (fun k => { k with inBuffer := false })
      | none => s
    let (rnd, s) := s.takeFrame (s.homeOf x) (if x.rnd = [] then drawsOf x k else 0)
    s.setJob j { x with
      key := key, keyed := key.isSome
      key2 := (match k with | some k => if isXts x then s.tweakKey x k else none | none => none)
      mask := jobMask x k, reserved := x.reserved || uses, rnd := x.rnd ++ rnd, tagged := true, checked := true
      lines := if x.pinned then x.lines else s.lineQuota x.fn }

/-- S3 admits a job: class F and 5 go to firmware, an APPLET call to the call queue, every other job to a deque (R23, R94,
R232, R377). -/
def State.admitGo (s : State) (j : Nat) (x : Job) (key : Option (Nat × KeyObj)) : State :=
  let k := key.map (·.2)
  let enter (s : State) : State := (((s.leaveS3 j).firstAdmission j k).takeAdmission j key)
  let index (s : State) : State :=
    match key with
    | some (slot, k) =>
      if assignsIndex x && decide (k.ceil ≤ k.nextNow + s.indexDemand k.uid j + 1) then s.reserveIndices slot else s
    | none => s
  if x.opClass = 15 || x.opClass = 5 then
    if s.lateNow x then s.refuse j deadlineErr 1 0
    else
      let s := (enter s).modJob j (fun x => { x with stage := .firmware })
      let s := (s.requestBuffers x).passGate j x
      match key with
      | some (slot, k) =>
        if x.opcode = 0x5008 then s.destroyKey slot
        else if x.opcode = 0x5007 then (s.replStart j x.fn slot k).getD s
        else s
      | none => s
  else if x.opClass = 10 then
    let s := (enter (s.takeGate j)).modJob j (fun x => { x with stage := .called, phase := 0, img := s.crx.img })
    { s with crx := { s.crx with callQ := s.crx.callQ ++ [j] } }
  else if x.ranAhead then index (enter s)
  else
    match s.dealTarget { x with key := key } with
    | .noUnit => s.refuse j resourceErr 0x0401 0
    | .full => s
    | .creel f c => index ((enter s).enterDeque j f c false)

/-- Entry count `a` of a ring comes before `b`: at most 65,536 entries of a ring are in flight. -/
def ringBefore (a b : Nat) : Bool := a ≠ b && decide ((b + 2 ^ 32 - a) % 2 ^ 32 < 2 ^ 31)

/-- The job is the next of its ring at S3, in ring order: no earlier one stands there or has still to be parsed (R21, R229, R330);
class F takes one command of a ring at a time (R94). -/
def State.isNext (s : State) (j : Nat) (x : Job) : Bool :=
  let behind (fn ring start : Nat) : Bool := fn = x.fn && ring = x.ring && ringBefore start x.start
  x.sub.isSome ||
    (s.jobs.all (fun e =>
      e.1 = j || !behind e.2.fn e.2.ring e.2.start || e.2.sub.isSome || s.isOld e.2 || (e.2.checked && x.opClass ≠ 15)) &&
    s.hdl.ready.all (fun t => !behind t.fn t.ring t.start) &&
    s.frames.all (fun f => f.2.parse.all (fun t => !behind t.fn t.ring t.start)))

/-- The job stands at S3. -/
def Job.atS3 (x : Job) : Bool :=
  match x.stage with
  | .s3 => true
  | .waiting w => w = .randomness || w = .inflight || w = .token || w = .index || w = .tgate || (w = .spoolKey && x.key.isNone)
  | _ => false

/-- S3 tags a job and deals it, so that S4 may run ahead of the checks that are still running (R241): the key is taken when
checks 1 to 6 have passed. -/
def State.admitTag (s : State) (j : Nat) (x : Job) : State :=
  if !opDefined x && x.opClass ≠ 9 then s
  else if isInline x && (x.fam = 0x18 || x.fam = 0x28) then s
  else
    let keyed := s.takesKey x
    let key := if keyed then (match s.keyChecks x with | .ok k => some k | .error _ => none) else none
    let x := if keyed && key.isNone then x else s.shape x (key.map (·.2))
    let y := { x with tagged := true, gen := (s.strand x.fn).gen, key := key, keyed := keyed, lines := s.lineQuota x.fn,
                      mask := jobMask x (key.map (·.2)) }
    match s.dealTarget y with
    | .creel f c => (s.setJob j y).enterDeque j f c false
    | _ => s

/-- The key of a job that has run ahead is fetched from HBM: no reason to wait (R229), so the job stays in its deque, where S4 does
not claim it until the key is at hand (R241). -/
def State.admitFetch (s : State) (j : Nat) (x : Job) : State :=
  match s.findKey x.fn x.handle x.opcode with
  | .ok k => s.setJob j { x with key := some k, fetching := true }
  | .error _ => s

/-- S3 completes every check of a job that is the next of its ring. -/
def State.admitDecide (s : State) (j : Nat) (x : Job) : State :=
  if !s.isNext j x then s
  else
    match s.verdict j x with
    | .refuse m d r => s.admitRefuse j m d r
    | .wait w => if w = .cache && x.ranAhead then s.admitFetch j x else s.admitWait j w
    | .go key => s.admitGo j x key

/-- ADMIT: S3 acts on a job that stands there, or completes the checks of one that has run ahead. An APPLET call is
APPLET_CALL's. -/
def execAdmitStep (job : Nat) (phase : AdmitPhase) (s : State) : Host.Outcome State Fault Refusal :=
  finish (match s.job? job with
    | none => s
    | some x =>
      if !s.live || x.checked || x.fetching || !(x.atS3 || x.ranAhead) then s
      else
        match phase with
        | .tag =>
          if x.stage = .s3 && !x.tagged && s.isNext job x && x.opClass ≠ 15 && x.opClass ≠ 5 && x.opClass ≠ 10 then
            s.admitTag job x else s
        | .decide => if x.opClass = 10 then s else s.admitDecide job x)

/-- APPLET_CALL: S3 checks an APPLET call, and it joins the call queue (R377). -/
def execAppletCall (job : Nat) (s : State) : Host.Outcome State Fault Refusal :=
  finish (match s.job? job with
    | none => s
    | some x => if !s.live || x.checked || !x.atS3 || x.opClass ≠ 10 then s else s.admitDecide job x)

end Sys2Proof.Machine
end

