-- ==== Sys2Proof/Machine/Digest.lean ====
section
/-! DEFINITION. The register slots of the digest engine (chapter 15, R407 to R421). -/

namespace Sys2Proof.Machine

/-! ## Configuration (Table 15.4) -/

/-- ALG. -/
def DSlot.alg (d : DSlot) : Nat := fld d.cfg.toNat 0 4
/-- MAC. -/
def DSlot.mac (d : DSlot) : Nat := fld d.cfg.toNat 4 2
/-- CMP. -/
def DSlot.compares (d : DSlot) : Bool := bitOf d.cfg.toNat 8
/-- OUTLEN as written. -/
def DSlot.outField (d : DSlot) : Nat := fld d.cfg.toNat 16 7
/-- S_LEN. -/
def DSlot.sLen (d : DSlot) : Nat := fld d.cfg.toNat 24 6
/-- Output bytes: OUTLEN, or the full digest for 0. -/
def DSlot.outLen (d : DSlot) : Nat := if d.outField = 0 then phLen d.alg else d.outField
/-- Block bytes of the algorithm. -/
def DSlot.block (d : DSlot) : Nat := (phBlock d.alg).1
/-- Free words of the FIFO (Table 15.5). -/
def DSlot.freeWords (d : DSlot) : Nat := 32 - d.fifo

/-- Reserved bits of DGE_CTX_CFG are 0. -/
def dgeCfgClean (v : W32) : Bool := v &&& 0xC080FEC0 = 0

/-- The combinations of R411 that are valid. -/
def DSlot.cfgOk (d : DSlot) : Bool :=
  decide (1 ≤ d.alg) && decide (d.alg ≤ 8) && d.mac ≠ 3 && decide (d.sLen ≤ 32) && decide (d.outField ≤ 64)
    && (d.mac ≠ 1 || decide (d.alg ≤ 6)) && (d.mac ≠ 2 || decide (7 ≤ d.alg))
    && (!(decide (d.alg ≤ 6)) || decide (d.outField ≤ phLen d.alg))
    && (d.mac = 0 || d.outField = 0 || decide (4 ≤ d.outField))

/-! ## Users (R407, Table 15.1) -/

/-- The slot belongs to a register user. -/
def dgeOwns (w : DgeWriter) (slot : Nat) : Bool :=
  match w with
  | .manager => decide (48 ≤ slot) && decide (slot ≤ 51)
  | .core n => if n = 4 then decide (60 ≤ slot) && decide (slot ≤ 63) else decide (n < 4) && decide (slot / 2 = 26 + n)

/-- The user of a slot. -/
def dgeUser (slot : Nat) : DgeWriter := if slot < 52 then .manager else if slot < 60 then .core ((slot - 52) / 2) else .core 4

/-! ## Messages (R411, R412, R418, R419) -/

/-- The reservation of a message is returned. -/
def State.dgeUnreserve (s : State) (n : Nat) : State :=
  let d := s.dslot n
  match d.resv with
  | some (slot, uid) => (s.modKey slot uid (fun k => { k with reserved := k.reserved - 1 })).setDslot n { d with resv := none }
  | none => s

/-- The message ends in ERROR: its data, partial digest and output are wiped (R412, R419). A store that stalled goes on, and is ignored
there (R413, R420). -/
def State.dgeError (s : State) (n code : Nat) : State :=
  let s := (s.dgeUnreserve n).regDrop n
  let s := s.each (List.range (s.dslot n).held.length) (fun s _ => s.dgeMisuse)
  s.setDslot n { s.dslot n with
    state := 4, err := code, fifo := 0, held := [], msg := [], absorbed := 0, out := [], cmp := 1, sec := false, keyObj := none }

/-- The key check of a message, as of a MAC job's key: R121 for a handle of the manager, R154 for a KREF (R412). A key whose material is only
on the spool is none that a register message can have (log 144). -/
def State.dgeKey (s : State) (n : Nat) (d : DSlot) : Option (Nat × KeyObj) :=
  let w := d.key
  let manager := dgeUser n = .manager
  let handle := if manager then fld w.val.toNat 0 32 else fld w.val.toNat 32 32
  let op := if d.compares then 2 else 1
  let code := if d.mac = 1 then 0x3200 + op * 16 + d.alg else 0x3300 + op * 16 + (d.alg - 6)
  let x : Job := {
    fn := if manager then 0 else handleOwner handle
    ring := 0, start := 0, n := 1, seq := 0, opcode := code, cls := 0, order := false, irq := false
    words := [BitVec.ofNat 64 (handle * 2 ^ 32)], exts := [], deadline := none, gen := 0
    sub := if manager then none else some (0, 0), note := if manager then 0 else fld w.val.toNat 0 32 + 1 }
  if !manager && w.tag ≠ .kref then none
  else match s.keyChecks x with
    | .ok (slot, k) => if isDwk handle || (k.usesLeft 1 && k.atHand) then some (slot, k) else none
    | .error _ => none

/-- A message starts: output and compare indications cleared, CFG and key checked, one use reserved (R411, R412, R418). -/
def State.dgeStart (s : State) (n : Nat) : State :=
  let d := s.dslot n
  let s : State := if d.state = 3 then { s with dge := { s.dge with cntRestart := satInc s.dge.cntRestart } } else s
  let d := { d with state := 1, err := 0, fifo := 0, msg := [], absorbed := 0, out := [], cmp := 1, sec := false
                    keyObj := none }
  let s := s.setDslot n d
  if !d.cfgOk then s.dgeError n 1
  else if d.mac = 0 then s
  else
    match s.dgeKey n d with
    | none => s.dgeError n 2
    | some (slot, k) =>
      (s.modKey slot k.uid (fun k => { k with reserved := k.reserved + 1 })).setDslot n
        { d with resv := some (slot, k.uid), keyObj := some k }

/-- The FIFO of a slot holds a full block. -/
def DSlot.fullBlock (d : DSlot) : Bool := d.block ≠ 0 && decide (d.block ≤ d.msg.length - d.absorbed)

/-- A register slot with a full block in its FIFO requests a lane (R409). -/
def State.dgeWant (s : State) (n : Nat) : State := if (s.dslot n).fullBlock then s.regAsk n else s

/-- Bytes join the message: LENGTH beyond a declared length or 2^61 − 1 (R416). -/
def State.dgeAppend (s : State) (n : Nat) (b : Bytes) (sec : Bool) : State :=
  let d := s.dslot n
  let total := d.msg.length + b.length
  let declared := d.len ≠ BitVec.allOnes 64
  if (declared && decide (d.len.toNat < total)) || decide (2 ^ 61 - 1 < total) then s.dgeError n 3
  else
    (s.setDslot n { d with
      msg := d.msg ++ b, fifo := ceilDiv (total - d.absorbed) 8, sec := d.sec || (sec && d.mac = 0) }).dgeWant n

/-- A write of DGE_DATA (R411, R413, R414, R418, R420); a core's store stalls while no word of the FIFO is free. -/
def State.dgeData (s : State) (n size : Nat) (w : DgeWriter) (v : CWord) : State :=
  let d := s.dslot n
  if !dgeOwns w n then s
  else if size ≠ 8 || d.state = 2 || d.state = 4 then s.dgeMisuse
  else
    let s := if d.state = 1 then s else s.dgeStart n
    let d := s.dslot n
    if d.state ≠ 1 then s
    else if v.tag ≠ .int && v.tag ≠ .sec then s.dgeError n 5
    else if d.freeWords = 0 then (if w = .manager then s.dgeError n 4 else s.setDslot n { d with held := d.held ++ [v] })
    else s.dgeAppend n (leBytes 8 v.val.toNat) (v.tag = .sec)

/-- The stores that stall on a slot's FIFO go on, the oldest first, while a word is free (R413). -/
def State.dgeHeld (s : State) (n : Nat) : State :=
  s.each (List.range (s.dslot n).held.length) (fun s _ =>
    let d := s.dslot n
    match d.held with
    | v :: rest =>
      if d.freeWords = 0 then s else (s.setDslot n { d with held := rest }).dgeData n 8 (dgeUser n) v
    | [] => s)

/-- DGE_DATA_WRITE; where DGE_CTL.ABORT is written in the same cycle, the data is discarded (R421). An access of the manager that
is not 4 or 8 bytes wide is an Unsupported Request (R8). -/
def execDgeDataWrite (slot size : Nat) (writer : DgeWriter) (tag : Tag) (value : W64) (s : State) (abort : Bool := false) :
    Host.Outcome State Fault Refusal :=
  finish (if writer = .manager && s.barsOpen && size ≠ 4 && size ≠ 8 then { s with host := { s.host with ur := true } }
    else if abort && dgeOwns writer slot then s
    else if s.barsOpen || writer ≠ .manager then
      s.dgeData slot size writer { tag := if writer = .manager then .int else tag, val := value } else s)

/-- A write of DGE_LAST_DATA (R414). -/
def State.dgeLastData (s : State) (n size : Nat) (w : DgeWriter) (v : CWord) : State :=
  let d := s.dslot n
  if !dgeOwns w n then s
  else if size ≠ 8 then s.dgeMisuse
  else if (d.state = 1 || d.state = 2) && v.tag ≠ .int && v.tag ≠ .sec then s.dgeError n 5
  else s.setDslot n { d with lastData := v }

/-- The reserved use is counted as FINISH begins (R412). -/
def State.dgeSpend (s : State) (n : Nat) : State :=
  let d := s.dslot n
  match d.resv with
  | some (slot, uid) =>
    (s.modKey slot uid (fun k => { k with reserved := k.reserved - 1, uses := min (k.uses + 1) (2 ^ 64 - 1) })).setDslot n
      { d with resv := none }
  | none => s

/-- DGE_LAST_WRITE: the last bytes, the length check, FINISH (R415, R416). -/
def State.dgeLast (s : State) (slot : Nat) (value : W32) : State :=
  let d := s.dslot slot
    let count := fld value.toNat 0 4
    if slot < 48 || 64 ≤ slot then s
    else if 16 ≤ value.toNat || d.state = 2 || d.state = 4 then s.dgeMisuse
    else
      let s := if d.state = 1 then s else s.dgeStart slot
      let d := s.dslot slot
      if d.state ≠ 1 then s
      else if 8 < count then s.dgeError slot 3
      else if count ≠ 0 && d.lastData.tag ≠ .int && d.lastData.tag ≠ .sec then s.dgeError slot 5
      else
        let s := s.dgeAppend slot ((leBytes 8 d.lastData.val.toNat).take count) (count ≠ 0 && d.lastData.tag = .sec)
        let e := s.dslot slot
        if e.state ≠ 1 then s
        else if e.len ≠ BitVec.allOnes 64 && e.msg.length ≠ e.len.toNat then s.dgeError slot 3
        else
          let s := s.dgeSpend slot
          (s.setDslot slot { s.dslot slot with state := 2 }).regAsk slot

/-- DGE_LAST_WRITE by the slot's user. -/
def execDgeLastWrite (slot : Nat) (value : W32) (s : State) : Host.Outcome State Fault Refusal :=
  finish (s.dgeLast slot value)

/-- DGE_CTL_ABORT: the message is wiped and the slot returns to IDLE; ERR ABORTED during ABSORB and FINISH (R410, R419,
Table 15.6). -/
def State.dgeCtl (s : State) (slot : Nat) (value : W32) : State :=
  let d := s.dslot slot
    if slot < 48 || 64 ≤ slot then s
    else if 2 ≤ value.toNat then s.dgeMisuse
    else if value = 0 then s
    else
      let s := (s.dgeUnreserve slot).regDrop slot
      (s.setDslot slot { s.dslot slot with
        state := 0, err := if d.state = 1 || d.state = 2 then 6 else 0, fifo := 0, msg := [], absorbed := 0, out := []
        cmp := 1, sec := false, keyObj := none }).dgeHeld slot

/-- DGE_CTL_ABORT by the slot's user. -/
def execDgeCtlAbort (slot : Nat) (value : W32) (s : State) : Host.Outcome State Fault Refusal :=
  finish (s.dgeCtl slot value)

/-- DGE_CTX_CFG_WRITE: ignored in a message and with a reserved bit set; out of ERROR it returns the slot to IDLE (R419,
R420). -/
def State.dgeCfg (s : State) (slot : Nat) (value : W32) : State :=
  let d := s.dslot slot
    if slot < 48 || 64 ≤ slot then s
    else if !dgeCfgClean value || d.state = 1 || d.state = 2 then s.dgeMisuse
    else s.setDslot slot { d with cfg := value, state := if d.state = 4 then 0 else d.state, err := if d.state = 4 then 0 else d.err }

/-- DGE_CTX_CFG_WRITE by the slot's user. -/
def execDgeCtxCfgWrite (slot : Nat) (value : W32) (s : State) : Host.Outcome State Fault Refusal :=
  finish (s.dgeCfg slot value)

/-- DGE_LEN, DGE_KEY, DGE_EXPi, DGE_CUSTi: ignored during a message (R420). -/
def State.dgeSetup (s : State) (n size : Nat) (w : DgeWriter) (needs8 : Bool) (f : DSlot → DSlot) : State :=
  let d := s.dslot n
  if !dgeOwns w n then s
  else if (needs8 && size ≠ 8) || d.state = 1 || d.state = 2 then s.dgeMisuse
  else s.setDslot n (f d)

/-- A 64-bit register after a write of 8 bytes, or of 4 bytes to one half (R8). -/
def mergeHalf (old : W64) (off size : Nat) (v : W64) : W64 :=
  if size = 8 then v
  else if off % 8 = 4 then BitVec.ofNat 64 (old.toNat % 2 ^ 32 + v.toNat % 2 ^ 32 * 2 ^ 32)
  else BitVec.ofNat 64 (old.toNat / 2 ^ 32 * 2 ^ 32 + v.toNat % 2 ^ 32)

/-- A write at an offset of a slot's window (Table 15.2). -/
def State.dgeWrite (s : State) (n off size : Nat) (w : DgeWriter) (v : CWord) : State :=
  let low : W32 := v.val.setWidth 32
  let reg := off / 8 * 8
  let i := (off % 0x40) / 8
  if !dgeOwns w n then s
  else if reg = 0x00 then (if off = 0 then s.dgeCfg n low else s)
  else if reg = 0x08 then s.dgeSetup n size w false (fun d => { d with len := mergeHalf d.len off size v.val })
  else if reg = 0x10 then s.dgeSetup n size w true (fun d => { d with key := v })
  else if reg = 0x20 then s.dgeData n size w v
  else if reg = 0x28 then s.dgeLastData n size w v
  else if reg = 0x30 then (if off = 0x30 then s.dgeLast n low else s)
  else if reg = 0x38 then (if off = 0x38 then s.dgeCtl n low else s)
  else if decide (0x80 ≤ reg) && decide (reg < 0xC0) then
    s.dgeSetup n size w false (fun d => { d with exp := d.exp.put 0 i (mergeHalf (d.exp.getD i 0) off size v.val) })
  else if decide (0xC0 ≤ reg) && decide (reg < 0xE0) then
    s.dgeSetup n size w false (fun d => { d with cust := d.cust.put 0 i (mergeHalf (d.cust.getD i 0) off size v.val) })
  else s

/-- DGE_CTX_STS (Table 15.5); outside DONE and a compare fault the pattern reads as a mismatch (R417). -/
def DSlot.sts (d : DSlot) : Nat :=
  let cmp := if d.state = 3 || d.err = 7 then d.cmp.toNat else 1
  d.freeWords * 2 ^ 48 + d.err * 2 ^ 32 + d.msgs.toNat * 2 ^ 16 + cmp * 2 ^ 8 + b2n d.sec * 128 + d.state

/-- An aligned 64-bit read of a slot's window by its user (Table 15.2); the output of a secret message reads SEC (R414). -/
def DSlot.read (d : DSlot) (reg : Nat) : CWord :=
  let num (v : Nat) : CWord := { tag := .int, val := BitVec.ofNat 64 v }
  let cmp := fld d.sts 8 2
  if reg = 0x00 then num d.cfg.toNat
  else if reg = 0x08 then { tag := .int, val := d.len }
  else if reg = 0x18 then num d.sts
  else if decide (0x40 ≤ reg) && decide (reg < 0x80) then
    { tag := if d.sec then .sec else .int
      val := if d.state = 3 then BitVec.ofNat 64 (leAt d.out (reg - 0x40) 8) else 0 }
  else if decide (0xC0 ≤ reg) && decide (reg < 0xE0) then { tag := .int, val := d.cust.getD ((reg - 0xC0) / 8) 0 }
  else if reg = 0xE0 then num (cmp / 2)
  else if reg = 0xE8 then num (cmp % 2)
  else num 0

/-! ## Lanes, padding and compare (R409, R415, R417) -/

/-- The customization string. -/
def DSlot.cust' (d : DSlot) : Bytes := ((List.range 4).map (fun i => leBytes 8 (d.cust.getD i 0).toNat)).flatten.take d.sLen
/-- The expected output. -/
def DSlot.expected (d : DSlot) : Bytes := ((List.range 8).map (fun i => leBytes 8 (d.exp.getD i 0).toNat)).flatten.take d.outLen

/-- The digest or MAC of the message, with the labels of the class 0x3 jobs. -/
def DSlot.digest (d : DSlot) : Bytes :=
  let mat := (d.keyObj.map (·.mat)).getD []
  match d.mac with
  | 1 => algoBytes (0x3210 + d.alg) [mat, d.msg] d.outLen
  | 2 => algoBytes (0x3310 + (d.alg - 6)) [mat, d.msg, d.cust', leBytes 4 d.outLen] d.outLen
  | _ => hashTo d.alg d.msg d.outLen

/-- The message is finished: the output, or the comparison; comparators that disagree are a compare fault (R417). -/
def State.dgeFinish (s : State) (n : Nat) (disagree : Bool) : State :=
  let d := s.dslot n
  let out := d.digest
  let e := { d with fifo := 0, absorbed := d.msg.length }
  if d.compares && disagree then
    let (b, s) := s.freeBit
    let s := s.dgeError n 7
    let s := s.setDslot n { s.dslot n with cmp := if b then 3 else 0 }
    let s : State := { s with dge := { s.dge with cntCmpFault := satInc s.dge.cntCmpFault } }
    s.fireGroup [{ source := 0x19, detectorA := false, detectorB := false, detail := 0 }]
  else
    s.setDslot n { e with
      state := 3, msgs := d.msgs + 1, out := if d.compares then [] else out, keyObj := none, msg := [], absorbed := 0
      cmp := if d.compares && out = d.expected then 2 else 1 }

/-- DIGEST_BLOCK_DONE: the lane that a slot holds absorbs its next full block, or finishes its message. The slot drops its request
after a block that leaves no full block in the FIFO, and when it is done (R409, R415). -/
def execDigestBlockDone (slot : Nat) (comparatorsDisagree : Bool) (s : State) : Host.Outcome State Fault Refusal :=
  finish (let d := s.dslot slot
    let left := d.msg.length - d.absorbed
    if slot < 48 || 64 ≤ slot || (d.state ≠ 1 && d.state ≠ 2) || (s.regLane slot).isNone then s
    else if d.fullBlock then
      let e := { d with absorbed := d.absorbed + d.block, fifo := ceilDiv (left - d.block) 8 }
      let s := (s.setDslot slot e).dgeHeld slot
      if (s.dslot slot).fullBlock || d.state = 2 then s else s.regDrop slot
    else if d.state = 2 then (s.dgeFinish slot comparatorsDisagree).regDrop slot
    else s)

end Sys2Proof.Machine
end

