-- ==== Sys2Proof/Machine/Stage.lean ====
section
/-! DEFINITION. S4 (chapter 8): how an idle unit finds a job (R236, R237), the claim of everything at once (R234, R240, R244,
R254), stage-in from the host (R71), and the return of a staging bank (R240). -/

namespace Sys2Proof.Machine

/-! ## The claim (R234) -/


/-- Stage-ins in progress in a frame. -/
def State.stageIns (s : State) (f : Nat) : Nat :=
  (s.jobsWhere (fun x => x.stage = .s4 && (match x.place with | some (g, _) => g = f | none => false))).length

/-- A unit is held by a job. -/
def State.holdUnit (s : State) (f c u j : Nat) : State := s.setUnit f c u { s.unit f c u with job := some j }

/-- The spindles a job claims: the one that takes it, and for fan-out up to FANOUT − 1 further idle ones (R244). -/
def State.fanSpindles (s : State) (x : Job) (f c u : Nat) : List Nat :=
  let more := (List.range 12).filter (fun v => v ≠ u && s.idle f c v && (s.unit f c v).lent.isNone)
  (List.range 12).filter (fun v => v = u || (more.take (x.fanout - 1)).contains v)

/-- The spindle `u` can be taken by a job. -/
def State.spindleFor (s : State) (x : Job) (f c u : Nat) : Bool :=
  s.idle f c u && s.gateOpen f c && (!s.banks8 x || (s.unit f c u).lent.isNone)

/-- The carder and one staging bank (R234, R240). -/
def State.claimCarder (s : State) (j : Nat) (x : Job) (f c : Nat) : Option State :=
  if !needsCarder x then some s
  else if !s.idle f c 12 then none
  else
    (s.bankFor f c).map (fun b =>
      ((s.holdUnit f c 12 j).setUnit f c b { s.unit f c b with lent := some j }).modJob j
        (fun x => { x with carder := true, bank := some b }))

/-- The spindle slots: the spindle `u` that takes the job, and those of its fan-out (R234, R244). -/
def State.claimSpindles (s : State) (j : Nat) (x : Job) (f c u : Nat) : Option State :=
  if !needsSpindle x then some s
  else if !(u < 12 && s.spindleFor x f c u) then none
  else
    let spns := s.fanSpindles x f c u
    some ((s.each spns (fun s v => s.holdUnit f c v j)).modJob j (fun x => { x with spns := spns }))

/-- A job that hashes its message on a digest lane of the seal island: the lane is asked for when the message is staged (R208,
R409). -/
def hashes (x : Job) : Bool :=
  match x.fam with
  | 0x18 => x.opParam = 2
  | 0x28 => 1 ≤ x.opParam
  | 0x29 => !bitOf x.param 8
  | 0x2A => true
  | _ => opUnit x = .digest

/-- The lowest context slot of the job pool that is free goes to a job; none is free, no claim (R408). -/
def State.claimSlot (s : State) (j : Nat) : Option State :=
  (firstBelow 48 (fun n => s.jobs.all (fun e => e.2.dslot ≠ some n))).map (fun n =>
    s.modJob j (fun x => { x with dslot := some n }))

/-- What a job claims of the seal island: an AES job has its lane at once, a class 0x3 job and one whose message is hashed a context
slot, AES-CMAC both (R208, R218, R408). -/
def State.claimLane (s : State) (j : Nat) (x : Job) (f : Nat) : Option State :=
  if opUnit x = .aes then
    let s := s.laneAsk 4 f j x.deadline
    if (s.laneOf 4 j).isNone then none
    else if x.opClass = 3 then s.claimSlot j
    else some s
  else if hashes x then s.claimSlot j
  else some s

/-- The key of a job whose checks still run is at hand, so that S4 may stage it (R241). -/
def State.keyStaged (s : State) (x : Job) : Bool :=
  !x.fetching && (!x.keyed || x.checked || (match x.key with | some (slot, k) => s.keyAtHand x slot k | none => false))

/-- The claim of R234 for job `j` on unit `u` of creel `c` of frame `f` (12: the carder; creel 15: the seal or entropy island):
everything at once, or none. -/
def State.claim (s : State) (j f c u : Nat) : Option State :=
  match s.job? j with
  | none => none
  | some x =>
    let cr := s.creel f c
    if 16 ≤ s.stageIns f || !s.keyStaged x then none
    else if 1 ≤ x.mask && c < 11 && (!cr.maskSeeded || cr.maskHeld) then none
    else
      match ((s.claimCache j x.lines).bind (fun s => s.claimCarder j x f c)).bind (fun s =>
          (s.claimSpindles j x f c u).bind (fun s => s.claimLane j x f)) with
      | none => none
      | some s =>
        some ((s.undeal j).modJob j (fun x => { x with stage := .s4, place := some (f, c), since := 0 }))

/-- The claim would succeed now: "can claim" of R236. -/
def State.canClaim (s : State) (j f c u : Nat) : Bool := (s.claim j f c u).isSome

/-! ## Work stealing (R236, R237) -/

/-- The kinds of jobs a unit considers: a spindle those that need a spindle, a carder those that need a carder alone. -/
def State.considers (s : State) (u j : Nat) : Bool :=
  match s.job? j with
  | some x => if u = 12 then needsCarder x && !needsSpindle x else needsSpindle x
  | none => false

/-- Unit `u` of creel `c` in frame `f` considers the job and can claim it. -/
def State.takes (s : State) (f c u j : Nat) : Bool := s.considers u j && s.canClaim j f c u

/-- A deque entry is ripe: requeued as one, or 100 µs in its deque. -/
def State.isRipe (s : State) (x : Job) : Bool := x.ripe || decide (x.dealtAt + 100 ≤ s.now)

/-- Time a job entered its deque. -/
def State.dealtAtOf (s : State) (j : Nat) : Nat := ((s.job? j).map (·.dealtAt)).getD 0

/-- The class of a job. -/
def State.clsOf (s : State) (j : Nat) : Nat := ((s.job? j).map (·.cls)).getD 0

/-- What a unit takes from its own deque: the oldest ripe entry it can claim, else the one of highest class among the bottom
four. The deque is listed bottom first. -/
def State.ownPick (s : State) (f c u : Nat) : Option Nat :=
  let d := (s.creel f c).deque
  let ripe := d.reverse.filter (fun j => (match s.job? j with | some x => s.isRipe x | none => false) && s.takes f c u j)
  match leastOf s.dealtAtOf ripe with
  | some j => some j
  | none => leastOf (fun j => 3 - s.clsOf j) ((d.take 4).filter (s.takes f c u))

/-- The top entry of a deque. -/
def State.topOf (s : State) (f c : Nat) : Option Nat := (s.creel f c).deque.getLast?

/-- The deepest of some creels of a frame, the lowest-numbered among equals. -/
def State.deepest (s : State) (f : Nat) (p : Nat → Bool) : Option Nat :=
  leastOf (fun c => 128 - min 128 (s.creel f c).deque.length) ((List.range 11).filter p)

/-- The creel of the unit's own frame whose top entry it steals. -/
def State.nearVictim (s : State) (f c u : Nat) : Option Nat :=
  let cfg := (s.frame f).cfg.toNat
  if !bitOf cfg 0 then none
  else
    match s.deepest f (· ≠ c) with
    | none => none
    | some v =>
      if (s.creel f v).deque.length < max 1 (fld cfg 12 4) then none
      else match s.topOf f v with
        | some j => if s.takes f c u j then some v else none
        | none => none

/-- A key is warm on no spindle of a frame. -/
def State.coldIn (s : State) (x : Job) (f : Nat) : Bool :=
  match x.key with
  | some (_, k) => !(List.range 11).any (s.warmOn k.uid f)
  | none => true

/-- The creel of frame `g` whose top entry the unit may steal across frames (R237). -/
def State.farVictim (s : State) (g f c u : Nat) : Option Nat :=
  s.deepest g (fun v =>
    match s.topOf g v with
    | some j => (match s.job? j with | some x => x.checked && s.coldIn x g | none => false) && s.takes f c u j
    | none => false)

/-- The frame and creel of the first cross-frame victim. -/
def State.farPick (s : State) (f c u : Nat) : Option (Nat × Nat) :=
  let x := s.frame f
  if u = 12 || !bitOf x.cfg.toNat 8 || x.budget = 0 then none
  else
    ((List.range 3).map (fun i => (f + 1 + i) % 4)).findSome? (fun g => (s.farVictim g f c u).map (fun v => (g, v)))

/-- A unit takes the top entry of a victim's deque: the job now stands in the thief's creel, meant for that unit. -/
def State.takeTop (s : State) (g v f c u : Nat) : State :=
  match s.topOf g v with
  | none => s
  | some j =>
    let s := s.undeal j
    let s := s.setCreel f c { s.creel f c with deque := j :: (s.creel f c).deque }
    let s := s.modJob j (fun x => { x with stage := .deque f c, thief := some (f, c, u) })
    let s := if g = f then s
      else s.setFrame f { s.frame f with budget := (s.frame f).budget - 1, cntXsteal := satInc (s.frame f).cntXsteal }
    match s.job? j with
    | some x =>
      s.trace (x.ev 0x04 (some 1) (locCode s.dev f c u) ((locCode s.dev g v 15).toNat + b2n (g != f) * 2 ^ 32))
    | none => s

/-- NEXT_JOB: the procedure of R236 for an idle unit. -/
def execNextJob (frame creel unit : Nat) (s : State) : Host.Outcome State Fault Refusal :=
  finish (if !s.live || !(frame < 4 && creel < 11 && unit ≤ 12) || !s.idle frame creel unit then s
    else
      match s.ownPick frame creel unit with
      | some j => s.modJob j (fun x => { x with thief := some (frame, creel, unit) })
      | none =>
        match s.nearVictim frame creel unit with
        | some v => s.takeTop frame v frame creel unit
        | none =>
          match s.farPick frame creel unit with
          | some (g, v) => s.takeTop g v frame creel unit
          | none => s)

/-- The unit that claims a dealt job: the one NEXT_JOB chose, or the lowest-numbered whose own choice the job is; of the seal
and entropy islands, unit 15. -/
def State.claimUnit (s : State) (j : Nat) (x : Job) (f c : Nat) : Option Nat :=
  if c = 15 then some 15
  else
    match x.thief with
    | some (tf, tc, u) => if tf = f && tc = c && s.idle f c u then some u else none
    | none => firstBelow 13 (fun u => s.idle f c u && s.ownPick f c u = some j)

/-- What the claim of a job on unit `u` takes of a creel: units by their number, and bank 7 of spindle `v` as 16 + `v` (R234, R240,
R244). -/
def State.claimSet (s : State) (x : Job) (f c u : Nat) : List Nat :=
  let spns := if needsSpindle x then s.fanSpindles x f c u else []
  spns ++ (if s.banks8 x then spns.map (16 + ·) else []) ++
    (if needsCarder x then 12 :: ((s.bankFor f c).map (16 + ·)).toList else [])

/-- A job claims in the same creel and the same cycle as `x`, which claims unit `u`: it could claim, and the two contend for a unit or
for a bank (R235). -/
def State.contends (s : State) (x : Job) (f c u k : Nat) : Bool :=
  match s.job? k with
  | some y =>
    y.stage = .deque f c && !s.lateNow y &&
      (match s.claimUnit k y f c with
       | some v => (s.claimSet y f c v).any (s.claimSet x f c u).contains && s.canClaim k f c v
       | none => false)
  | none => false

/-- The job of a list that S3 admitted first; one it has not admitted yet comes last. -/
def State.firstAdmitted (s : State) (js : List Nat) : Option Nat :=
  leastOf (fun k => ((s.job? k).bind (·.admitted)).getD s.admissions) js

/-- STAGE_IN_CLAIM: S4 entry. The deadline is checked; the claim succeeds whole, and the buffers are requested, or the job stays
in its deque, blocked from now on (R73, R234, R338). Of the `rivals` that claim in the same cycle and contend with it, the one
that S3 admitted first wins (R235). -/
def execStageInClaim (job : Nat) (s : State) (rivals : List Nat := []) : Host.Outcome State Fault Refusal :=
  finish (match s.job? job with
    | none => s
    | some x =>
      match x.stage with
      | .deque f c =>
        if !s.live then s
        else if s.lateNow x then s.refuse job deadlineErr 1 0
        else
          let blocked := s.setJob job { x with thief := none, since := if x.since = 0 then s.now + 1 else x.since }
          match s.claimUnit job x f c with
          | none => if (List.range 13).any (fun u => s.takes f c u job) then s else blocked
          | some u =>
            if !s.canClaim job f c u then blocked
            else
              match s.firstAdmitted (job :: rivals.filter (s.contends x f c u)) with
              | none => s
              | some w =>
                match s.job? w with
                | none => s
                | some y =>
                  match s.claim w f c ((s.claimUnit w y f c).getD u) with
                  | some s => s.requestBuffers y
                  | none => s
      | _ => s)

/-! ## Stage-in (R71) -/

/-- The DMA detail of a failed read. -/
def readDetail (b : BufKind) (o : ReadOutcome) (extent : Nat) : Nat :=
  match o with
  | .translation => 5
  | .timeout => 6
  | _ => match b with
    | .auxiliary => 3
    | .input => if extent = 0 then 1 else 2

/-- DMA_READ_COMPLETION: the host's answer for a whole buffer, or its first failure and the extent it struck. A buffer shorter
than requested is a short read. While S3 reads the header of an inline RSA key, the answer is those header bytes (R201). -/
def execDmaReadCompletion (job : Nat) (buffer : BufKind) (outcome : ReadOutcome) (extent : Nat) (data : Bytes) (s : State) :
    Host.Outcome State Fault Refusal :=
  finish (match s.job? job with
    | none => s
    | some x =>
      let reads := x.stage = .s4 || x.stage = .firmware || (x.stage = .waiting .header && buffer = .auxiliary)
      let header := decide (x.stage = .waiting .header)
      let need := match buffer with
        | .input => x.inLen
        | .auxiliary => if header then 8 * (rsaOffsets x).length else x.auxLen
      let due := match buffer with | .input => x.input.isNone | .auxiliary => x.aux.isNone
      if !reads || !due || need = 0 then s
      else
        let o := if outcome = .ok && data.length ≠ need then ReadOutcome.short else outcome
        if o = .ok then
          match buffer with
          | .input => s.setJob job { x with input := some data }
          | .auxiliary =>
            if header then (s.leaveS3 job).setJob job { x with hdr := some data, stage := .s3 }
            else s.setJob job { x with aux := some data }
        else
          let s := s.readError o
          let d := readDetail buffer o extent
          if x.stage = .firmware then (s.doneErr job dmaErr d).modJob job (fun x => { x with early := true }) else s.refuse job dmaErr d 0)

/-- STAGING_BANK_RELEASE: the carder has loaded its operands, and the bank returns to its spindle (R234, R240). -/
def execStagingBankRelease (job : Nat) (s : State) : Host.Outcome State Fault Refusal :=
  finish (match s.job? job with
    | some x => if x.stage = .s5 || x.stage = .ended then s.freeBank job else s
    | none => s)

end Sys2Proof.Machine
end

