-- ==== Sys2Proof/Machine/Crixa.lean ====
section
/-! DEFINITION. Crixa cores: the memory map, tagged registers and words, traps, the end of a call, and the frame every
instruction runs in (chapter 13, R354 to R368). -/

namespace Sys2Proof.Machine

/-! ## Memory map (R356, R378, log 14) -/

/-- Where a word of Crixa memory stands: local or private memory of a core, shared memory, or the stack or scratch of a call
context; with its word index. -/
inductive CWhere where
  | local (core i : Nat)
  | shared (i : Nat)
  | stack (ctx i : Nat)
  | scratch (ctx i : Nat)
deriving DecidableEq, Repr

/-- Base of the stack of a context in its core's local memory. -/
def stackBase (k : Nat) : Nat := 0x20000 + 0x4000 * (k % 8)
/-- Base of the scratch of a context in shared memory. -/
def scratchBase (k : Nat) : Nat := 0x10200000 + 0x10000 * k
/-- First word of the memory return stack of a context, above its spill area of 49 frames. -/
def rstackBase (k : Nat) : Nat := stackBase k + 0x2000 + 49 * 128

/-- The word that holds an address of a core's map. -/
def cLocate (core a : Nat) : Option CWhere :=
  if core = 4 then (if a < 0x80000 then some (.local 4 (a / 8)) else none)
  else if a < 0x20000 then some (.local core (a / 8))
  else if a < 0x40000 then some (.stack (8 * core + (a - 0x20000) / 0x4000) (a % 0x4000 / 8))
  else if decide (0x10000000 ≤ a) && decide (a < 0x10200000) then some (.shared ((a - 0x10000000) / 8))
  else if decide (0x10200000 ≤ a) && decide (a < 0x10400000) then
    some (.scratch ((a - 0x10200000) / 0x10000) (a % 0x10000 / 8))
  else none

/-- The address is one the core's current code may access: an applet sees its own data stack and scratch only (R378). -/
def Core.reach (c : Core) (core a : Nat) : Option CWhere :=
  match cLocate core a with
  | none => none
  | some w =>
    if !c.r.applet then some w
    else
      match c.ctx, w with
      | some k, .stack k' i => if k = k' && decide (i < 1024) then some w else none
      | some k, .scratch k' _ => if k = k' then some w else none
      | _, _ => none

/-- Read a word. -/
def State.cword (s : State) (w : CWhere) : CWord :=
  match w with
  | .local n i => (s.core n).mem.getD i {}
  | .shared i => s.crx.shared.getD i {}
  | .stack k i => (s.ctx k).stack.getD i {}
  | .scratch k i => (s.ctx k).scratch.getD i {}

/-- Write a word. -/
def State.setCword (s : State) (w : CWhere) (v : CWord) : State :=
  match w with
  | .local n i => s.setCore n { s.core n with mem := (s.core n).mem.put {} i v }
  | .shared i => { s with crx := { s.crx with shared := s.crx.shared.put {} i v } }
  | .stack k i => s.setCtx k { s.ctx k with stack := (s.ctx k).stack.put {} i v }
  | .scratch k i => s.setCtx k { s.ctx k with scratch := (s.ctx k).scratch.put {} i v }

/-- A byte of a 64-bit value. -/
def wbyte (v : W64) (i : Nat) : Byte := BitVec.ofNat 8 (v.toNat / 2 ^ (8 * i))

/-- Bytes put into a value at a byte position. -/
def putWbytes (v : W64) (i : Nat) (b : Bytes) : W64 :=
  BitVec.ofNat 64 (ofLe ((List.range 8).map (fun j => if i ≤ j && j < i + b.length then (b[j - i]?).getD 0 else wbyte v j)))

/-- A word after bytes of a tag, INT or SEC, are written into it: a SEC word written in part stays SEC, a word of another tag
keeps none of its other bytes (R358, R359, log 65). -/
def CWord.merge (w : CWord) (i : Nat) (b : Bytes) (sec : Bool) : CWord :=
  if b.length = 8 then { tag := if sec then .sec else .int, val := putWbytes 0 0 b }
  else
    let old : W64 := if w.tag = .int || w.tag = .sec then w.val else 0
    { tag := if sec || w.tag = .sec then .sec else .int, val := putWbytes old i b }

/-- Write host or device bytes at an address, word by word. `fuel` bounds the words. -/
def State.putCbytes (s : State) (core a : Nat) (sec : Bool) : Nat → Bytes → State
  | 0, _ => s
  | _, [] => s
  | fuel + 1, b =>
    let n := min (8 - a % 8) b.length
    let s := match cLocate core a with
      | some w => s.setCword w ((s.cword w).merge (a % 8) (b.take n) sec)
      | none => s
    s.putCbytes core (a + n) sec fuel (b.drop n)

/-- The words that `n` bytes at an address touch, all reachable, or the first address that is not. -/
def Core.span (c : Core) (core a n : Nat) : Except Nat (List CWhere) :=
  if n = 0 then .ok []
  else
    (List.range ((a + n - 1) / 8 - a / 8 + 1)).foldr (fun i r =>
      match c.reach core ((a / 8 + i) * 8), r with
      | none, _ => .error (if i = 0 then a else (a / 8 + i) * 8)
      | _, .error e => .error e
      | some w, .ok l => .ok (w :: l)) (.ok [])

/-- The bytes at an address. -/
def State.cbytes (s : State) (core a n : Nat) : Bytes :=
  (List.range n).map (fun i =>
    match cLocate core (a + i) with
    | some w => wbyte (s.cword w).val ((a + i) % 8)
    | none => 0)

/-! ## Registers (R360, R361, R363) -/

/-- A word with the tag POISON: what an unset register reads. -/
def poisonWord : CWord := { tag := .poison, val := 0 }

/-- An INT word. -/
def intWord (v : W64) : CWord := { tag := .int, val := v }

/-- Read a register by its name. -/
def CRegs.get (r : CRegs) (n : Nat) : CWord :=
  if n < 16 then r.shared.getD n poisonWord else (r.frames.headD []).getD (n - 16) poisonWord

/-- Write a register by its name. -/
def CRegs.set (r : CRegs) (n : Nat) (w : CWord) : CRegs :=
  if n < 16 then { r with shared := r.shared.put poisonWord n w }
  else
    match r.frames with
    | [] => { r with frames := [Tbl.put [] poisonWord (n - 16) w] }
    | f :: fs => { r with frames := f.put poisonWord (n - 16) w :: fs }

/-- The load in its load slot completes (R363). -/
def CRegs.settleLoad (r : CRegs) : CRegs :=
  match r.slot with
  | some (n, w) => { r.set n w with slot := none }
  | none => r

/-- The next instruction. -/
def CRegs.next (r : CRegs) : CRegs := { r with pc := r.pc + 4 }

/-- The flags as one. -/
def CRegs.nzcv (r : CRegs) : Nzcv := { n := r.n, z := r.z, c := r.c, v := r.v }

/-- Flags of an ALU instruction, with the taint flag (R362). -/
def CRegs.setFlags (r : CRegs) (f : Nzcv) (taint : Bool) : CRegs :=
  { r with n := f.n, z := f.z, c := f.c, v := f.v, t := taint }

/-! ## Traps and the end of a call (R365, R380) -/

/-- What an instruction does: a next state with its registers, its cycles and a load left in its slot; a trap with its code
and TVAL; or nothing yet. -/
inductive CStep where
  | ok (s : State) (r : CRegs) (cycles : Nat) (load : Option (Nat × CWord))
  | trap (code tval : Nat)
  | wait (s : State)

/-- The core goes back to its firmware. -/
def State.toFirmware (s : State) (n : Nat) : State :=
  let c := s.core n
  s.setCore n { c with r := c.fw, ctx := none, run := true }

/-- An APPLET call ends: its outstanding sub-jobs are dropped, its context is free, and the call goes to S6 (R379, R380). -/
def State.endCall (s : State) (k major detail resLen : Nat) (result : Bytes) : State :=
  let x := s.ctx k
  let s := s.each (s.subJobsOf k) State.dropOne
  let s := match x.job with
    | some j =>
      match s.job? j with
      | some y => s.setJob j { y with
          stage := .s6, major := major, detail := detail, resLen := resLen, result := result, engine := 0x3FC0
          cycles := x.cycles, fLate := s.lateNow y }
      | none => s
    | none => s
  let s := s.setCtx k {}
  if (s.core (k / 8)).ctx = some k then s.toFirmware (k / 8) else s

/-- Service firmware stops a cancelled call: it leaves with nothing written, and one of an earlier generation counts as a late
completion (R310, R311, R380). -/
def State.stopCancelled (s : State) (k : Nat) : State :=
  let x := s.ctx k
  let s := s.each (s.subJobsOf k) State.dropOne
  let s := match x.job with
    | some j => if (s.job? j).any s.isOld then s.discardLate j else s.dropOne j
    | none => s
  let s := s.setCtx k {}
  if (s.core (k / 8)).ctx = some k then s.toFirmware (k / 8) else s

/-- Count a trap on a core. -/
def State.countTrap (s : State) (n code : Nat) : State :=
  let c := s.core n
  s.setCore n { c with traps := satInc c.traps, lastTrap := code }

/-- The trap registers. -/
def CRegs.trapRegs (r : CRegs) (pc : W64) (code tval : Nat) : CRegs :=
  { r with epc := pc, cause := code, tval := BitVec.ofNat 64 tval }

/-- A trap is taken (R365): an applet's ends its call; supervisor code goes to its handler, and a trap inside the handler is a
fail-stop. `r` holds the registers with the pc of the trapping instruction. -/
def State.takeTrap (s : State) (n : Nat) (r : CRegs) (code tval : Nat) : State :=
  let s := s.countTrap n code
  let c := s.core n
  match c.ctx, r.applet with
  | some k, true =>
    let s := s.setCore n { c with r := r, fw := c.fw.trapRegs r.pc code tval }
    let s : State := { s with crx := { s.crx with cntAfault := satInc s.crx.cntAfault } }
    s.endCall k appletErr (0x0880 + code) 0 []
  | _, _ =>
    if r.inTrap then (s.setCore n { c with r := r }).haltDevice 2
    else s.setCore n { c with r := { r.trapRegs r.pc code tval with inTrap := true, pc := Config.trapHandler n } }

/-- The code region, executable by applets (R378). -/
def inCode (pc : W64) : Bool := decide (0x40000000 ≤ pc.toNat) && decide (pc.toNat ≤ 0x403FFFFF)

/-- The core executes instructions: its firmware runs, no debugger holds it, and its context is not blocked. -/
def State.coreRuns (s : State) (n : Nat) : Bool :=
  let c := s.core n
  s.awake && decide (n < 5) && c.run && (!c.dbgHalt || c.dbgStep)
    && (match c.ctx with | some k => (s.ctx k).job.isSome && (s.ctx k).blocked.isNone | none => true)

/-- The core stands at a debug breakpoint: in DEBUG only, and not at the instruction that the debugger has asked for (Table 13.6). -/
def State.atBreak (s : State) (n : Nat) : Bool :=
  let c := s.core n
  s.glb.debug && !c.dbgStep && c.breaks.contains c.r.pc

/-- BREAK: the trap registers take it, the load before completes, and the debugger has the core (R363, R365). -/
def State.breakTrap (s : State) (n : Nat) : State :=
  let s := s.countTrap n 0x11
  let c := s.core n
  let r := c.r.settleLoad
  s.setCore n (if r.applet then { c with r := r, fw := c.fw.trapRegs r.pc 0x11 0, dbgHalt := true }
    else { c with r := r.trapRegs r.pc 0x11 0, dbgHalt := true })

/-- A core executes an instruction. The load of the instruction before completes at its end, over its own write; on a trap the
load completes first (R363). -/
def State.instr (s : State) (n : Nat) (f : State → CRegs → CStep) : State :=
  let c := s.core n
  if !s.coreRuns n then s
  else
    match c.ctx.bind (fun k => if (s.ctx k).cancelled then some k else none) with
    | some k => s.stopCancelled k
    | none =>
      let r := c.r
      if s.atBreak n then s.breakTrap n
      else match (if r.applet && !inCode r.pc then .trap 0x07 r.pc.toNat else f s r) with
      | .wait t => t
      | .trap code tval => (s.setCore n { c with dbgStep := false }).takeTrap n r.settleLoad code tval
      | .ok t r' cyc load =>
        let d := t.core n
        let t := t.setCore n { d with r := { r'.settleLoad with slot := load }, dbgStep := false }
        match c.ctx with
        | some k => t.setCtx k { t.ctx k with cycles := (t.ctx k).cycles + cyc }
        | none => t

/-! ## Operands (R357, Table 13.4) -/

/-- An operand of a register: POISON and TAG checked; `pos` is its number for TVAL (log 64). -/
def CRegs.operand (r : CRegs) (n pos : Nat) (accept : Tag → Bool) : Except (Nat × Nat) CWord :=
  let w := r.get n
  if w.tag = .poison then .error (0x04, n) else if accept w.tag then .ok w else .error (0x03, pos)

/-- INT or SEC. -/
def isData (t : Tag) : Bool := t = .int || t = .sec
/-- INT only. -/
def isInt (t : Tag) : Bool := t = .int
/-- PTR only. -/
def isPtr (t : Tag) : Bool := t = .ptr

/-- An instruction whose operands may trap. -/
def cRun (e : Except (Nat × Nat) CStep) : CStep := match e with | .ok x => x | .error (c, v) => .trap c v

/-- Instruction words, for TVAL (Table 13.7). -/
def encR (op rd ra rb func : Nat) : Nat := op * 2 ^ 26 + rd * 2 ^ 21 + ra * 2 ^ 16 + rb * 2 ^ 11 + func
/-- I format. -/
def encI (op rd ra imm : Nat) : Nat := op * 2 ^ 26 + rd * 2 ^ 21 + ra * 2 ^ 16 + imm

/-- A word tagged INT, or SEC when tainted. -/
def dataWord (v : W64) (sec : Bool) : CWord := { tag := if sec then .sec else .int, val := v }

end Sys2Proof.Machine
end

