-- ==== Sys2Proof/Machine/CrixaScalar.lean ====
section
/-! DEFINITION. The scalar instructions of the Crixa cores (R357 to R369, R375; Tables 13.4 to 13.9). -/

namespace Sys2Proof.Machine

/-! ## ALU -/

/-- The ALU operations (Table 13.8). -/
inductive AluOp where
  | add | sub | and | or | xor | shl | shr | sar | mul | mulhu
deriving DecidableEq, Repr

/-- The result of an ALU operation; shifts by the low six bits of the second operand. -/
def aluVal (op : AluOp) (a b : W64) : W64 :=
  let n := b.toNat % 64
  match op with
  | .add => a + b
  | .sub => a - b
  | .and => a &&& b
  | .or => a ||| b
  | .xor => a ^^^ b
  | .shl => a <<< n
  | .shr => a >>> n
  | .sar => a.sshiftRight n
  | .mul => a * b
  | .mulhu => BitVec.ofNat 64 (a.toNat * b.toNat / 2 ^ 64)

/-- The flags of an ALU operation; C and V of one that is no sum or difference are free (log 63). -/
def State.aluNzcv (s : State) (op : AluOp) (a b : W64) : Nzcv :=
  match op with
  | .add => nzcvAdd a b
  | .sub => nzcvSub a b
  | _ => nzcvOf (aluVal op a b) (Config.freeBool s.free) (Config.freeBool (s.free + 1))

/-- An ALU instruction on two words: result and flags, SEC and T when an operand is SEC (R357, R362). -/
def State.aluStep (s : State) (r : CRegs) (rd : Nat) (op : AluOp) (a b : CWord) : CStep :=
  let sec := a.tag = .sec || b.tag = .sec
  .ok { s with free := s.free + 2 }
    ((r.setFlags (s.aluNzcv op a.val b.val) sec).set rd (dataWord (aluVal op a.val b.val) sec)).next 1 none

/-- A register-register ALU instruction. -/
def State.aluR (s : State) (core : Nat) (op : AluOp) (rd ra rb : BitVec 5) : State :=
  s.instr core (fun s r => cRun do
    let a ← r.operand ra.toNat 1 isData
    let b ← r.operand rb.toNat 2 isData
    pure (s.aluStep r rd.toNat op a b))

/-- A register-immediate ALU instruction. -/
def State.aluI (s : State) (core : Nat) (op : AluOp) (rd ra : BitVec 5) (imm : W64) : State :=
  s.instr core (fun s r => cRun do
    let a ← r.operand ra.toNat 1 isData
    pure (s.aluStep r rd.toNat op a (intWord imm)))

/-- ADD. -/
def execAdd (core : Nat) (rd ra rb : BitVec 5) (s : State) : Host.Outcome State Fault Refusal :=
  finish (s.aluR core .add rd ra rb)
/-- SUB. -/
def execSub (core : Nat) (rd ra rb : BitVec 5) (s : State) : Host.Outcome State Fault Refusal :=
  finish (s.aluR core .sub rd ra rb)
/-- AND. -/
def execAnd (core : Nat) (rd ra rb : BitVec 5) (s : State) : Host.Outcome State Fault Refusal :=
  finish (s.aluR core .and rd ra rb)
/-- OR. -/
def execOr (core : Nat) (rd ra rb : BitVec 5) (s : State) : Host.Outcome State Fault Refusal :=
  finish (s.aluR core .or rd ra rb)
/-- XOR. -/
def execXor (core : Nat) (rd ra rb : BitVec 5) (s : State) : Host.Outcome State Fault Refusal :=
  finish (s.aluR core .xor rd ra rb)
/-- SHL. -/
def execShl (core : Nat) (rd ra rb : BitVec 5) (s : State) : Host.Outcome State Fault Refusal :=
  finish (s.aluR core .shl rd ra rb)
/-- SHR. -/
def execShr (core : Nat) (rd ra rb : BitVec 5) (s : State) : Host.Outcome State Fault Refusal :=
  finish (s.aluR core .shr rd ra rb)
/-- SAR. -/
def execSar (core : Nat) (rd ra rb : BitVec 5) (s : State) : Host.Outcome State Fault Refusal :=
  finish (s.aluR core .sar rd ra rb)
/-- MUL. -/
def execMul (core : Nat) (rd ra rb : BitVec 5) (s : State) : Host.Outcome State Fault Refusal :=
  finish (s.aluR core .mul rd ra rb)
/-- MULHU. -/
def execMulhu (core : Nat) (rd ra rb : BitVec 5) (s : State) : Host.Outcome State Fault Refusal :=
  finish (s.aluR core .mulhu rd ra rb)

/-- ADDI: IMM sign-extended. -/
def execAddi (core : Nat) (rd ra : BitVec 5) (imm : BitVec 16) (s : State) : Host.Outcome State Fault Refusal :=
  finish (s.aluI core .add rd ra (imm.signExtend 64))
/-- ANDI: IMM zero-extended. -/
def execAndi (core : Nat) (rd ra : BitVec 5) (imm : BitVec 16) (s : State) : Host.Outcome State Fault Refusal :=
  finish (s.aluI core .and rd ra (imm.setWidth 64))
/-- ORI. -/
def execOri (core : Nat) (rd ra : BitVec 5) (imm : BitVec 16) (s : State) : Host.Outcome State Fault Refusal :=
  finish (s.aluI core .or rd ra (imm.setWidth 64))
/-- XORI. -/
def execXori (core : Nat) (rd ra : BitVec 5) (imm : BitVec 16) (s : State) : Host.Outcome State Fault Refusal :=
  finish (s.aluI core .xor rd ra (imm.setWidth 64))

/-- The flags of a comparison. -/
def cmpStep (s : State) (r : CRegs) (a b : CWord) : CStep :=
  .ok s (r.setFlags (nzcvSub a.val b.val) (a.tag = .sec || b.tag = .sec)).next 1 none

/-- CMP: flags from ra − rb; rd must be 0. -/
def execCmp (core : Nat) (rd ra rb : BitVec 5) (s : State) : Host.Outcome State Fault Refusal :=
  finish (s.instr core (fun s r =>
    if rd ≠ 0 then .trap 0x01 (encR 0 rd.toNat ra.toNat rb.toNat 0x00B)
    else cRun do
      let a ← r.operand ra.toNat 1 isData
      let b ← r.operand rb.toNat 2 isData
      pure (cmpStep s r a b)))

/-- CMPI: flags from ra − IMM, sign-extended; rd must be 0. -/
def execCmpi (core : Nat) (rd ra : BitVec 5) (imm : BitVec 16) (s : State) : Host.Outcome State Fault Refusal :=
  finish (s.instr core (fun s r =>
    if rd ≠ 0 then .trap 0x01 (encI 0x06 rd.toNat ra.toNat imm.toNat)
    else cRun do
      let a ← r.operand ra.toNat 1 isData
      pure (cmpStep s r a (intWord (imm.signExtend 64)))))

/-- CSEL: ra if cond holds, otherwise rb; SEC if an operand is SEC or T = 1 (R357, R362). -/
def execCsel (core : Nat) (cond : BitVec 4) (rd ra rb : BitVec 5) (s : State) : Host.Outcome State Fault Refusal :=
  finish (s.instr core (fun s r => cRun do
    let a ← r.operand ra.toNat 1 isData
    let b ← r.operand rb.toNat 2 isData
    let v := if condHolds cond.toNat r.nzcv then a.val else b.val
    pure (.ok s (r.set rd.toNat (dataWord v (a.tag = .sec || b.tag = .sec || r.t))).next 1 none)))

/-- LUI: IMM << 16; the ra field must be 0. -/
def execLui (core : Nat) (rd ra : BitVec 5) (imm : BitVec 16) (s : State) : Host.Outcome State Fault Refusal :=
  finish (s.instr core (fun s r =>
    if ra ≠ 0 then .trap 0x01 (encI 0x05 rd.toNat ra.toNat imm.toNat)
    else .ok s (r.set rd.toNat (intWord (imm.setWidth 64 <<< 16))).next 1 none))

/-- MOVI: IMM zero-extended, tag INT; the ra field must be 0. -/
def execMovi (core : Nat) (rd ra : BitVec 5) (imm : BitVec 16) (s : State) : Host.Outcome State Fault Refusal :=
  finish (s.instr core (fun s r =>
    if ra ≠ 0 then .trap 0x01 (encI 0x07 rd.toNat ra.toNat imm.toNat)
    else .ok s (r.set rd.toNat (intWord (imm.setWidth 64))).next 1 none))

/-! ## Loads and stores (R358, R363) -/

/-- The address of a scalar access: ra + IMM sign-extended (log 64). -/
def memAddr (a : CWord) (imm : BitVec 16) : Nat := (a.val + imm.signExtend 64).toNat

/-- The word of a scalar access: aligned, and one the code may reach; otherwise ACCESS. -/
def Core.wordAt (c : Core) (core a align : Nat) : Except (Nat × Nat) CWhere :=
  if a % align ≠ 0 then .error (0x07, a)
  else match c.reach core a with
    | some w => .ok w
    | none => .error (0x07, a)

/-- A word read from memory that may not be POISON. -/
def State.readWord (s : State) (w : CWhere) (a : Nat) : Except (Nat × Nat) CWord :=
  let v := s.cword w
  if v.tag = .poison then .error (0x04, a) else .ok v

/-- The digest slot and window offset of an address of a core's register map (R407, log 14): supervisor code only. -/
def Core.dgeAt (c : Core) (a : Nat) : Option (Nat × Nat) :=
  if !c.r.applet && decide (0x20000000 ≤ a) && decide (a < 0x20001000) then some (48 + (a - 0x20000000) / 256, a % 256) else none

/-- What a core reads in a digest window: 0 in another user's (R407). -/
def State.dgeRead (s : State) (core n off : Nat) : CWord :=
  if dgeOwns (.core core) n then (s.dslot n).read off else { tag := .int, val := 0 }

/-- LD: the word and its tag, into rd at the end of the load slot; a digest register reads as R407 says. -/
def execLd (core : Nat) (rd ra : BitVec 5) (imm : BitVec 16) (s : State) : Host.Outcome State Fault Refusal :=
  finish (s.instr core (fun s r => cRun do
    let p ← r.operand ra.toNat 1 isPtr
    let a := memAddr p imm
    match (if a % 8 = 0 then (s.core core).dgeAt a else none) with
    | some (n, off) => pure (.ok s r.next 1 (some (rd.toNat, s.dgeRead core n off)))
    | none =>
      let w ← (s.core core).wordAt core a 8
      let v ← s.readWord w a
      pure (.ok s r.next 1 (some (rd.toNat, v)))))

/-- ST: the word of rd and its tag; a store to DGE_DATA stalls while the FIFO is full (R413). -/
def execSt (core : Nat) (rd ra : BitVec 5) (imm : BitVec 16) (s : State) : Host.Outcome State Fault Refusal :=
  finish (s.instr core (fun s r => cRun do
    let p ← r.operand ra.toNat 1 isPtr
    let v ← r.operand rd.toNat 0 (fun _ => true)
    let a := memAddr p imm
    match (if a % 8 = 0 then (s.core core).dgeAt a else none) with
    | some (n, off) =>
      if dgeOwns (.core core) n && off = 0x20 && (s.dslot n).state = 1 && (s.dslot n).freeWords = 0 then pure (.wait s)
      else pure (.ok (s.dgeWrite n off 8 (.core core) v) r.next 1 none)
    | none =>
      let w ← (s.core core).wordAt core a 8
      pure (.ok (s.setCword w v) r.next 1 none)))

/-- LDB: a byte of a word tagged INT or SEC, zero-extended. -/
def execLdb (core : Nat) (rd ra : BitVec 5) (imm : BitVec 16) (s : State) : Host.Outcome State Fault Refusal :=
  finish (s.instr core (fun s r => cRun do
    let p ← r.operand ra.toNat 1 isPtr
    let a := memAddr p imm
    let w ← (s.core core).wordAt core a 1
    let v ← s.readWord w a
    if isData v.tag then
      pure (.ok s r.next 1 (some (rd.toNat, dataWord ((wbyte v.val (a % 8)).setWidth 64) (v.tag = .sec))))
    else .error (0x03, 2)))

/-- STB: a byte into a word tagged INT or SEC, SEC if either was. -/
def execStb (core : Nat) (rd ra : BitVec 5) (imm : BitVec 16) (s : State) : Host.Outcome State Fault Refusal :=
  finish (s.instr core (fun s r => cRun do
    let p ← r.operand ra.toNat 1 isPtr
    let v ← r.operand rd.toNat 0 isData
    let a := memAddr p imm
    let w ← (s.core core).wordAt core a 1
    let old ← s.readWord w a
    if isData old.tag then
      pure (.ok (s.setCword w (old.merge (a % 8) [wbyte v.val 0] (v.tag = .sec))) r.next 1 none)
    else .error (0x03, 2)))

/-! ## Tag instructions (Table 13.4) -/

/-- MOV: any word but POISON, with its tag. -/
def execMov (core : Nat) (rd ra _rb : BitVec 5) (s : State) : Host.Outcome State Fault Refusal :=
  finish (s.instr core (fun s r => cRun do
    let a ← r.operand ra.toNat 1 (fun _ => true)
    pure (.ok s (r.set rd.toNat a).next 1 none)))

/-- PADD: PTR plus INT. -/
def execPadd (core : Nat) (rd ra rb : BitVec 5) (s : State) : Host.Outcome State Fault Refusal :=
  finish (s.instr core (fun s r => cRun do
    let a ← r.operand ra.toNat 1 isPtr
    let b ← r.operand rb.toNat 2 isInt
    pure (.ok s (r.set rd.toNat { tag := .ptr, val := a.val + b.val }).next 1 none)))

/-- PSUB: PTR minus INT. -/
def execPsub (core : Nat) (rd ra rb : BitVec 5) (s : State) : Host.Outcome State Fault Refusal :=
  finish (s.instr core (fun s r => cRun do
    let a ← r.operand ra.toNat 1 isPtr
    let b ← r.operand rb.toNat 2 isInt
    pure (.ok s (r.set rd.toNat { tag := .ptr, val := a.val - b.val }).next 1 none)))

/-- PTOI: the address of a PTR as an INT. -/
def execPtoi (core : Nat) (rd ra _rb : BitVec 5) (s : State) : Host.Outcome State Fault Refusal :=
  finish (s.instr core (fun s r => cRun do
    let a ← r.operand ra.toNat 1 isPtr
    pure (.ok s (r.set rd.toNat (intWord a.val)).next 1 none)))

/-- MKPTR: a PTR from an INT, in supervisor mode only. -/
def execMkptr (core : Nat) (rd ra rb : BitVec 5) (s : State) : Host.Outcome State Fault Refusal :=
  finish (s.instr core (fun s r =>
    if r.applet then .trap 0x02 (encR 0x0C rd.toNat ra.toNat rb.toNat 4)
    else cRun do
      let a ← r.operand ra.toNat 1 isInt
      pure (.ok s (r.set rd.toNat { tag := .ptr, val := a.val }).next 1 none)))

/-- HADD: the offset of an HREF plus an INT, modulo 2^32. -/
def execHadd (core : Nat) (rd ra rb : BitVec 5) (s : State) : Host.Outcome State Fault Refusal :=
  finish (s.instr core (fun s r => cRun do
    let a ← r.operand ra.toNat 1 (fun t => t = .href)
    let b ← r.operand rb.toNat 2 isInt
    let v := fld a.val.toNat 32 32 * 2 ^ 32 + (a.val.toNat + b.val.toNat) % 2 ^ 32
    pure (.ok s (r.set rd.toNat { tag := .href, val := BitVec.ofNat 64 v }).next 1 none)))

/-- VDMAKE: a VDESC of a base and a length of 1 to 2^24 − 1. -/
def execVdmake (core : Nat) (rd ra rb : BitVec 5) (s : State) : Host.Outcome State Fault Refusal :=
  finish (s.instr core (fun s r => cRun do
    let a ← r.operand ra.toNat 1 isPtr
    let b ← r.operand rb.toNat 2 isInt
    let n := b.val.toNat
    if n = 0 || 2 ^ 24 ≤ n then .error (0x03, 2)
    else pure (.ok s (r.set rd.toNat { tag := .vdesc, val := BitVec.ofNat 64 (n * 2 ^ 40 + a.val.toNat % 2 ^ 40) }).next 1 none)))

/-- LA: CODE of the instruction's address plus 4 × IMM; the ra field must be 0. -/
def execLa (core : Nat) (rd ra : BitVec 5) (imm : BitVec 16) (s : State) : Host.Outcome State Fault Refusal :=
  finish (s.instr core (fun s r =>
    if ra ≠ 0 then .trap 0x01 (encI 0x0D rd.toNat ra.toNat imm.toNat)
    else .ok s (r.set rd.toNat { tag := .code, val := r.pc + 4 * imm.signExtend 64 }).next 1 none))

/-! ## Control flow (R361, R362, R364) -/

/-- B: TAINT when a real condition meets T = 1 (R362). -/
def execB (core : Nat) (cond : BitVec 4) (offset : BitVec 22) (s : State) : Host.Outcome State Fault Refusal :=
  finish (s.instr core (fun s r =>
    if r.t && cond ≠ 0 && cond ≠ 15 then .trap 0x05 0
    else if condHolds cond.toNat r.nzcv then .ok s { r with pc := r.pc + 4 * offset.signExtend 64 } 1 none
    else .ok s r.next 1 none))

/-- Push a return address onto the return stack (R364). -/
def State.pushReturn (s : State) (core : Nat) (r : CRegs) (a : W64) : Except (Nat × Nat) (State × CRegs) :=
  if r.rstack.length < 32 then .ok (s, { r with rstack := a :: r.rstack })
  else
    match r.rsm.toNat with
    | 1 => .ok (s, { r with rstack := a :: r.rstack.dropLast })
    | 2 =>
      let p := r.rsp.val.toNat
      match cLocate core p with
      | none => .error (0x07, p)
      | some w =>
        .ok (s.setCword w { tag := .code, val := (r.rstack.getLast?).getD 0 },
          { r with rstack := a :: r.rstack.dropLast, rsp := { r.rsp with val := r.rsp.val + 8 } })
    | _ => .error (0x0A, 0)

/-- Pop a return address (R364). -/
def State.popReturn (s : State) (core : Nat) (r : CRegs) : Except (Nat × Nat) (W64 × CRegs) :=
  match r.rstack with
  | a :: rest => .ok (a, { r with rstack := rest })
  | [] =>
    if r.rsm = 2 then
      let p := (r.rsp.val - 8).toNat
      match cLocate core p with
      | none => .error (0x07, p)
      | some w =>
        let v := s.cword w
        if v.tag = .code then .ok (v.val, { r with rsp := { r.rsp with val := r.rsp.val - 8 } })
        else .error (0x0C, r.rsp.val.toNat)
    else .error (0x0B, 0)

/-- A trap that service firmware handles for an applet and that leaves it running (R361, R365). -/
def State.handledTrap (s : State) (n : Nat) (pc : W64) (code : Nat) (tval : Nat := 0) : State :=
  let s := s.countTrap n code
  let c := s.core n
  s.setCore n { c with fw := c.fw.trapRegs pc code tval }

/-- CALL and CALLR to a target: the return address is pushed and the caller's frame parked. With 15 frames resident an applet's
oldest frame is spilled, up to 49, and supervisor code takes FRAME_OVF. -/
def State.callTo (s : State) (core : Nat) (r : CRegs) (target : W64) : CStep :=
  let r := r.settleLoad
  let go (s : State) (r : CRegs) (cyc : Nat) : CStep :=
    match s.pushReturn core r (r.pc + 4) with
    | .error (c, v) => .trap c v
    | .ok (s, r) => .ok s { r with frames := [] :: r.frames, pc := target } cyc none
  if r.frames.length < 15 then go s r 1
  else
    match (s.core core).ctx, r.applet with
    | some k, true =>
      let t := s.handledTrap core r.pc 0x08
      if 49 ≤ r.spill.length then .wait (t.endCall k appletErr 0x0804 0 [])
      else go t { r with frames := r.frames.dropLast, spill := (r.frames.getLast?).getD [] :: r.spill } 49
    | _, _ => .trap 0x08 0

/-- CALL. -/
def execCall (core : Nat) (offset : BitVec 26) (s : State) : Host.Outcome State Fault Refusal :=
  finish (s.instr core (fun s r => s.callTo core r (r.pc + 4 * offset.signExtend 64)))

/-- RET: the popped address, and the caller's frame again, refilled from the spill area when it is parked there. -/
def execRet (core : Nat) (rest : BitVec 26) (s : State) : Host.Outcome State Fault Refusal :=
  finish (s.instr core (fun s r =>
    if rest ≠ 0 then .trap 0x01 (0x12 * 2 ^ 26 + rest.toNat)
    else
      let r := r.settleLoad
      match s.popReturn core r with
      | .error (c, v) => .trap c v
      | .ok (a, r') =>
        match r.frames, r.spill, r.applet with
        | _ :: f :: fs, _, _ => .ok s { r' with frames := f :: fs, pc := a } 1 none
        | _, f :: sp, true => .ok (s.handledTrap core r.pc 0x09) { r' with frames := [f], spill := sp, pc := a } 49 none
        | _, _, _ => .trap 0x09 0))

/-- JR: jump to CODE ra. -/
def execJr (core : Nat) (_rd ra _rb : BitVec 5) (s : State) : Host.Outcome State Fault Refusal :=
  finish (s.instr core (fun s r => cRun do
    let a ← r.operand ra.toNat 1 (fun t => t = .code)
    pure (.ok s { r with pc := a.val } 1 none)))

/-- CALLR: call to CODE ra. -/
def execCallr (core : Nat) (_rd ra _rb : BitVec 5) (s : State) : Host.Outcome State Fault Refusal :=
  finish (s.instr core (fun s r => cRun do
    let a ← r.operand ra.toNat 1 (fun t => t = .code)
    pure (s.callTo core r a.val)))

/-! ## DMA (R359, R379) -/

/-- The call of the context on a core. -/
def State.callOn (s : State) (core : Nat) : Option (Nat × Job) :=
  match (s.core core).ctx with
  | some k => (s.ctx k).job.bind (fun j => (s.job? j).map (fun x => (k, x)))
  | none => none

/-- The buffer of an HREF, and its offset. -/
def hrefBuf (w : CWord) : Nat := fld w.val.toNat 62 2
/-- The byte offset of an HREF. -/
def hrefOff (w : CWord) : Nat := fld w.val.toNat 0 32

/-- The declared length of a buffer of a call: nothing for firmware without a call. -/
def bufLen (x : Option (Nat × Job)) (buf : Nat) : Nat :=
  match x with
  | some (_, x) => if buf = 0 then x.inLen else if buf = 1 then x.outCap else if buf = 2 then x.auxLen else 0
  | none => 0

/-- The pieces of a buffer that `n` bytes at an offset lie in. -/
def subPieces : List (Nat × Nat) → (off n : Nat) → List (Nat × Nat)
  | [], _, _ => []
  | (a, l) :: rest, off, n =>
    if n = 0 then []
    else if l ≤ off then subPieces rest (off - l) n
    else
      let k := min n (l - off)
      (a + off, k) :: subPieces rest 0 (n - k)

/-- DMAI: host bytes into core memory with tag INT; a host error or a short read ends the call (R379). -/
def execDmai (core : Nat) (rd ra rb : BitVec 5) (outcome : ReadOutcome) (data : Bytes) (s : State) :
    Host.Outcome State Fault Refusal :=
  finish (s.instr core (fun s r => cRun do
    let p ← r.operand rd.toNat 0 isPtr
    let h ← r.operand ra.toNat 1 (fun t => t = .href)
    let n ← r.operand rb.toNat 2 isInt
    let n := n.val.toNat
    let call := s.callOn core
    if hrefBuf h = 3 || hrefBuf h = 1 || bufLen call (hrefBuf h) < hrefOff h + n then .error (0x0E, h.val.toNat)
    else
      match (s.core core).span core p.val.toNat n, call with
      | .error a, _ => .error (0x07, a)
      | .ok _, none => pure (.ok s r.next 1 none)
      | .ok _, some (k, x) =>
        let s := (subPieces (x.pieces (hrefBuf h)) (hrefOff h) n).foldl (fun s q => s.send (.readReq x.fn q.1 q.2)) s
        let (cyc, s) := s.freeNum
        if n ≠ 0 && (outcome ≠ .ok || data.length < n) then
          pure (.wait ((s.readError outcome).endCall k dmaErr (if hrefBuf h = 0 then 1 else 3) 0 []))
        else pure (.ok (s.putCbytes core p.val.toNat false (n + 1) (data.take n)) r.next (cyc + 1) none)))

/-- DMAO: bytes into the call's output staging, unless a word of the source is SEC (R359, R379). -/
def execDmao (core : Nat) (rd ra rb : BitVec 5) (s : State) : Host.Outcome State Fault Refusal :=
  finish (s.instr core (fun s r => cRun do
    let p ← r.operand rd.toNat 0 isPtr
    let h ← r.operand ra.toNat 1 (fun t => t = .href)
    let n ← r.operand rb.toNat 2 isInt
    let n := n.val.toNat
    let call := s.callOn core
    if hrefBuf h ≠ 1 || bufLen call 1 < hrefOff h + n then .error (0x0E, h.val.toNat)
    else
      match (s.core core).span core p.val.toNat n, call with
      | .error a, _ => .error (0x07, a)
      | .ok _, none => pure (.ok s r.next 1 none)
      | .ok ws, some (k, _) =>
        match ws.findIdx? (fun w => (s.cword w).tag = .poison), ws.findIdx? (fun w => (s.cword w).tag = .sec) with
        | some i, _ => .error (0x04, (p.val.toNat / 8 + i) * 8)
        | none, some i => .error (0x06, i)
        | none, none =>
          let (cyc, s) := s.freeNum
          let b := s.cbytes core p.val.toNat n
          pure (.ok (s.setCtx k { s.ctx k with outBuf := Tbl.putBytes (s.ctx k).outBuf (hrefOff h) b }) r.next (cyc + 1) none)))

/-! ## CSRs (R368, Table 13.9) -/

/-- The STATUS CSR, SEC while T = 1 (R362). -/
def CRegs.status (r : CRegs) : CWord :=
  dataWord (BitVec.ofNat 64 (b2n r.applet * 256 + b2n r.t * 16 + b2n r.n * 8 + b2n r.z * 4 + b2n r.c * 2 + b2n r.v)) r.t

/-- VPG of a core. -/
def Core.vpg (c : Core) : Nat := b2n c.waking * 4 + b2n c.gated * 2 + b2n c.vpgEn

/-- The cycle counter: the core's clock since reset, with a free position within the microsecond (log 66). -/
def State.coreCycles (s : State) (core : Nat) : Nat :=
  let rate := if core = 4 then 1000 else 2000
  s.now * rate + Config.freeNat s.free % rate

/-- A CSR's content; none where the number is not one. The vector CSRs of core T, which has no vector unit, are free (log 66). -/
def State.csr (s : State) (core : Nat) (r : CRegs) (n : Nat) : Option CWord :=
  let num (v : Nat) : CWord := intWord (BitVec.ofNat 64 v)
  let vec (v : Nat) : CWord := num (if core = 4 then Config.freeNat s.free else v)
  match n with
  | 0x000 => some r.status
  | 0x001 => some (num r.rsm.toNat)
  | 0x002 => some r.rsp
  | 0x003 => some (num r.rstack.length)
  | 0x004 => some (num r.frames.length)
  | 0x010 => some (vec r.sc)
  | 0x011 => some (vec 16)
  | 0x012 => some (vec 128)
  | 0x013 => some (vec (s.core core).vpg)
  | 0x020 => some (intWord r.epc)
  | 0x021 => some (num r.cause)
  | 0x022 => some (intWord r.tval)
  | 0x030 => some (num (s.coreCycles core))
  | _ => none

/-- CSRR. An applet may not read RSP, EPC, CAUSE and TVAL. -/
def execCsrr (core : Nat) (rd ra : BitVec 5) (csr : BitVec 16) (s : State) : Host.Outcome State Fault Refusal :=
  finish (s.instr core (fun s r =>
    let word := encI 0x1D rd.toNat ra.toNat csr.toNat
    match s.csr core r csr.toNat with
    | none => .trap 0x01 word
    | some v =>
      if r.applet && [0x002, 0x020, 0x021, 0x022].contains csr.toNat then .trap 0x02 word
      else .ok { s with free := s.free + 1 } (r.set rd.toNat v).next 1 none))

/-- CSRW: RSM, RSP and VPG.EN can be written, in supervisor mode (log 66). -/
def execCsrw (core : Nat) (rd ra : BitVec 5) (csr : BitVec 16) (s : State) : Host.Outcome State Fault Refusal :=
  finish (s.instr core (fun s r =>
    let word := encI 0x1E rd.toNat ra.toNat csr.toNat
    if r.applet then .trap 0x02 word
    else if (s.csr core r csr.toNat).isNone then .trap 0x01 word
    else if !([0x001, 0x002, 0x013].contains csr.toNat) || (csr = 0x013 && core = 4) then .trap 0x02 word
    else cRun do
      let v ← r.operand ra.toNat 1 (if csr = 0x002 then isPtr else isInt)
      if csr = 0x001 then pure (.ok s { r with rsm := v.val.setWidth 2 }.next 1 none)
      else if csr = 0x002 then pure (.ok s { r with rsp := v }.next 1 none)
      else
        let c := s.core core
        let en := v.val.getLsbD 0
        pure (.ok (s.setCore core { c with vpgEn := en, waking := c.waking || (!en && c.gated) }) r.next 1 none)))

/-! ## System -/

/-- NOP, whose word is 0x7C00_0000. Any other `word` that Table 13.8 does not define takes ILLEGAL (R365, R367); one that it defines is
another command's, or stands in that command's place (log 151), and nothing happens here. -/
def execNop (core : Nat) (s : State) (word : BitVec 32 := 0x7C000000) : Host.Outcome State Fault Refusal :=
  finish (if word = 0x7C000000 then s.instr core (fun s r => .ok s r.next 1 none)
    else if (crixaOp word.toNat).isSome then s
    else s.instr core (fun _ _ => .trap 0x01 word.toNat))

/-- ERET: back to EPC, with trap nesting on again; supervisor mode only. -/
def execEret (core : Nat) (s : State) : Host.Outcome State Fault Refusal :=
  finish (s.instr core (fun s r =>
    if r.applet then .trap 0x02 (encR 0x1F 0 0 0 1)
    else .ok s { r with pc := r.epc, inTrap := false } 1 none))

/-- The tags a T-gate message may carry (R375). -/
def tgateTag (t : Tag) : Bool := t = .int || t = .sec || t = .kref || t = .href

/-- The queue a core sends to, and the one it receives from. -/
def State.tgSendQ (s : State) (core : Nat) : List (List CWord) := if core = 4 then s.crx.t2g else s.crx.g2t
/-- The queue a core receives from. -/
def State.tgRecvQ (s : State) (core : Nat) : List (List CWord) := if core = 4 then s.crx.g2t else s.crx.t2g

/-- TGSEND: rb words at PTR ra; rd := 1, or 0 with nothing sent when the queue is full or rb is no message length (R375). -/
def execTgsend (core : Nat) (rd ra rb : BitVec 5) (s : State) : Host.Outcome State Fault Refusal :=
  finish (s.instr core (fun s r =>
    if r.applet then .trap 0x02 (encR 0x1F rd.toNat ra.toNat rb.toNat 0x010)
    else cRun do
      let p ← r.operand ra.toNat 1 isPtr
      let n ← r.operand rb.toNat 2 isInt
      let n := n.val.toNat
      let a := p.val.toNat
      if n = 0 || 16 < n || 64 ≤ (s.tgSendQ core).length then pure (.ok s (r.set rd.toNat (intWord 0)).next 1 none)
      else if a % 8 ≠ 0 then .error (0x07, a)
      else
        match (s.core core).span core a (8 * n) with
        | .error e => .error (0x07, e)
        | .ok ws =>
          let msg := ws.map s.cword
          match msg.findIdx? (fun w => !tgateTag w.tag) with
          | some i => .error (0x0F, i)
          | none =>
            let s : State := if core = 4 then { s with crx := { s.crx with t2g := s.crx.t2g ++ [msg] } }
              else { s with crx := { s.crx with g2t := s.crx.g2t ++ [msg] } }
            pure (.ok s (r.set rd.toNat (intWord 1)).next 1 none)))

/-- TGRECV: the next message to PTR ra; rd := the words of its message, its header counted: the word count + 1; or 0 (R375). -/
def execTgrecv (core : Nat) (rd ra : BitVec 5) (s : State) : Host.Outcome State Fault Refusal :=
  finish (s.instr core (fun s r =>
    if r.applet then .trap 0x02 (encR 0x1F rd.toNat ra.toNat 0 0x011)
    else cRun do
      let p ← r.operand ra.toNat 1 isPtr
      let a := p.val.toNat
      match s.tgRecvQ core with
      | [] => pure (.ok s (r.set rd.toNat (intWord 0)).next 1 none)
      | msg :: rest =>
        if a % 8 ≠ 0 then .error (0x07, a)
        else
          match (s.core core).span core a (8 * msg.length) with
          | .error e => .error (0x07, e)
          | .ok ws =>
            let s := (ws.zip msg).foldl (fun s p => s.setCword p.1 p.2) s
            let s : State := if core = 4 then
                { s with crx := { s.crx with g2t := rest, irqT := s.crx.irqT && rest ≠ [] } }
              else { s with crx := { s.crx with t2g := rest, irqG := s.crx.irqG && rest ≠ [] } }
            pure (.ok s (r.set rd.toNat (intWord (BitVec.ofNat 64 msg.length))).next 1 none)))

/-- KMINT: core T turns an INT into a KREF of that payload; PRIV on a G core (R153, R355). -/
def execKmint (core : Nat) (rd ra rb : BitVec 5) (s : State) : Host.Outcome State Fault Refusal :=
  finish (s.instr core (fun s r =>
    if core ≠ 4 then .trap 0x02 (encR 0x1F rd.toNat ra.toNat rb.toNat 0x020)
    else cRun do
      let a ← r.operand ra.toNat 1 isInt
      pure (.ok s (r.set rd.toNat { tag := .kref, val := a.val }).next 1 none)))

/-- DECLASS: core T turns SEC into INT; PRIV on a G core (R355, R359). -/
def execDeclass (core : Nat) (rd ra : BitVec 5) (s : State) : Host.Outcome State Fault Refusal :=
  finish (s.instr core (fun s r =>
    if core ≠ 4 then .trap 0x02 (encR 0x1F rd.toNat ra.toNat 0 0x021)
    else cRun do
      let a ← r.operand ra.toNat 1 (fun t => t = .sec)
      pure (.ok s (r.set rd.toNat (intWord a.val)).next 1 none)))

/-- STRIP: SC := min(ra, VW ÷ width), and rd := SC (R369). -/
def execStrip (core : Nat) (rd ra : BitVec 5) (imm : BitVec 16) (s : State) : Host.Outcome State Fault Refusal :=
  finish (s.instr core (fun s r =>
    if core = 4 || 4 ≤ imm.toNat then .trap 0x01 (encI 0x20 rd.toNat ra.toNat imm.toNat)
    else cRun do
      let a ← r.operand ra.toNat 1 isInt
      let n := min a.val.toNat (128 / 2 ^ imm.toNat)
      pure (.ok s ({ r with sc := n }.set rd.toNat (intWord (BitVec.ofNat 64 n))).next 1 none)))

/-- VLOOP: rd := rd − SC or 0; a result that is not 0 loops (R369). -/
def execVloop (core : Nat) (rd ra : BitVec 5) (imm : BitVec 16) (s : State) : Host.Outcome State Fault Refusal :=
  finish (s.instr core (fun s r =>
    if core = 4 || ra ≠ 0 then .trap 0x01 (encI 0x26 rd.toNat ra.toNat imm.toNat)
    else cRun do
      let a ← r.operand rd.toNat 0 isInt
      let n := a.val.toNat - r.sc
      let r1 := r.set rd.toNat (intWord (BitVec.ofNat 64 n))
      pure (.ok s (if n ≠ 0 then { r1 with pc := r.pc + 4 * imm.signExtend 64 } else r1.next) 1 none)))

end Sys2Proof.Machine
end

