-- ==== Sys2Proof/Machine/Schemes.lean ====
section
/-! DEFINITION. What the published schemes are applied to: the formatted messages of the signatures (R174, R195), the randomness of
deterministic and hedged signing (R175, R196), the fields that a signature format gives (R184), and the functions that stand for
the schemes themselves (R157, log 3). One scheme is one function, whichever opcode runs it. -/

namespace Sys2Proof.Machine

/-! ## What a job's schemes read -/

/-- The staged input of a job that computes. -/
def Job.inp (x : Job) : Bytes := x.input.getD []

/-- The private or secret key material of a job. -/
def Job.mat (x : Job) : Bytes := (x.key.map (·.2.mat)).getD []

/-- The public part of a job's stored key. -/
def Job.ownPub (x : Job) : Bytes := (x.key.map (·.2.pub)).getD []

/-- The public key of a job: of its stored key, or inline at an offset of the auxiliary data (R160). -/
def Job.pubAt (x : Job) (off : Nat) : Bytes := if isInline x then slice x.auxData off (pubLen x) else x.ownPub

/-- The context string, the last part of the auxiliary data (Table 6.11). -/
def Job.ctx (x : Job) : Bytes := x.auxData.drop (x.auxLen - ctxLen x)

/-! ## Messages (R174, R195) -/

/-- The digest that a function of Table 6.10 gives a pre-hashed message. -/
def hashOf (ph : Nat) (msg : Bytes) : Bytes := hashTo ph msg (phLen ph)

/-- The DER encoding of a pre-hash function's identifier, as FIPS 204 and FIPS 205 give it (log 140). -/
def phOid (ph : Nat) : Bytes :=
  [0x06, 0x09, 0x60, 0x86, 0x48, 0x01, 0x65, 0x03, 0x04, 0x02,
   ([0x01, 0x02, 0x03, 0x08, 0x09, 0x0A, 0x0B, 0x0C] : Bytes).getD (ph - 1) 0]

/-- M′ of an ML-DSA or SLH-DSA job (R174). -/
def Job.message (x : Job) : Bytes :=
  match modeOf x with
  | 0 => formatted 0 x.ctx x.inp
  | 1 => formatted 1 x.ctx (phOid (phOf x) ++ x.inp)
  | _ => formatted 1 x.ctx (phOid (phOf x) ++ hashOf (phOf x) x.inp)

/-- μ of an ML-DSA job; in MODE 2 the host supplies it. -/
def Job.mu (x : Job) (pub : Bytes) : Bytes := if modeOf x = 2 then x.inp else muOf pub x.message

/-- M′ of a composite job: label ‖ CTX_LEN ‖ ctx ‖ SHA-512(M) (R195). -/
def Job.compositeMessage (x : Job) : Bytes :=
  [0x41, 0x4B, 0x4E, 0x2D, 0x43, 0x4F, 0x4D, 0x50, 0x4F, 0x53, 0x49, 0x54, 0x45, 0x2D, BitVec.ofNat 8 (0x30 + x.opParam),
   BitVec.ofNat 8 x.ctx.length] ++ (x.ctx ++ hashOf 3 x.inp)

/-! ## ML-DSA and SLH-DSA -/

/-- What an ML-DSA signature, or the ML-DSA part of a composite one, is a function of: private key, μ and rnd, which is 32 zero
bytes in deterministic signing (R175, R196). -/
def Job.mldsaIns (x : Job) : List Bytes :=
  let rnd := if bitOf x.param 8 then zeros 32 else x.rnd.take 32
  if x.fam = 0x82 then [x.mat.take 4064, muOf (x.ownPub.take 1952) (formatted 0 [] x.compositeMessage), rnd]
  else [x.mat, x.mu x.ownPub, rnd]

/-- What an SLH-DSA signature is a function of: private key, M′ and opt_rand, which is PK.seed in deterministic signing (R175). -/
def Job.slhIns (x : Job) : List Bytes :=
  let n := slhN x.opParam
  [x.mat, x.message, if bitOf x.param 8 then slice x.mat (2 * n) n else x.rnd]

/-- The number of the lowest accepted attempt of an ML-DSA or composite signature: a function of key, message and randomness
(R176, R245). -/
def acceptedAttempt (x : Job) : Nat := Config.count 0x10760 (leBytes 1 (mldsaSet x) :: x.mldsaIns)

/-! ## Stateful signatures (R184) -/

/-- Put a field into a string of bytes. -/
def putField (b : Bytes) (f : Nat × Bytes) : Bytes := b.take f.1 ++ f.2 ++ b.drop (f.1 + f.2.length)

/-- The fields of an LMS signature with leaf number `q`: q and the LM-OTS type, and the LMS type behind the chains (RFC 8554). -/
def lmsFields (l : Nat × Nat) (off q : Nat) : List (Nat × Bytes) :=
  [(off, beBytes 4 q ++ beBytes 4 l.2), (off + 8 + otsN l.2 * (otsP l.2 + 1), beBytes 4 l.1)]

/-- The fields of the levels of an HSS signature with an index: each level's LMS signature, and the type codes of the public key of
the level below (RFC 8554). -/
def hssFields : List (Nat × Nat) → Nat → Nat → List (Nat × Bytes)
  | [], _, _ => []
  | l :: r, off, i =>
    let below := (r.map (fun m => lmsHeight m.1)).sum
    let next := off + lmsSigLen l
    lmsFields l off (i / 2 ^ below % 2 ^ lmsHeight l.1) ++
      (match r with
       | [] => []
       | m :: _ => (next, beBytes 4 m.1 ++ beBytes 4 m.2) :: hssFields r (next + 24 + lmsM m.1) i)

/-- Bytes of a stateful signature. -/
def statefulLen (k : KeyObj) : Nat :=
  if baseType k.type = 0x40 then hssSigLen k.param else treeSigLen k.type (k.param.getD 0 0)

/-- The index and type fields of a key's signature with an index, in the byte order of the scheme's document (R183, R184). -/
def statefulFields (k : KeyObj) (i : Nat) : List (Nat × Bytes) :=
  if baseType k.type = 0x40 then
    let ls := hssLevels k.param
    (0, beBytes 4 (ls.length - 1)) :: hssFields ls 4 i
  else
    match treeSet k.type (k.param.getD 0 0) with
    | some (_, h, _, _) => [(0, beBytes (if baseType k.type = 0x41 then 4 else ceilDiv h 8) i)]
    | none => []

/-- A stateful signature: the index and type fields in their places, all else a function of key, message, index and
randomness. -/
def statefulSig (k : KeyObj) (i : Nat) (ins : List Bytes) : Bytes :=
  (statefulFields k i).foldl putField (algoBytes (0x10D80 + baseType k.type) (leBytes 8 i :: ins) (statefulLen k))

/-! ## Curves and groups -/

/-- The public value of a private one, a type of one part: the function that key generation uses (R214). -/
def agreePub (t : Nat) (priv : Bytes) (n : Nat) : Bytes :=
  if 0x61 ≤ t && t ≤ 0x66 then 0x04 :: algoBytes (0x10900 + t) [priv] (n - 1) else algoBytes (0x10900 + t) [priv] n

/-- The shared secret Z of a private value and the peer's (R214). -/
def agreeZ (t : Nat) (priv peer : Bytes) (n : Nat) : Bytes := algoBytes (0x10980 + t) [priv, xValue t peer] n

/-- An ECDSA signature r ‖ s of a digest; the nonce is drawn, or is that of RFC 6979 with a function of Table 6.10 (R196, R211,
R215). -/
def ecdsaSign (t : Nat) (priv digest : Bytes) (det : Option Nat) (rnd : Bytes) : Bytes :=
  algoBytes (0x10A80 + t) [priv, digest, match det with | some ph => [0, BitVec.ofNat 8 ph] | none => 1 :: rnd] (2 * fieldLen t)

/-- An ECDSA signature of a digest verifies. -/
def ecdsaVerify (t : Nat) (pub digest sig : Bytes) : Bool := Config.accepts (0x10A80 + t) [pub, digest, sig]

/-- The variant, context and message that an EdDSA function takes: of Ed448, variants 0 and 1 are the same; the pre-hash is SHA-512
or SHAKE256 (R211, R215). -/
def edIns (t variant : Nat) (ctx msg : Bytes) : List Bytes :=
  [leBytes 1 (if t = 0x68 && variant = 1 then 0 else variant), ctx,
    if variant = 2 then hashOf (if t = 0x67 then 3 else 8) msg else msg]

/-- An EdDSA signature (RFC 8032). -/
def edSign (t : Nat) (priv : Bytes) (ins : List Bytes) : Bytes := algoBytes (0x10A80 + t) (priv :: ins) (edSig (t - 0x66))

/-- An EdDSA signature verifies. -/
def edVerify (t : Nat) (pub sig : Bytes) (ins : List Bytes) : Bool := Config.accepts (0x10A80 + t) (pub :: sig :: ins)

/-- What an ECDSA or RSA signature is made of: the digest, which the host supplies with PREHASHED (R211). -/
def Job.digest (x : Job) : Bytes := if bitOf x.param 8 then x.inp else hashOf (phOf x) x.inp

end Sys2Proof.Machine
end

