-- ==== Sys2Proof/Machine/Compute.lean ====
section
/-! DEFINITION. S5 and S6 (chapters 8 and 9): compute start and its check phase (R73, R125, R126, R147, R209), the attempts of a
fan-out signature (R245), the end of compute (R204, R230), and the seal with its comparisons, verify-after-sign and warm keys
(R198, R207, R224, R238, R248, R311). -/

namespace Sys2Proof.Machine

/-- Frame and creel of a job, and the unit ENGINE names: the winning spindle, else the first, else the carder, else none
(R16, R194, R196). -/
def Job.lead (x : Job) : Nat :=
  match x.winner, x.spns with
  | some u, _ => u
  | none, u :: _ => u
  | none, [] => if x.carder then 12 else 15

/-- ENGINE of a job that computes. -/
def State.engineAt (s : State) (x : Job) : BitVec 16 :=
  match x.place with
  | some (f, c) => engineCode f c x.lead
  | none => s.engineNone x

/-- The location code of the unit a job computes on. -/
def State.locOf (s : State) (x : Job) : W32 :=
  match x.place with
  | some (f, c) => locCode s.dev f c x.lead
  | none => locCode s.dev (s.homeOf x) 15 15

/-- Every buffer of the job is staged. -/
def Job.staged (x : Job) : Bool := (x.inLen = 0 || x.input.isSome) && (x.auxLen = 0 || x.aux.isSome)

/-- The modulus length in bytes and the exponent's bits of an RSA job. -/
def Job.rsa (x : Job) : Nat × Nat :=
  if x.fam = 0x18 || x.fam = 0x28 then
    match rsaPub x (x.key.map (·.2)) x.auxData with
    | some b => (rsaBytes b, bitsOf (rsaE b))
    | none => (0, 0)
  else (0, 0)

/-! ## Compute start -/

/-- The units of a job are computing; a spindle that starts with another key, or none, loses its warm key (R239), and a carder has
the operands in its operand memory (R202, R203). -/
def State.startUnits (s : State) (x : Job) : State :=
  match x.place with
  | none => s
  | some (f, c) =>
    let uid := x.key.map (fun k => (k.1, k.2.uid))
    let s := s.each x.spns (fun s u =>
      let v := s.unit f c u
      s.setUnit f c u { v with busy := true, warm := if v.warm = uid then v.warm else none })
    if x.carder then
      let ops := (((x.key.map (·.2.mat)).getD []) ++ x.inp ++ x.auxData).take 32768
      s.setUnit f c 12 { s.unit f c 12 with busy := true, opMem := ops }
    else s

/-- A stateful index is assigned (R147, R148): NEXT rises, and a reservation is asked for when fewer than 256 are left below
CEIL (R146). The tree it opens is held from now on, unless the job is cut in S5 (DESIGN CHOICE, log 153). -/
def State.assignIndex (s : State) (j slot : Nat) (k : KeyObj) : State :=
  let k := k.open_
  let s := s.modKey slot k.uid (fun _ => { k with next := k.next + 1, tree := some (treeOf k k.next) })
  let s := s.modJob j (fun x => { x with index := some k.next, newTree := opensTree k k.next })
  if k.ceil - (k.next + 1) < 256 && (s.key? slot).any (fun y => y.uid = k.uid) then s.reserveIndices slot else s

/-- The job draws its randomness again after a rollback, a withdrawal or a requeue (R250, R340). -/
def State.redraw (s : State) (j : Nat) (x : Job) : Option State :=
  let n := drawsOf x (x.key.map (·.2))
  let home := s.homeOf x
  if x.rnd ≠ [] || n = 0 then some s
  else if !s.rngUp home n then none
  else
    let (b, s) := s.takeFrame home n
    some (s.modJob j (fun x => { x with rnd := b }))

/-- Compute starts: the use counts, the units compute, and the check phase on public inputs runs, which may end the job. -/
def State.computeStart (s : State) (j : Nat) : State :=
  let s := s.spendUse j
  match s.job? j with
  | none => s
  | some x =>
    let s := s.startUnits x
    let key := x.key.map (·.2)
    let s := s.trace (x.ev 0x05 (some 1) (s.locOf x) (x.spns.length % 8))
    let eng := s.engineAt x
    match (if x.opClass = 9 then none else opCheck x key) with
    | some e =>
      s.setJob j { x with
        stage := .ended, major := e.1, detail := e.2, engine := eng, cycles := opCheckCycles x x.rsa.1 e, rnd := [], result := [] }
    | none =>
      let many := decide (1 < x.spns.length)
      let fan : List Fan := if many && (x.fam = 0x21 || x.fam = 0x82) then
          x.spns.zipIdx.map (fun p => { spn := p.1, attempt := some p.2 }) else []
      s.setJob j { x with
        stage := .s5, engine := eng, fFanout := many, fan := fan, nextAttempt := fan.length, winner := none }

/-- The digest lane of a job that hashes (R208, R409): a digest job keeps it until it ends; the message of a carder job is hashed in
S4, and its lane is free when compute starts; its slot is its own to the job's end (Table 15.1). Answers whether the job has had its
lane; if not, it waits for the grant. -/
def State.hashLane (s : State) (j : Nat) (x : Job) : Bool × State :=
  if !hashes x || x.hashed ≠ 0 then (true, s)
  else
    let s := s.laneAsk 3 (s.frameOf x) j x.deadline
    if (s.laneOf 3 j).isNone then (false, s)
    else if opUnit x = .digest then (true, s)
    else
      (true, (s.laneFree 3 j).modJob j (fun x => { x with hashed := 1 }))

/-- A stateful signature opens a new bottom tree with the index it would take, while a bank 7 it needs is lent (R240). -/
def State.bankLent (s : State) (x : Job) : Bool :=
  s.banks8 x && (match x.place with | some (f, c) => x.spns.any (fun u => (s.unit f c u).lent.isSome) | none => false)

/-- COMPUTE_START: deadline and window again; the reservation becomes a use; an index is assigned (R73, R125, R126, R147,
R241). -/
def execComputeStart (job : Nat) (s : State) : Host.Outcome State Fault Refusal :=
  finish (match s.job? job with
    | none => s
    | some x =>
      if !s.live || x.stage ≠ .s4 || !x.checked || !x.staged then s
      else if s.lateNow x then s.refuse job deadlineErr 2 0
      else if (match x.key with | some (_, k) => (k.windowErr s.glb.ptcLife.toNat).isSome && !isDwk x.handle | none => false) then
        s.refuse job keyErr 0x0108 0
      else
        let (ready, s) := s.hashLane job x
        match if ready then s.redraw job x else none with
        | none => s
        | some s =>
          if s.bankLent x then s
          else if !assignsIndex x then s.computeStart job
          else
            match x.key with
            | none => s
            | some (slot, k0) =>
              match s.keyOf slot k0.uid with
              | some k =>
                if k.savedAway || k.last ≤ k.nextNow then s.refuse job keyErr 0x010F 0
                else if k.ceil ≤ k.nextNow then
                  (if (s.key? slot).any (fun y => y.uid = k.uid) then s.reserveIndices slot else s.refuse job keyErr 0x010F 0)
                else (s.assignIndex job slot k).computeStart job
              | none => s.refuse job keyErr 0x0103 0)

/-! ## Operations: what their meanings share -/

/-- The computing job of one of some families with an operation code. -/
def State.running (s : State) (j fam op : Nat) : Option Job :=
  match s.job? j with
  | some x => if x.stage = .s5 && x.fam = fam && x.opOp = op then some x else none
  | none => none

/-- A computation ends: status, result and cycles stand in the job, and its unit keeps it until S6 takes it. -/
def State.ends (s : State) (j major detail cycles : Nat) (result : Bytes) : State :=
  s.modJob j (fun x => { x with
    stage := .ended, major := major, detail := detail, cycles := cycles, result := result, engine := s.engineAt x })

/-- An attempt is accepted: every attempt below the lowest accepted one is rejected, and what those above it give the spec does
not say. -/
def attemptOk (x : Job) (a : Nat) (given : Bool) : Bool :=
  if a < acceptedAttempt x then false else if a = acceptedAttempt x then true else given

/-- The winner of a fan-out: the spindle of the lowest accepted attempt, once every lower one is rejected (R245). -/
def fanWinner (fan : List Fan) : Option Nat :=
  match leastOf (fun i => ((fan[i]?).bind (·.attempt)).getD 0)
      ((List.range fan.length).filter (fun i => match fan[i]? with | some e => e.accepted | none => false)) with
  | none => none
  | some i =>
    match fan[i]? with
    | none => none
    | some w =>
      let a := w.attempt.getD 0
      if fan.any (fun e => !e.accepted && (match e.attempt with | some b => decide (b < a) | none => false)) then none
      else some w.spn

/-- The winner of a fan-out is declared: every other spindle of the job stops at once and is wiped (R245). -/
def State.stopLosers (s : State) (j : Nat) : State :=
  match s.job? j with
  | none => s
  | some x =>
    match x.winner, x.place with
    | some w, some (f, c) =>
      (s.each (x.spns.filter (· ≠ w)) (fun s u => s.freeUnit f c u true)).modJob j (fun x => { x with spns := [w] })
    | _, _ => s

/-- FANOUT_ATTEMPT_END: an attempt of a claimed spindle ends (R245). The outcome given counts only for attempts above the
lowest accepted one. -/
def execFanoutAttemptEnd (job spindle : Nat) (accepted : Bool) (s : State) : Host.Outcome State Fault Refusal :=
  finish ((s.modJob job (fun x =>
    if x.stage ≠ .s5 || x.winner.isSome then x
    else
      match x.fan.find? (fun e => e.spn = spindle && !e.accepted) with
      | some { spn := _, attempt := some a, accepted := _ } =>
        let ok := attemptOk x a accepted
        let next : Option Nat :=
          if x.fan.any (fun e => e.accepted) || 1000 ≤ x.nextAttempt then none else some x.nextAttempt
        let fan := x.fan.map (fun e =>
          if e.spn = spindle then (if ok then { e with accepted := true } else { e with attempt := next }) else e)
        { x with
          fan := fan, nextAttempt := x.nextAttempt + b2n (!ok && next.isSome), winner := fanWinner fan }
      | _ => x)).stopLosers job)

/-! ## End of compute -/

/-- The frame a job is sealed and retired in: the computing frame, else the home frame. -/
def State.sealFrame (s : State) (x : Job) : Nat := s.frameOf x

/-- Jobs of a frame in S6. -/
def State.inS6 (s : State) (f : Nat) : Nat :=
  (s.jobsWhere (fun x => (x.stage = .s6 || x.stage = .s7wait) && s.sealFrame x = f)).length

/-- A job's result lies in its frame's retire buffer. -/
def Stage.buffered : Stage → Bool
  | .s6 | .s7wait | .held | .s7 _ => true
  | _ => false

/-- Bytes of a frame's retire buffer in use (R230). -/
def State.retireUsed (s : State) (f : Nat) : Nat :=
  (s.jobs.map (fun e =>
    if e.2.stage.buffered && !streams e.2 && s.sealFrame e.2 = f then e.2.result.length else 0)).sum

/-- A job's result goes through verify-after-sign (R248). -/
def Job.selfVerify (x : Job) : Bool := x.vas && x.major = 0 && (opVas x).isSome

/-- A private operation of the carder, the ephemeral ones included, which is checked there before S6 takes its result; an operation
that its check phase ended has not been made (R207). -/
def Job.carderPrivate (x : Job) : Bool :=
  needsCarder x && (opSecret x || x.fam = 0x19 || x.fam = 0x1A || x.fam = 0x1B || x.fam = 0x81) &&
    (x.major = 0 || (x.major = inputErr && x.detail = 0x0306))

/-- EV_DONE: a unit interrupts S6, which takes its finished job when it has room (R204, R230); for a raw job of an applet it
interrupts the issuing core, and there is no S6. A private operation's own check has failed when `checkFails` says so (R207). The
second pass of an EdDSA signature needs a digest lane again (R208). -/
def execEvDone (job : Nat) (checkFails : Bool) (s : State) : Host.Outcome State Fault Refusal :=
  finish (match s.job? job with
    | none => s
    | some x =>
      if x.stage ≠ .ended || !s.live then s
      else
        let f := s.sealFrame x
        let raw := x.opClass = 7 && x.sub.isSome
        let second := x.fam = 0x2A && x.opOp = 1 && x.major = 0 && x.hashed = 1
        let s := if second then s.laneAsk 3 f job x.deadline else s
        if second && (s.laneOf 3 job).isNone then s
        else if !raw && (32 ≤ s.inS6 f || 2 ^ 26 < s.retireUsed f + (if streams x then 0 else x.result.length)) then
          s.setJob job { x with since := if x.since = 0 then s.now + 1 else x.since }
        else
          let s := (s.laneFree 3 job).laneFree 4 job
          let fails := checkFails && x.carderPrivate
          let s := if fails then s.failWith job integrityErr 0x0301 else s
          let s := s.modJob job (fun x => { x with
            stage := if raw then .s7wait else .s6, since := 0, fLate := x.fLate || s.lateNow x
            hashed := if second then 2 else x.hashed, resLen := if raw then x.result.length else x.resLen })
          let s := s.trace (x.ev 0x06 (some 1) (s.locOf x) (ctime x.cycles))
          match x.place with
          | some (g, c) =>
            if x.carder && !(x.selfVerify && !fails) then
              ((s.freeBank job).freeUnit g c 12 true).modJob job (fun x => { x with carder := false, dslot := none })
            else s.modJob job (fun x => { x with dslot := none })
          | none => s)

/-! ## Seal -/

/-- Cut a byte string over the pieces of an output buffer. -/
def splitOut : List (Nat × Nat) → Bytes → List (Nat × Bytes)
  | [], _ => []
  | (a, n) :: ps, b => if b = [] then [] else (a, b.take n) :: splitOut ps (b.drop n)

/-- S6 compares for this job: a verification, a tag or an integrity check (R224). -/
def compares (x : Job) : Bool :=
  x.selfVerify ||
    (x.opOp = 2 && !x.early && (x.major = 0 || x.major = verifyFail) &&
      (match x.fam with
       | 0x21 | 0x22 | 0x23 | 0x24 | 0x25 | 0x28 | 0x29 | 0x2A | 0x82 | 0x32 | 0x33 | 0x34 => true
       | 0x41 | 0x42 => isAead x || (x.fam = 0x41 && (x.opParam = 6 || x.opParam = 7))
       | _ => false))

/-- Cycles of verify-after-sign: the verify opcode's at order 0 (R248). -/
def vasCycles (x : Job) : Nat :=
  let y := { x with opcode := x.opcode + 0x10, mask := 0 }
  (opCycles y (x.key.map (·.2)) x.rsa.1 x.rsa.2).getD 0

/-- The job's key is kept warm on its spindles (R238): a normal end, a form of 16 KiB or less, warm keys enabled, the key and its
half still current. -/
def State.keepsWarm (s : State) (x : Job) (f c : Nat) : Bool :=
  x.major ≠ integrityErr && s.warmOn? f c && x.gen = (s.strand x.fn).gen &&
    (match x.key with
     | some (slot, k) =>
       decide (k.sizes.cached ≤ 16384) &&
         (match s.key? slot with | some y => y.uid = k.uid && y.active = k.active | none => false)
     | none => false)

/-- The spindles of a job are released at the end of S6, and its key stays warm on the one that carried the result, or on all
(R234, R238, R245). -/
def State.releaseSpindles (s : State) (j : Nat) : State :=
  match s.job? j with
  | none => s
  | some x =>
    match x.place with
    | none => s
    | some (f, c) =>
      let keep := s.keepsWarm x f c
      let warm := x.key.map (fun k => (k.1, k.2.uid))
      let s := s.each x.spns (fun s u =>
        let s := s.freeUnit f c u true
        let mine := match x.winner with | some w => u = w | none => true
        if keep && mine then s.setUnit f c u { s.unit f c u with warm := warm } else s)
      let s := if x.carder then (s.freeBank j).freeUnit f c 12 true else s
      s.modJob j (fun x => { x with spns := [], carder := false, fan := [], dslot := none })

/-- The doubled flags of a comparison disagreed: INTEGRITY 0x0302, and nothing stays written: the plaintext of a streaming
decryption is overwritten with zero bytes (R220, R224). -/
def State.disagree (s : State) (j : Nat) : State :=
  match s.job? j with
  | none => s
  | some x =>
    let ws := if streams x && x.issued then splitOut (x.pieces 1) (zeros x.result.length) else []
    let s := ws.foldl (fun s w => s.send (.write x.fn w.1 w.2)) s
    (s.failWith j integrityErr 0x0302).modJob j (fun x => { x with
      due := x.due ++ ws.map (fun w => .data w.1 w.2.length), phase := if ws = [] then x.phase else 0 })

/-- SEAL: S6 discards a late completion, verifies a signature on the unit that made it, compares, checks the output capacity,
and hands the job to S7 (R71, R198, R224, R248, R311). A comparison whose doubled flags disagree fires source 0x19 DUAL_COMPARE of
the tamper block. -/
def execSeal (job : Nat) (vasFails flagsDisagree : Bool) (s : State) : Host.Outcome State Fault Refusal :=
  finish (match s.job? job with
    | none => s
    | some x =>
      if x.stage ≠ .s6 then s
      else if x.admitted.isSome && x.gen ≠ (s.strand x.fn).gen then s.discardLate job
      else
        let s := if x.selfVerify then s.modJob job (fun x => { x with cycles := x.cycles + vasCycles x }) else s
        let s := if x.selfVerify && vasFails then
            (if opVas x = some 0 then s.failWith job integrityErr 0x0202 else s.failWith job integrityErr 0x0303).burn job
          else s
        let s := match s.job? job with
          | some y =>
            if y.major = 0 && decide (y.outCap < y.result.length) && !streams y then
              s.setJob job { y with major := inputErr, detail := 3, resLen := y.result.length, result := [] }
            else if y.major = 0 then s.setJob job { y with resLen := y.result.length }
            else s
          | none => s
        let bad := flagsDisagree && compares x
        let s := if bad then s.disagree job else s
        let s := (s.releaseSpindles job).modJob job (fun y => { y with stage := .s7wait, rnd := [] })
        if bad then s.fireGroup [{ source := 0x19, detectorA := false, detectorB := false, detail := 0 }] else s)

end Sys2Proof.Machine
end

