-- ==== Sys2Proof/Machine/Retire.lean ====
section
/-! DEFINITION. S7 (chapters 3, 8, 11 and 12): the ordering hold and its release (R76, R230, R333, R334), the write-back in its
order (R77, R78, R487), the dirty log (R72, R320 to R322), what a failed write does (R71, R86), and DONE (R80). -/

namespace Sys2Proof.Machine

/-! ## Addresses and writes -/

/-- Address of the entry of count `c` of a job's ring. -/
def State.slotAddr (s : State) (x : Job) (c : Nat) : Nat :=
  match s.ring? x.fn x.ring with
  | some g => g.base.toNat + 64 * (c % 2 ^ g.log2)
  | none => 0

/-- The output writes of a job: the first RES_LEN bytes of its capacity (R70). -/
def Job.outWrites (x : Job) : List (Nat × Bytes) := splitOut (x.pieces 1) x.result

/-- The ring writes of a step of R77: 3 word 0 of each continuation, 4 head word 7, 5 head word 0. -/
def State.ringWrites (s : State) (x : Job) (k : Nat) : List (Nat × Bytes) :=
  if k = 3 then
    (List.range (x.n - 1)).map (fun i =>
      (s.slotAddr x (x.start + i + 1), leBytes 8 (completionWord x (i + 2 = x.n) false).toNat))
  else if k = 4 then [(s.slotAddr x x.start + 56, leBytes 8 (completionWord7 x).toNat)]
  else if k = 5 then [(s.slotAddr x x.start, leBytes 8 (completionWord x (x.n = 1) true).toNat)]
  else []

/-- The writes that a step issues. The output of a streaming decryption went out as it computed (R220). -/
def State.stepWrites (s : State) (x : Job) (k : Nat) : List (Nat × Bytes) :=
  if k = 1 then (if streams x then [] else x.outWrites) else s.ringWrites x k

/-! ## The dirty log -/

/-- The pages that a write touches. -/
def pagesOf (w : Nat × Nat) : List Nat :=
  if w.2 = 0 then [] else (List.range ((w.1 + w.2 - 1) / 4096 - w.1 / 4096 + 1)).map (· + w.1 / 4096)

/-- Set the bit of a page in a table of bitmap words. -/
def markPage (t : Tbl Nat) (p : Nat) : Tbl Nat := t.insert (p / 64) (t.getD (p / 64) 0 ||| 2 ^ (p % 64))

/-- Ask for the dirty-log bits of some writes of a strand: the bits of pages within the window, once each, go to the bitmap the job
has fixed, by the read of each 8-byte word and then its write; pages written outside the window are counted (R320 to R322, R487). -/
def State.dlogIssue (s : State) (j : Nat) (ws : List (Nat × Nat)) : State :=
  match s.job? j with
  | none => s
  | some x =>
    let t := s.strand x.fn
    if x.fn = 0 || !t.dlogOn then s
    else
      let inside (p : Nat) : Bool := decide (t.dlogBase ≤ p * 4096 ∧ p * 4096 < t.dlogBase + t.dlogLen)
      let b := x.dlogBuf.getD t.dlogBuf
      let map := if b then t.dlogB else t.dlogA
      let outN := (ws.map (fun w => (pagesOf w).countP (fun p => !inside p))).sum
      let pages := (((ws.map pagesOf).flatten.filter inside).map (· - t.dlogBase / 4096)).filter (fun p => !x.marked.contains p)
      let words := pages.foldl markPage []
      let reads := words.map (fun w => (map + 8 * w.1, (BitVec.ofNat 64 w.2 : W64)))
      let s := s.setStrand x.fn { t with dlogOut := satAdd t.dlogOut outN }
      let s := s.setJob j { x with
        dlogBuf := some b, marked := x.marked ++ pages, due := x.due ++ reads.map (fun r => .bitRead r.1 r.2) }
      reads.foldl (fun s r => s.send (.readReq 0 r.1 8)) s

/-- Every range a job writes to its strand's memory. -/
def State.jobRanges (s : State) (x : Job) : List (Nat × Nat) :=
  (x.outWrites ++ s.ringWrites x 3 ++ s.ringWrites x 4 ++ s.ringWrites x 5).map (fun w => (w.1, w.2.length))

/-! ## Write-back (R77) -/

/-- DONE passes over the spans that are complete from it on (R80). -/
def advanceDone (done : W32) (spans : List (W32 × Nat)) : Nat → W32 × List (W32 × Nat)
  | 0 => (done, spans)
  | fuel + 1 =>
    match spans.find? (fun p => p.1 = done) with
    | some p => advanceDone (done + BitVec.ofNat 32 p.2) (spans.filter (· ≠ p)) fuel
    | none => (done, spans)

/-- A job's entries have been written back. DONE of a halted function stays as it was at the halt (R91), which the recovery steps
after R89 do not say; the model follows the rule (log 127). -/
def State.ringDone (s : State) (x : Job) : State :=
  match s.ring? x.fn x.ring with
  | none => s
  | some g =>
    if (s.page x.fn).halted then s else
    let spans := g.spans ++ [(BitVec.ofNat 32 x.start, x.n)]
    let (d, sp) := advanceDone g.done spans spans.length
    s.setRing x.fn x.ring { g with done := d, spans := sp }

/-- Step 6 and the end: DONE, the interrupt count, the trace record; the job leaves, its key is free, a reset that waited for it
starts (R77, R80, R82, R110, R149). -/
def State.retired (s : State) (j : Nat) : State :=
  match s.job? j with
  | none => s
  | some x =>
    let s := s.ringDone x
    let s := if x.irq then s.countIrq x.fn x.ring else s
    let s := s.trace (x.ev 0x07 (some 1) (s.locOf x) (x.major + x.detail * 2 ^ 8 + completionFlags x (x.n = 1) true * 2 ^ 24))
    let s := ((s.removeJob j).keySettle).lateNotice x.fn
    let s : State := if x.opClass = 10 then { s with crx := { s.crx with cntCalls := satInc s.crx.cntCalls } } else s
    if s.glb.resetDue && s.glb.resetJob = some j then s.deviceReset 2 else s

/-- The transactions of step 2. -/
def State.stepDlog (s : State) (j : Nat) (x : Job) : State :=
  if x.early || x.sub.isSome || streams x then s else s.dlogIssue j (s.jobRanges x)

/-- What a step waits for beside the dirty log. -/
def stepDue (k : Nat) (ws : List (Nat × Bytes)) : List HostWait :=
  if k = 1 then ws.map (fun w => .data w.1 w.2.length)
  else if k = 3 then (List.range ws.length).map (fun i => .entry (i + 1))
  else ws.map (fun _ => .entry 0)

/-- Begin step `k` of the write-back. The first byte of a strand blob that it writes freezes the strand's stateful keys (R324). A step with nothing to write passes to the next. `fuel` bounds the steps. -/
def State.beginStep (s : State) (j k : Nat) : Nat → State
  | 0 => s
  | fuel + 1 =>
    match s.job? j with
    | none => s
    | some x =>
      if 6 ≤ k then s.retired j
      else
        let ws := if k = 2 then [] else s.stepWrites x k
        let s := if k = 1 && x.opcode = 0xF107 && ws ≠ [] then s.freezeSaved (fld x.param 0 10) else s
        let s := ws.foldl (fun s w => s.send (.write x.fn w.1 w.2)) s
        let s := s.modJob j (fun x => { x with stage := .s7 k, due := stepDue k ws, issued := x.issued || k = 1 })
        let s := if k = 2 then s.stepDlog j x else s
        if ((s.job? j).map (·.due)) = some [] then s.beginStep j (k + 1) fuel else s

/-- An output write has failed: DMA 0x0004, or 0x0005 where its translation was refused; RES_LEN 0, the assigned index burned
(R71, R147, Table 3.8). -/
def State.outputFailed (s : State) (j : Nat) (o : WriteOutcome) : State :=
  (s.modJob j (fun x => { x with major := dmaErr, detail := if o = .translation then 5 else 4, resLen := 0 })).burn j

/-- The job's output failed, where a write of it did. -/
def State.settleOutput (s : State) (j : Nat) (o : Option WriteOutcome) : State :=
  match o with
  | some o => s.outputFailed j o
  | none => s

/-- Jobs of a frame in write-back. -/
def State.inS7 (s : State) (f : Nat) : Nat := (s.jobsWhere (fun x => x.stage.writing && s.sealFrame x = f)).length

/-- The job's turn in its ordering group has come (R333). -/
def State.myTurn (s : State) (x : Job) : Bool :=
  match x.stamp with
  | some t => t = (s.hdl.og.getD x.ogrp (0, 0)).2
  | none => true

/-- A held job of the frame has been released and goes first (R334). -/
def State.releasedWaits (s : State) (f j : Nat) : Bool :=
  s.jobs.any (fun e => e.1 != j && e.2.stage = .held && s.sealFrame e.2 = f && s.myTurn e.2)

/-- The write-back of a streaming decryption has had its data and bits acknowledged. -/
def Job.streamDone (x : Job) : Bool := !streams x || !x.issued || (x.due = [] && x.phase = 2)

/-- RETIRE: a late job is discarded; an ORDER job waits for its turn as a held token; else S7 begins the write-back, streaming
decryptions at step 3 (R76, R220, R230, R311, R333, R334). -/
def execRetire (job : Nat) (s : State) : Host.Outcome State Fault Refusal :=
  finish (match s.job? job with
    | none => s
    | some x =>
      if (x.stage ≠ .s7wait && x.stage ≠ .held) || x.sub.isSome then s
      else if x.admitted.isSome && x.gen ≠ (s.strand x.fn).gen then s.discardLate job
      else
        let f := s.sealFrame x
        let arg := x.ogrp + ((x.stamp.getD 0).toNat) * 2 ^ 32
        if !s.myTurn x then
          (if x.stage = .held then s
           else
            (s.setJob job { x with stage := .held, fHeld := true, since := s.now + 1 }).trace
              (x.ev 0x08 (some 2) (locCode s.dev f 15 15) arg))
        else if 64 ≤ s.inS7 f || !x.streamDone || (x.stage = .s7wait && s.releasedWaits f job) then s
        else
          let s := if x.stage = .held then s.trace (x.ev 0x09 (some 2) (locCode s.dev f 15 15) arg) else s
          let s := if streams x then s.settleOutput job x.outFailed else s
          s.beginStep job (if streams x then 3 else 1) 7)

/-- The first failed output write of a step that writes output. -/
def outputFate (o : WriteOutcome) (was : Option WriteOutcome) (output : Bool) : Option WriteOutcome :=
  if o = .ok || !output then was else was.or (some o)

/-- Issue the writes of the bitmap words that have been read, once no read of a word is out (R487). -/
def State.bitsOut (s : State) (j : Nat) : State :=
  match s.job? j with
  | none => s
  | some x =>
    if x.due.any (fun d => match d with | .bitRead _ _ => true | _ => false) then s
    else
      x.due.foldl (fun s d => match d with
        | .bitWrite a m false => s.send (.dlogOr a m)
        | _ => s) (s.setJob j { x with due := x.due.map (fun d => match d with | .bitWrite a m _ => .bitWrite a m true | d => d) })

/-- A write of the ring itself has failed: structural fault 0x0D at the entry that was written (R86), but none from a ring that
is being destroyed (R89). -/
def State.ringWriteFails (s : State) (x : Job) (i : Nat) : State :=
  match s.ring? x.fn x.ring with
  | none => s
  | some g => if g.destroying then s else s.structFault x.fn x.ring ((x.start + i) % 2 ^ g.log2) x.seq.toNat 0x0D

/-- What a streaming decryption does once a transaction of it is acknowledged: the bits of a page are asked for when the first
write to it has been acknowledged, those of its entries' pages with the last; then it is done (R220, R321). -/
def State.streamStep (s : State) (j : Nat) (d : HostWait) : State :=
  let s := match d with
    | .data a n => s.dlogIssue j [(a, n)]
    | _ => s
  match s.job? j with
  | none => s
  | some x =>
    if x.phase = 0 && !x.due.any (fun d => match d with | .data _ _ => true | _ => false) then
      let s := (s.modJob j (fun x => { x with phase := 1 })).dlogIssue j
        ((s.ringWrites x 3 ++ s.ringWrites x 4 ++ s.ringWrites x 5).map (fun w => (w.1, w.2.length)))
      s.modJob j (fun x => if x.due = [] then { x with phase := 2 } else x)
    else if x.phase = 1 && x.due = [] then s.modJob j (fun x => { x with phase := 2 })
    else s

/-- Count a host write that failed. -/
def State.ackCounted (s : State) : WriteOutcome → State
  | .ok => s
  | .error => s.hostError 0
  | .translation => s.hostError 1

/-- HOST_WRITE_ACK: the host link acknowledges, or fails, one transaction of the job, `which` of those that are out. The last
acknowledgement of a step lets the next begin; a failed output write completes the job with DMA 0x0004 or 0x0005, a failed ring
write is structural fault 0x0D (R71, R72, R77, R86, R487). Job 0 stands for the records of notices (R319, log 142). -/
def execHostWriteAck (job : Nat) (outcome : WriteOutcome) (s : State) (which : Nat := 0) : Host.Outcome State Fault Refusal :=
  finish (match s.job? job with
    | none => if job = 0 && which < s.host.notices.length then (s.ackCounted outcome).noticeAck which (outcome = .ok) else s
    | some x =>
      match x.due[which]? with
      | none => s
      | some d =>
        let rest := x.due.eraseIdx which
        let s := s.ackCounted outcome
        let wrote := match d with | .data _ _ => true | _ => false
        let left : List HostWait := match d with
          | .bitRead a m => rest ++ [.bitWrite a m false]
          | .bitWrite a m false => rest ++ [.bitWrite a m false]
          | _ => rest
        let t := (s.setJob job { x with due := left, outFailed := outputFate outcome x.outFailed wrote }).bitsOut job
        match x.stage, d with
        | .s7 k, .entry i =>
          if outcome ≠ .ok then (s.ringWriteFails x i).dropOne job
          else if left = [] then t.beginStep job (k + 1) 7 else t
        | .s7 k, _ =>
          if left = [] then
            (if k = 1 then t.settleOutput job (outputFate outcome x.outFailed wrote) else t).beginStep job (k + 1) 7
          else t
        | _, _ => if streams x && x.issued then t.streamStep job d else t)

end Sys2Proof.Machine
end

