-- ==== Sys2Proof/Machine/Applets.lean ====
section
/-! DEFINITION. APPLET calls: contexts, time slices, service calls and sub-jobs (R376 to R384); T-gate arrivals, debug access
and memory errors of the Crixa cores. -/

namespace Sys2Proof.Machine

/-! ## Contexts (R378) -/

/-- A context can run. -/
def State.runnable (s : State) (k : Nat) : Bool := (s.ctx k).job.isSome && (s.ctx k).blocked.isNone

/-- The core passes to its next context that can run, round robin, or to firmware; a load before completes first (R363, R378). -/
def State.switchCtx (s : State) (n : Nat) : State :=
  let c := s.core n
  let cur := match c.ctx with | some k => k % 8 | none => 7
  let r := c.r.settleLoad
  let s := match c.ctx with | some k => s.setCtx k { s.ctx k with r := r } | none => s
  let fw := if c.ctx.isSome then c.fw else r
  match ((List.range 8).map (fun i => 8 * n + (cur + 1 + i) % 8)).find? s.runnable with
  | some k => s.setCore n { c with r := (s.ctx k).r, fw := fw, ctx := some k, sliceAt := s.now }
  | none => s.setCore n { c with r := fw, ctx := none }

/-- Registers at call entry, in the image the call was admitted under (Table 13.12, Table 4.8). -/
def State.entryRegs (s : State) (k : Nat) (x : Job) : CRegs :=
  let rec_ : AppletRec := (x.img.bind (fun g => g.recs[x.opFamily]?)).getD
    { start := 0, entries := 0, forerunner := false, tlim := 0 }
  let key : CWord := match x.key with
    | some (_, o) => { tag := .kref
                       val := BitVec.ofNat 64 (x.handle * 2 ^ 32 + (s.strand (handleOwner x.handle)).gen.toNat * 2 ^ 16 +
                         o.policy.ops.toNat) }
    | none => intWord 0
  let href (b : Nat) : CWord := { tag := .href, val := BitVec.ofNat 64 (b * 2 ^ 62) }
  let num (v : Nat) : CWord := intWord (BitVec.ofNat 64 v)
  let regs : List (Nat × CWord) := [(0, key), (1, href 0), (2, href 1), (3, href 2), (4, num x.inLen), (5, num x.outCap),
    (6, num x.auxLen), (7, num x.param), (8, { tag := .ptr, val := BitVec.ofNat 64 (scratchBase k) }),
    (9, { tag := .ptr, val := BitVec.ofNat 64 (stackBase k + 0x2000) }),
    (10, num (x.opcode + x.fn * 2 ^ 16 + x.seq.toNat * 2 ^ 32))]
  { pc := BitVec.ofNat 64 (0x40000000 + rec_.start), applet := true, rsm := BitVec.ofNat 2 (fld s.crx.cfg.toNat 6 2)
    rsp := { tag := .ptr, val := BitVec.ofNat 64 (rstackBase k) }
    shared := regs.foldl (fun t e => t.put poisonWord e.1 e.2) [] }

/-- CALL_TAKE: a free context takes the oldest queued call; one past its deadline completes with DEADLINE 0x0002 (R378). -/
def execCallTake (ctx : Nat) (s : State) : Host.Outcome State Fault Refusal :=
  finish (match s.crx.callQ with
    | [] => s
    | j :: rest =>
      let c := s.core (ctx / 8)
      if !s.awake || 32 ≤ ctx || (s.ctx ctx).job.isSome || !c.run then s
      else
        match s.job? j with
        | none => { s with crx := { s.crx with callQ := rest } }
        | some x =>
          let s : State := { s with crx := { s.crx with callQ := rest } }
          if s.lateNow x then s.refuse j deadlineErr 2 0
          else
            let s := s.setJob j { x with stage := .applet ctx }
            let s := s.setCtx ctx { job := some j, img := x.img, takenAt := s.now, r := s.entryRegs ctx x }
            if c.ctx.isNone then s.switchCtx (ctx / 8) else s)

/-- CONTEXT_SLICE: cancelled calls of the core are stopped, and a slice of 100 µs that is over passes to the next context (R378,
R380). -/
def execContextSlice (core : Nat) (s : State) : Host.Outcome State Fault Refusal :=
  finish (let c := s.core core
    if !s.awake || 4 ≤ core || !c.run || c.dbgHalt then s
    else
      let ks := ((List.range 8).map (fun i => 8 * core + i)).filter (fun k => (s.ctx k).cancelled)
      let t := s.each ks State.stopCancelled
      let d := t.core core
      if d.ctx.isSome && decide (t.now < d.sliceAt + 100) then t else t.switchCtx core)

/-- APPLET_TIME_LIMIT: a call that has run for TLIM ends with APPLET 0x0802; one that has been cancelled is stopped (R380). -/
def execAppletTimeLimit (ctx : Nat) (s : State) : Host.Outcome State Fault Refusal :=
  finish (let x := s.ctx ctx
    match x.job.bind s.job?, x.img with
    | some j, some g =>
      let tlim := (((g.recs[j.opFamily]?).map (·.tlim)).getD 0)
      if s.now < x.takenAt + tlim then s
      else if x.cancelled then s.stopCancelled ctx
      else s.endCall ctx appletErr 0x0802 0 []
    | _, _ => s)

/-! ## Service calls (R381, Table 13.13) -/

/-- SVC on a core: an applet's is a trap that service firmware handles, once however long RANDOM waits; supervisor code takes the
trap (R365, R381). -/
def State.svc (s : State) (core num : Nat) (f : State → Nat → Job → CRegs → CStep) : State :=
  s.instr core (fun s r =>
    match s.callOn core, r.applet with
    | some (k, x), true => f (if (s.ctx k).rndWait then s else s.handledTrap core r.pc 0x10 num) k x r.settleLoad
    | _, _ => .trap 0x10 num)

/-- Results of a service call, as INT. -/
def CRegs.result (r : CRegs) (a0 : W64) : CRegs := (r.set 0 (intWord a0)).next

/-- EXIT: the outcome in a0 and RES_LEN in a1; words that are not INT give an outcome that is not defined (log 68). -/
def execExit (core : Nat) (s : State) : Host.Outcome State Fault Refusal :=
  finish (s.svc core 0 (fun s k x r =>
    let a0 := r.get 0
    let a1 := r.get 1
    let o := a0.val.toNat
    let n := a1.val.toNat
    .wait (
      if a0.tag ≠ .int || a1.tag ≠ .int then s.endCall k appletErr 0x0803 0 []
      else if x.outCap < n then s.endCall k inputErr 3 n []
      else if o = 0 then s.endCall k 0 0 n ((s.ctx k).outBuf.bytes 0 n)
      else if o = 1 then s.endCall k verifyFail 0x0801 0 []
      else if 0x100 ≤ o && o ≤ 0x1FF then s.endCall k appletErr (0x0900 + o % 256) 0 []
      else s.endCall k appletErr 0x0803 0 [])))

/-- A buffer of a sub-job: in scratch, in a buffer of the call, or none. -/
inductive SubBuf where
  | none
  | scratch (a : Nat)
  | host (buf off : Nat)
deriving DecidableEq, Repr

/-- A word that names a buffer of `n` bytes: PTR into scratch, HREF to the input or the auxiliary buffer, or INT 0; anything
else makes the block malformed (R382). -/
def subBuf (k : Nat) (call : Option (Nat × Job)) (w : CWord) (n : Nat) (href : Bool) : Option SubBuf :=
  match w.tag with
  | .int => if w.val = 0 && (n = 0 || !href) then some .none else none
  | .ptr =>
    let a := w.val.toNat
    if decide (scratchBase k ≤ a) && decide (a + n ≤ scratchBase k + 65536) then some (.scratch a) else none
  | .href =>
    if href && (hrefBuf w = 0 || hrefBuf w = 2) && decide (hrefOff w + n ≤ bufLen call (hrefBuf w)) then
      some (.host (hrefBuf w) (hrefOff w))
    else none
  | _ => none

/-- A span of scratch holds a SEC word. -/
def State.spanSec (s : State) (core a n : Nat) : Bool :=
  (List.range ((n + 14) / 8)).any (fun i =>
    decide ((a / 8 + i) * 8 < a + n) &&
      (match cLocate core ((a / 8 + i) * 8) with | some w => (s.cword w).tag = .sec | none => false))

/-- The sub-job a block spells: a job of the call's function with its generation, class and deadline (R382, Table 13.14);
none when the block is malformed. -/
def State.subJobOf (s : State) (core k t : Nat) (x : Job) (b : List CWord) : Option Job :=
  let w (i : Nat) : CWord := (b[i]?).getD poisonWord
  let inLen := fld (w 3).val.toNat 0 32
  let outCap := fld (w 3).val.toNat 32 32
  let auxLen := fld (w 6).val.toNat 0 32
  let call := some (k, x)
  if [0, 3, 6, 7].any (fun i => (w i).tag ≠ .int) then none
  else if !((w 1).tag = .kref || ((w 1).tag = .int && (w 1).val = 0)) then none
  else
    match subBuf k call (w 2) inLen true, subBuf k call (w 4) outCap false, subBuf k call (w 5) auxLen true with
    | some i, some o, some a =>
      let kref := (w 1).tag = .kref
      let handle := if kref then fld (w 1).val.toNat 32 32 else 0
      let bytes (b : SubBuf) (n : Nat) : Option Bytes :=
        match b with | .scratch p => if n = 0 then none else some (s.cbytes core p n) | _ => none
      let exts (kind : Nat) (b : SubBuf) (n : Nat) : List Ext :=
        match b with
        | .host buf off => (subPieces (x.pieces buf) off n).map (fun q => { kind := kind, addr := q.1, len := q.2 })
        | _ => []
      let sec (b : SubBuf) (n : Nat) : Bool := match b with | .scratch p => s.spanSec core p n | _ => false
      some {
        fn := x.fn, ring := x.ring, start := x.start, n := 1, seq := x.seq, opcode := fld (w 0).val.toNat 0 16, cls := x.cls
        order := false, irq := false
        words := [BitVec.ofNat 64 (handle * 2 ^ 32), 0, (w 3).val, 0, 0,
          BitVec.ofNat 64 (fld (w 0).val.toNat 32 32 * 2 ^ 32 + auxLen)]
        exts := exts 0 i inLen ++ exts 2 a auxLen, deadline := x.deadline, gen := x.gen
        note := if kref then fld (w 1).val.toNat 0 32 + 1 else 0
        input := bytes i inLen, aux := bytes a auxLen, sub := some (k, t)
        subOut := match o with | .scratch p => p | _ => 0
        secIn := sec i inLen || sec a auxLen }
    | _, _, _ => none

/-- SUBMIT (R382). -/
def execSubmit (core : Nat) (s : State) : Host.Outcome State Fault Refusal :=
  finish (s.svc core 1 (fun s k x r =>
    let p := r.get 0
    let a := p.val.toNat
    let c := s.ctx k
    let free := firstBelow 8 (fun t => (c.tickets.get? t).isNone)
    let inScratch := p.tag = .ptr && a % 8 = 0 && decide (scratchBase k ≤ a) && decide (a + 64 ≤ scratchBase k + 65536)
    match free with
    | none => .ok s (r.result (BitVec.ofInt 64 (-1))) 1 none
    | some t =>
      if !inScratch then .ok s (r.result (BitVec.ofInt 64 (-2))) 1 none
      else
        let b := (List.range 8).map (fun i =>
          match cLocate core (a + 8 * i) with | some w => s.cword w | none => poisonWord)
        match s.subJobOf core k t x b with
        | none => .ok s (r.result (BitVec.ofInt 64 (-2))) 1 none
        | some y =>
          let refused := y.opClass = 5 || y.opClass = 10 || y.opClass = 15
          let ticket : Ticket := { job := s.nextJob, done := if refused then some (unsupportedErr, 0x0802, 0) else none }
          let s := s.setCtx k { c with tickets := c.tickets.insert t ticket }
          let s : State := if refused then s else { s.setJob s.nextJob y with nextJob := s.nextJob + 1 }
          .ok s (r.result (BitVec.ofNat 64 t)) 1 none))

/-- The results of a completed sub-job: STATUS_MAJOR and STATUS_DETAIL in a0, RES_LEN in a1. -/
def CRegs.ticketDone (r : CRegs) (d : Nat × Nat × Nat) : CRegs :=
  (r.set 1 (intWord (BitVec.ofNat 64 d.2.2))).result (BitVec.ofNat 64 (d.1 * 65536 + d.2.1))

/-- WAIT and POLL on the ticket in a0: an unknown ticket gives −1; a completed one is freed. -/
def State.ticketCall (s : State) (core num : Nat) (poll : Bool) : State :=
  s.svc core num (fun s k _ r =>
    let a0 := r.get 0
    let c := s.ctx k
    match (if a0.tag = .int then c.tickets.get? a0.val.toNat else none) with
    | none => .ok s (r.result (BitVec.ofInt 64 (-1))) 1 none
    | some t =>
      match t.done with
      | some d =>
        .ok ((s.setCtx k { c with tickets := c.tickets.erase a0.val.toNat }).setCore core { s.core core with irqCarder := false })
          (r.ticketDone d) 1 none
      | none =>
        if poll then .ok s (r.result (BitVec.ofInt 64 (-3))) 1 none
        else .ok (s.setCtx k { c with blocked := some a0.val.toNat }) r 1 none)

/-- WAIT: a context that waits yields its core (R378). -/
def execWait (core : Nat) (s : State) : Host.Outcome State Fault Refusal :=
  finish (let t := s.ticketCall core 2 false
    match (t.core core).ctx with
    | some k => if (t.ctx k).blocked.isSome then t.switchCtx core else t
    | none => t)
/-- POLL. -/
def execPoll (core : Nat) (s : State) : Host.Outcome State Fault Refusal := finish (s.ticketCall core 3 true)

/-- YIELD: the slice passes to the next context. -/
def execYield (core : Nat) (s : State) : Host.Outcome State Fault Refusal :=
  finish (let pc := (s.core core).r.pc
    let t := s.svc core 4 (fun s _ _ r => .ok s r.next 1 none)
    if (s.core core).ctx.isSome && (t.core core).ctx = (s.core core).ctx && (t.core core).r.pc ≠ pc then t.switchCtx core else t)

/-- TIME: PTC_BOOT. -/
def execTime (core : Nat) (s : State) : Host.Outcome State Fault Refusal :=
  finish (s.svc core 5 (fun s _ _ r => .ok s (r.result s.glb.ptcBoot) 1 none))

/-- RANDOM: 1 to 4,096 INT bytes at PTR a0 from instance H (Table 14.2; Table 13.12 says the frame's, log 152); it waits while randomness is unavailable, and gives −1 at the
call's deadline. Arguments it cannot take give −1 (log 68). -/
def execRandom (core : Nat) (s : State) : Host.Outcome State Fault Refusal :=
  finish (s.svc core 6 (fun s k x r =>
    let p := r.get 0
    let n := r.get 1
    let m := n.val.toNat
    let fail : CStep := .ok (s.setCtx k { s.ctx k with rndWait := false }) (r.result (BitVec.ofInt 64 (-1))) 1 none
    if p.tag ≠ .ptr || n.tag ≠ .int || m = 0 || 4096 < m then fail
    else
      match (s.core core).span core p.val.toNat m with
      | .error _ => fail
      | .ok _ =>
        if !s.serves 5 then
          (if s.lateNow x then fail else .wait (s.setCtx k { s.ctx k with rndWait := true }))
        else
          let (b, s) := s.generate 5 m []
          let s := s.putCbytes core p.val.toNat false (m + 1) b
          .ok (s.setCtx k { s.ctx k with rndWait := false }) (r.result 0) 1 none))

/-! ## Sub-job completion (R383, Table 13.15) -/

/-- Where the SEC part of a sub-job's output begins: shared secrets, decrypted text, and any output of a sub-job without a KREF
that reads SEC. -/
def subSecAt (x : Job) (n : Nat) : Nat :=
  let o := x.opOp
  match x.fam with
  | 0x11 => if o = 1 then n - 32 else 0
  | 0x12 => if o = 1 then n - 64 else 0
  | 0x13 => if o = 1 then n - 32 else 0
  | 0x81 => if o = 1 then n - (if fld x.param 2 2 = 1 then 64 else 32) else 0
  | 0x19 => if o = 1 then 0 else 1 + 2 * fieldLen (0x60 + x.opParam)
  | 0x1A => if o = 1 then 0 else xLen x.opParam
  | 0x1B => if o = 1 then 0 else ffdheLen x.opParam
  | _ =>
    if (x.opClass = 4 && o = 2) || (x.fam = 0x18 && o = 2) then 0
    else if x.note = 0 && x.secIn then 0
    else n

/-- Bytes at the end of a sub-job's output that are the next IV of a chaining decryption, which is no plaintext (Tables 7.10,
13.15). -/
def subIvTail (x : Job) : Nat :=
  if x.opOp = 2 && bitOf x.param 0 then
    (if x.fam = 0x41 && (x.opParam = 2 || x.opParam = 3) then 16 else if x.fam = 0x43 then 8 else 0)
  else 0

/-- SUBJOB_COMPLETION: the output goes to scratch with its tags, the ticket takes the status, a context that waits on it is woken, and
a raw BIGNUM sub-job interrupts the issuing core (R204, R383). -/
def execSubjobCompletion (job : Nat) (s : State) : Host.Outcome State Fault Refusal :=
  finish (match s.job? job with
    | none => s
    | some x =>
      match x.sub with
      | none => s
      | some (k, t) =>
        if x.stage ≠ .s7wait then s
        else
          let n := x.result.length
          let all := decide (x.note = 0) && x.secIn
          let cut := min n (if all then 0 else subSecAt x n)
          let last := if all then n else n - subIvTail x
          let core := k / 8
          let s := if x.major = 0 && x.subOut ≠ 0 then
              ((s.putCbytes core x.subOut false (n + 1) (x.result.take cut)).putCbytes core (x.subOut + cut) true (n + 1)
                ((x.result.take last).drop cut)).putCbytes core (x.subOut + max cut last) false (n + 1) (x.result.drop (max cut last))
            else s
          let s := if x.fam = 0x71 && !x.early then s.setCore core { s.core core with irqCarder := true } else s
          let d := (x.major, x.detail, x.resLen)
          let c := s.ctx k
          let c := match c.tickets.get? t with
            | none => c
            | some e =>
              if e.job ≠ job then c
              else if c.blocked = some t then
                { c with tickets := c.tickets.erase t, blocked := none, r := c.r.ticketDone d }
              else { c with tickets := c.tickets.insert t { e with done := some d } }
          ((s.setCtx k c).removeJob job).keySettle)

/-! ## T-gate, debugger, memory errors -/

/-- TGATE_ARRIVAL: a queued message interrupts the receiving side (R375). -/
def execTgateArrival (toTrusted : Bool) (s : State) : Host.Outcome State Fault Refusal :=
  finish (if toTrusted then
      (if s.crx.g2t = [] then s else { s with crx := { s.crx with irqT := true } })
    else (if s.crx.t2g = [] then s else { s with crx := { s.crx with irqG := true } }))

/-- What a debugger reads of a word: SEC and KREF read 0 (R359). -/
def debugValue (w : CWord) : W64 := if w.tag = .sec || w.tag = .kref then 0 else w.val

/-- JTAG_DEBUG_ACCESS: a debugger on an open core halts, steps or runs it, sets its breakpoints, or reads or writes a word; what it
writes is INT (R359, R365, R424, R486). A core that runs on from a breakpoint executes the instruction there. -/
def execJtagDebugAccess (core : Nat) (action : DebugAction) (s : State) : Host.Outcome State Fault Refusal :=
  finish (let c := s.core core
    let isOpen := s.glb.debug && (if core = 4 then s.tap.crxT else decide (core < 4) && s.tap.crxG)
    if !isOpen then s
    else
      match action with
      | .halt => s.setCore core { c with dbgHalt := true, dbgStep := false }
      | .step => if c.dbgHalt then s.setCore core { c with dbgStep := true } else s
      | .run => s.setCore core { c with dbgHalt := false, dbgStep := c.dbgHalt && c.breaks.contains c.r.pc }
      | .breakpoint a on => s.setCore core { c with breaks := (c.breaks.filter (· ≠ a)) ++ (if on then [a] else []) }
      | .readReg n => { s with tap := { s.tap with dr := debugValue (c.r.get n.toNat) } }
      | .writeReg n v => s.setCore core { c with r := c.r.set n.toNat (intWord v) }
      | .readMem a =>
        match cLocate core a with
        | some w => { s with tap := { s.tap with dr := debugValue (s.cword w) } }
        | none => { s with tap := { s.tap with dr := 0 } }
      | .writeMem a v =>
        match cLocate core a with
        | some w => s.setCword w (intWord v)
        | none => s)

/-- CORE_MEMORY_UNCORRECTABLE: the word becomes POISON (Table 13.3). -/
def execCoreMemoryUncorrectable (core address : Nat) (s : State) : Host.Outcome State Fault Refusal :=
  finish (if !s.awake || 5 ≤ core then s
    else
      match cLocate core address with
      | some w => s.setCword w poisonWord
      | none => s)

end Sys2Proof.Machine
end

