-- ==== Sys2Proof/Machine/Attest.lean ====
section
/-! DEFINITION. ATTEST: the attestation report (R155, Table 5.13). -/

namespace Sys2Proof.Machine

/-- A measurement in the report: 32 bytes, zeros where there is none. -/
def measured (m : Bytes) : Bytes := padTo 32 m

/-- Report FLAGS: FROZEN, EPOCH_NEW, zeroized in this boot, DEBUG entered in this boot, OSC_USED. -/
def State.attestFlags (s : State) : Nat :=
  b2n s.glb.frozen + 2 * b2n s.glb.epochNew + 4 * b2n s.glb.zeroizedThisBoot + 8 * b2n s.glb.debugThisBoot +
    16 * b2n s.glb.oscUsed

/-- Bytes 0x000 to 0x8BF of the report, which the signature covers. -/
def State.attestBody (s : State) (f : Nat) (nonce : Bytes) : Bytes :=
  let pub := seedPub 0x21 s.attestSeed
  leBytes 4 0x54414B41 ++ leBytes 2 1 ++ leBytes 2 5549 ++ leBytes 4 glbId ++ leBytes 4 glbStep ++
    leBytes 4 s.mcs.tfw.toNat ++ leBytes 4 s.mcs.sfw.toNat ++ leBytes 4 s.mcs.ver.toNat ++ leBytes 4 s.mcs.cver.toNat ++
    [s.glb.mode, s.lcs.state] ++ leBytes 2 f ++ leBytes 2 (s.strand f).gen.toNat ++ leBytes 2 s.attestFlags ++
    leBytes 4 s.glb.boots.toNat ++ leBytes 4 s.glb.ptcLife.toNat ++ leBytes 8 s.now ++ padTo 32 nonce ++ sha3 pub ++
    measured s.mcs.mTfw ++ measured s.mcs.mSfw ++ measured s.mcs.mMcs ++ measured s.mcs.mMcsc ++ measured s.mcs.mApplet ++
    leBytes 8 s.vigil.logSeq.toNat ++ pub

/-- ATTEST. -/
def execAttest (job : Nat) (s : State) : Host.Outcome State Fault Refusal :=
  finish (match s.cmdJob job 0xF005 with
    | none => s
    | some x =>
      if x.outCap < 5549 then s.doneShort job 5549
      else
        let body := s.attestBody x.fn x.block
        s.done job (body ++ signSeed (ascii "AKN-ATTEST") s.attestSeed body x.rnd))

end Sys2Proof.Machine
end

