-- ==== Sys2Proof/Machine/Pqc.lean ====
section
/-! DEFINITION. The post-quantum operations (chapter 6): the end of the computation of ML-KEM, HQC and Classic McEliece,
ML-DSA, SLH-DSA, stateful, hybrid and composite jobs. What an algorithm computes is a function of its inputs (log 3); sizes,
status and cycles are the spec's. -/

namespace Sys2Proof.Machine

/-! ## Shared -/

/-- The cycles of a job whose figures are fixed. -/
def Job.figure (x : Job) : Nat := (opCycles x (x.key.map (·.2)) x.rsa.1 x.rsa.2).getD 0

/-- The computation of a job ends with its result. -/
def State.endsOk (s : State) (j : Nat) (x : Job) (result : Bytes) : State := s.ends j 0 0 x.figure result

/-- A verification ends: OK, or VERIFY_FAIL with the detail of the failure; it has no output. -/
def State.endsVerify (s : State) (j cycles : Nat) (fails : Option Nat) : State :=
  match fails with
  | none => s.ends j 0 0 cycles []
  | some d => s.ends j verifyFail d cycles []

/-- The bytes of an encapsulation: ciphertext ‖ K, a function of the public key and of the randomness, or of the host's m with
EXT_M (R167, R168). -/
def kemOut (x : Job) (n : Nat) : Bytes :=
  algoBytes x.opcode [x.pubAt 0, if x.fam = 0x11 && bitOf x.param 1 then x.inp else x.rnd] n

/-! ## Key encapsulation -/

/-- ML_KEM_ENCAPSULATE (R167 to R169, Table 6.8). -/
def execMlKemEncapsulate (job : Nat) (s : State) : Host.Outcome State Fault Refusal :=
  finish (match s.running job 0x11 1 with
    | none => s
    | some x => s.endsOk job x (kemOut x (mlkemCt x.opParam + 32)))

/-- ML_KEM_DECAPSULATE: a failed re-encryption gives the implicit-rejection key with OK (R167, R171). -/
def execMlKemDecapsulate (job : Nat) (s : State) : Host.Outcome State Fault Refusal :=
  finish (match s.running job 0x11 2 with
    | none => s
    | some x => s.endsOk job x (mlkemShared (0x0F + x.opParam) x.mat x.inp))

/-- HQC_ENCAPSULATE (R187, Table 6.18). -/
def execHqcEncapsulate (job : Nat) (s : State) : Host.Outcome State Fault Refusal :=
  finish (match s.running job 0x12 1 with
    | none => s
    | some x => s.endsOk job x (kemOut x (hqcCt x.opParam + 64)))

/-- HQC_DECAPSULATE (R187, R188). -/
def execHqcDecapsulate (job : Nat) (s : State) : Host.Outcome State Fault Refusal :=
  finish (match s.running job 0x12 2 with
    | none => s
    | some x => s.endsOk job x (algoBytes x.opcode [x.mat, x.inp] 64))

/-- MCELIECE_ENCAPSULATE (R189, Table 6.19). -/
def execMcelieceEncapsulate (job : Nat) (s : State) : Host.Outcome State Fault Refusal :=
  finish (match s.running job 0x13 1 with
    | none => s
    | some x => s.endsOk job x (kemOut x (mcCt x.opParam + 32)))

/-- MCELIECE_DECAPSULATE (R189). -/
def execMcelieceDecapsulate (job : Nat) (s : State) : Host.Outcome State Fault Refusal :=
  finish (match s.running job 0x13 2 with
    | none => s
    | some x => s.endsOk job x (algoBytes x.opcode [x.mat, x.inp] 32))

/-! ## ML-DSA and SLH-DSA -/

/-- The cycles of an accepted ML-DSA signature: attempt number `a` on `n` spindles, in rounds of one attempt a spindle (R245,
R489). -/
def mldsaCycles (x : Job) (n a : Nat) : Nat :=
  let (su, att, enc) := mldsaPhases (mldsaSet x)
  let msg := if x.fam = 0x82 then overMsg x.inLen (128, 90) else sigMsg x
  let runs := min (n * (a / n + 1)) 1000
  n * atOrder x.mask (su + msg) + runs * atOrder x.mask att + atOrder x.mask enc

/-- The cycles of a job whose 1,000 attempts were all rejected (R176). -/
def mldsaSpent (x : Job) (n : Nat) : Nat :=
  let (su, att, _) := mldsaPhases (mldsaSet x)
  let msg := if x.fam = 0x82 then overMsg x.inLen (128, 90) else sigMsg x
  n * atOrder x.mask (su + msg) + 1000 * atOrder x.mask att

/-- The attempts of an ML-DSA or composite signature: the number of the accepted one, or none after 1,000; no answer while a
fan-out still runs (R176, R245). -/
def attemptsEnd (x : Job) : Option (Option Nat) :=
  if x.fan = [] then some (if acceptedAttempt x < 1000 then some (acceptedAttempt x) else none)
  else if x.winner.isSome then some (some (acceptedAttempt x))
  else if 1000 ≤ x.nextAttempt && x.fan.all (fun e => e.attempt.isNone) then some none
  else none

/-- ML_DSA_SIGN (R172 to R176, R245, R489). -/
def execMlDsaSign (job : Nat) (s : State) : Host.Outcome State Fault Refusal :=
  finish (match s.running job 0x21 1 with
    | none => s
    | some x =>
      match attemptsEnd x with
      | none => s
      | some none => s.ends job integrityErr 0x0203 (mldsaSpent x (max 1 x.fan.length)) []
      | some (some a) =>
        s.ends job 0 0 (mldsaCycles x (max 1 x.fan.length) a) (mldsaSign x.opParam x.mldsaIns))

/-- ML_DSA_VERIFY: a malformed hint encoding, else the norm bound and the challenge (R177). -/
def execMlDsaVerify (job : Nat) (s : State) : Host.Outcome State Fault Refusal :=
  finish (match s.running job 0x21 2 with
    | none => s
    | some x =>
      let sig := x.auxData.take (mldsaSig x.opParam)
      s.endsVerify job x.figure
        (let pub := x.pubAt (mldsaSig x.opParam)
         if !mldsaHintOk x.opParam sig then some 0x0202
         else if mldsaVerify x.opParam pub (x.mu pub) sig then none
         else some 0x0201))

/-- SLH_DSA_SIGN: under fan-out the signature is the same; how the spindles share the work, and so CTIME, the spec does not give
(R179, R180, R246, log 102). -/
def execSlhDsaSign (job : Nat) (s : State) : Host.Outcome State Fault Refusal :=
  finish (match s.running job 0x22 1 with
    | none => s
    | some x =>
      let sig := algoBytes x.opcode x.slhIns (slhSig x.opParam)
      if x.spns.length ≤ 1 then s.endsOk job x sig
      else
        let (c, s) := s.freeNum
        s.ends job 0 0 c sig)

/-- SLH_DSA_VERIFY (R179, Table 6.25). -/
def execSlhDsaVerify (job : Nat) (s : State) : Host.Outcome State Fault Refusal :=
  finish (match s.running job 0x22 2 with
    | none => s
    | some x =>
      s.endsVerify job x.figure
        (if Config.accepts x.opcode [x.pubAt (slhSig x.opParam), x.message, x.auxData.take (slhSig x.opParam)] then none else some 0x0201))

/-! ## Stateful signatures -/

/-- A stateful signature with the index assigned at compute start (R184, R186). -/
def State.signStateful (s : State) (j : Nat) (x : Job) : State :=
  match x.key, x.index with
  | some (_, k), some i =>
    s.ends j 0 0 (atOrder x.mask (statefulSign k x.newTree + statefulMsg x (some k)))
      (statefulSig k i [x.mat, x.inp, x.rnd])
  | _, _ => s

/-- A stateful signature's type fields agree with the public key's, and its length with its type fields (R185). -/
def statefulShape (x : Job) (pub sig : Bytes) : Bool :=
  if x.fam = 0x23 then
    let l := beAt pub 0
    decide (4 ≤ sig.length) && 1 ≤ l && l ≤ 8 && beAt sig 0 + 1 = l && hssWalk sig l 4 (beAt pub 4) (beAt pub 8)
  else decide (sig.length = treeSigLen (opType x) (beAt pub 0))

/-- A stateful verification (R185). -/
def State.verifyStateful (s : State) (j : Nat) (x : Job) : State :=
  let sig := x.auxData.take x.param
  let pub := if isInline x then x.auxData.drop x.param else x.ownPub
  s.endsVerify j x.figure
    (if !statefulShape x pub sig then some 0x0202
     else if Config.accepts x.opcode [pub, x.inp, sig] then none else some 0x0201)

/-- HSS_SIGN. -/
def execHssSign (job : Nat) (s : State) : Host.Outcome State Fault Refusal :=
  finish (match s.running job 0x23 1 with | none => s | some x => s.signStateful job x)
/-- HSS_VERIFY. -/
def execHssVerify (job : Nat) (s : State) : Host.Outcome State Fault Refusal :=
  finish (match s.running job 0x23 2 with | none => s | some x => s.verifyStateful job x)
/-- XMSS_SIGN. -/
def execXmssSign (job : Nat) (s : State) : Host.Outcome State Fault Refusal :=
  finish (match s.running job 0x24 1 with | none => s | some x => s.signStateful job x)
/-- XMSS_VERIFY. -/
def execXmssVerify (job : Nat) (s : State) : Host.Outcome State Fault Refusal :=
  finish (match s.running job 0x24 2 with | none => s | some x => s.verifyStateful job x)
/-- XMSS_MT_SIGN. -/
def execXmssMtSign (job : Nat) (s : State) : Host.Outcome State Fault Refusal :=
  finish (match s.running job 0x25 1 with | none => s | some x => s.signStateful job x)
/-- XMSS_MT_VERIFY. -/
def execXmssMtVerify (job : Nat) (s : State) : Host.Outcome State Fault Refusal :=
  finish (match s.running job 0x25 2 with | none => s | some x => s.verifyStateful job x)

/-! ## Hybrid and composite -/

/-- The combiner's label (R193). -/
def hybridLabel (p : Nat) : Bytes :=
  [0x41, 0x4B, 0x4E, 0x2D, 0x48, 0x59, 0x42, 0x52, 0x49, 0x44, 0x2D, BitVec.ofNat 8 (0x30 + p)]

/-- The shared secret of the parts: COMB 0 hashes them, COMB 1 joins them (R193). -/
def combine (x : Job) (km ke ctE pkE : Bytes) : Bytes :=
  if fld x.param 2 2 = 1 then km ++ ke else sha3 (km ++ ke ++ ctE ++ pkE ++ hybridLabel x.opParam)

/-- Bytes of a hybrid job's classical public value. -/
def hybridE (p : Nat) : Nat := if p = 1 then 32 else 65

/-- Key type of the classical part of a hybrid key (Table 6.20). -/
def hybridT (p : Nat) : Nat := if p = 1 then 0x69 else 0x61

/-- HYBRID_ENCAPSULATE: ct_M ‖ ct_E ‖ K (R192 to R194). Of the job's randomness, 32 bytes are the ML-KEM m, the rest the
ephemeral scalar. -/
def execHybridEncapsulate (job : Nat) (s : State) : Host.Outcome State Fault Refusal :=
  finish (match s.running job 0x81 1 with
    | none => s
    | some x =>
      let pub := x.pubAt 0
      let n := hybridE x.opParam
      let m := mlkemEncaps (pub.take 1184) (x.rnd.take 32)
      let ctE := agreePub (hybridT x.opParam) (x.rnd.drop 32) n
      let ke := agreeZ (hybridT x.opParam) (x.rnd.drop 32) (pub.drop 1184) 32
      s.endsOk job x (m.take 1088 ++ ctE ++ combine x (m.drop 1088) ke ctE (pub.drop 1184)))

/-- HYBRID_DECAPSULATE (R192 to R194). -/
def execHybridDecapsulate (job : Nat) (s : State) : Host.Outcome State Fault Refusal :=
  finish (match s.running job 0x81 2 with
    | none => s
    | some x =>
      let ctM := x.inp.take 1088
      let ctE := x.inp.drop 1088
      let km := mlkemShared 0x11 (x.mat.take 2464) ctM
      let ke := agreeZ (hybridT x.opParam) (x.mat.drop 2464) ctE 32
      s.endsOk job x (combine x km ke ctE (x.ownPub.drop 1184)))

/-- The classical part of a composite signature of M′: ECDSA on P-256 with SHA-256, its nonce drawn or with DET that of RFC 6979, or
pure Ed25519, which draws nothing (R195, R196). -/
def Job.classicalSign (x : Job) : Bytes :=
  let priv := x.mat.drop 4064
  if x.opParam = 1 then
    ecdsaSign 0x61 priv (hashOf 1 x.compositeMessage) (if bitOf x.param 8 then some 1 else none) (x.rnd.drop 32)
  else edSign 0x67 priv (edIns 0x67 0 [] x.compositeMessage)

/-- The classical part of a composite signature verifies: its values in range, and then the equation (R197, Table 7.8). -/
def Job.classicalOk (x : Job) (pub sig : Bytes) : Bool :=
  if x.opParam = 1 then ecdsaRange 0x61 sig && ecdsaVerify 0x61 pub (hashOf 1 x.compositeMessage) sig
  else edRange 0x67 (edSig 1) sig && edVerify 0x67 pub sig (edIns 0x67 0 [] x.compositeMessage)

/-- COMPOSITE_SIGN: both parts at the same time, CTIME their sum; the spec gives a mean for the ECDSA part's cycles (R195,
R196, R245). -/
def execCompositeSign (job : Nat) (s : State) : Host.Outcome State Fault Refusal :=
  finish (match s.running job 0x82 1 with
    | none => s
    | some x =>
      match attemptsEnd x with
      | none => s
      | some r =>
        let (c, s) := if x.opParam = 1 then s.freeNum else (atOrder x.mask 200000, s)
        let n := max 1 x.fan.length
        match r with
        | none => s.ends job integrityErr 0x0203 (mldsaSpent x n + c) []
        | some a => s.ends job 0 0 (mldsaCycles x n a + c) (mldsaSign 2 x.mldsaIns ++ x.classicalSign))

/-- COMPOSITE_VERIFY: both parts are evaluated (R197). -/
def execCompositeVerify (job : Nat) (s : State) : Host.Outcome State Fault Refusal :=
  finish (match s.running job 0x82 2 with
    | none => s
    | some x =>
      let pub := x.pubAt 3373
      let pk := pub.take 1952
      let sig := x.auxData.take 3309
      let pq := mldsaHintOk 2 sig && mldsaVerify 2 pk (muOf pk (formatted 0 [] x.compositeMessage)) sig
      let cl := x.classicalOk (pub.drop 1952) (slice x.auxData 3309 64)
      s.endsVerify job x.figure
        (if pq && cl then none else some (if cl then 0x0203 else if pq then 0x0204 else 0x0205)))

end Sys2Proof.Machine
end

