-- ==== Sys2Proof/Machine/Classic.lean ====
section
/-! DEFINITION. The carder operations of chapter 7: RSA, agreements, ECDSA, EdDSA and the raw big-number jobs. Check-phase
failures ended the job at compute start (R209); the raw jobs' arithmetic is computed, published algorithms are functions of
their inputs (log 3). -/

namespace Sys2Proof.Machine

/-! ## RSA -/

/-- The RSA public key of a running job. -/
def Job.rsaKey (x : Job) : Bytes := (rsaPub x (x.key.map (·.2)) x.auxData).getD []

/-- m^e mod n of an RSA public key, k bytes. -/
def rsaPublicOp (b m : Bytes) : Bytes := beBytes (rsaBytes b) (powMod (bitsOf (rsaE b)) (ofBe m) (rsaE b) (rsaN b))

/-- The OAEP label of a job. -/
def Job.label (x : Job) : Bytes := if x.opParam = 2 then x.auxData.take (ctxLen x) else []

/-- RSA_ENCRYPT: raw is m^e mod n; a padding takes the job's randomness (R212, Table 7.4). -/
def execRsaEncrypt (job : Nat) (s : State) : Host.Outcome State Fault Refusal :=
  finish (match s.running job 0x18 1 with
    | none => s
    | some x =>
      let b := x.rsaKey
      let m := if x.opParam = 0 then x.inp
        else algoBytes 0x10E40 [leBytes 2 x.opcode, leBytes 1 (phOf x), leBytes 4 (rsaBytes b), x.inp, x.label, x.rnd] (rsaBytes b)
      s.endsOk job x (rsaPublicOp b m))

/-- The padding of an RSA decryption is accepted: never for 0, 1 and n − 1 (Table 7.8). -/
def rsaPaddingOk (x : Job) (n c : Nat) (ins : List Bytes) : Bool := 2 ≤ c && c + 1 ≠ n && Config.accepts x.opcode ins

/-- RSA_DECRYPT: raw is a function of key and c; every padding failure is INPUT 0x0306 at full cycles (R213). -/
def execRsaDecrypt (job : Nat) (s : State) : Host.Outcome State Fault Refusal :=
  finish (match s.running job 0x18 2 with
    | none => s
    | some x =>
      let b := x.rsaKey
      let ins := [x.mat, x.inp, x.label, leBytes 1 (phOf x)]
      if x.opParam = 0 then s.endsOk job x (algoBytes 0x10E41 [x.mat, x.inp] (rsaBytes b))
      else if rsaPaddingOk x (rsaN b) (ofBe x.inp) ins then
        s.endsOk job x (algoBytes x.opcode ins (min (Config.count x.opcode ins) (rsaMax x (rsaBytes b))))
      else s.ends job inputErr 0x0306 x.figure [])

/-- RSA_SIGN: raw signing is the private operation of raw decryption (R212). -/
def execRsaSign (job : Nat) (s : State) : Host.Outcome State Fault Refusal :=
  finish (match s.running job 0x28 1 with
    | none => s
    | some x =>
      let n := rsaBytes x.rsaKey
      let m := if x.opParam = 0 then x.inp
        else algoBytes 0x10E42 [leBytes 2 x.opcode, leBytes 1 (phOf x), leBytes 1 (ctxLen x), leBytes 4 n, x.digest, x.rnd] n
      s.endsOk job x (algoBytes 0x10E41 [x.mat, m] n))

/-- What an RSA verification holds the padding against: the message as it is when raw, or its digest. -/
def Job.rsaMessage (x : Job) : Bytes := if x.opParam = 0 then x.inp else x.digest

/-- RSA_VERIFY: the public operation on the signature, then the padding (R212); a signature of 0 fails (Table 7.8). -/
def execRsaVerify (job : Nat) (s : State) : Host.Outcome State Fault Refusal :=
  finish (match s.running job 0x28 2 with
    | none => s
    | some x =>
      let b := x.rsaKey
      let sig := x.auxData.take (rsaBytes b)
      let m := rsaPublicOp b sig
      s.endsVerify job x.figure
        (if ofBe sig ≠ 0 && Config.accepts x.opcode [leBytes 1 (phOf x), leBytes 1 (ctxLen x), leBytes 4 (rsaBytes b), x.rsaMessage, m] then none
         else some 0x0301))

/-! ## Agreements (Table 7.6) -/

/-- Key type of an agreement. -/
def agreeT (x : Job) : Nat := if x.fam = 0x19 then 0x60 + x.opParam else if x.fam = 0x1A then 0x68 + x.opParam else 0x6B

/-- A stored-key agreement ends with Z. -/
def State.agreeStored (s : State) (j : Nat) (x : Job) (n : Nat) : State := s.endsOk j x (agreeZ (agreeT x) x.mat x.auxData n)

/-- An ephemeral agreement ends with its own public value ‖ Z. -/
def State.agreeEphemeral (s : State) (j : Nat) (x : Job) (own n : Nat) : State :=
  s.endsOk j x (agreePub (agreeT x) x.rnd own ++ agreeZ (agreeT x) x.rnd x.auxData n)

/-- ECDH_STORED. -/
def execEcdhStored (job : Nat) (s : State) : Host.Outcome State Fault Refusal :=
  finish (match s.running job 0x19 1 with | none => s | some x => s.agreeStored job x (fieldLen (0x60 + x.opParam)))
/-- ECDH_EPHEMERAL. -/
def execEcdhEphemeral (job : Nat) (s : State) : Host.Outcome State Fault Refusal :=
  finish (match s.running job 0x19 2 with
    | none => s
    | some x => s.agreeEphemeral job x (1 + 2 * fieldLen (0x60 + x.opParam)) (fieldLen (0x60 + x.opParam)))
/-- X25519_X448_STORED. -/
def execX25519X448Stored (job : Nat) (s : State) : Host.Outcome State Fault Refusal :=
  finish (match s.running job 0x1A 1 with | none => s | some x => s.agreeStored job x (xLen x.opParam))
/-- X25519_X448_EPHEMERAL. -/
def execX25519X448Ephemeral (job : Nat) (s : State) : Host.Outcome State Fault Refusal :=
  finish (match s.running job 0x1A 2 with
    | none => s | some x => s.agreeEphemeral job x (xLen x.opParam) (xLen x.opParam))
/-- FFDHE_STORED. -/
def execFfdheStored (job : Nat) (s : State) : Host.Outcome State Fault Refusal :=
  finish (match s.running job 0x1B 1 with | none => s | some x => s.agreeStored job x (ffdheLen x.opParam))
/-- FFDHE_EPHEMERAL. -/
def execFfdheEphemeral (job : Nat) (s : State) : Host.Outcome State Fault Refusal :=
  finish (match s.running job 0x1B 2 with
    | none => s | some x => s.agreeEphemeral job x (ffdheLen x.opParam) (ffdheLen x.opParam))

/-! ## Signatures on curves -/

/-- ECDSA_SIGN: the spec gives a mean for its cycles, class R (R215, Table 7.7). -/
def execEcdsaSign (job : Nat) (s : State) : Host.Outcome State Fault Refusal :=
  finish (match s.running job 0x29 1 with
    | none => s
    | some x =>
      let (c, s) := s.freeNum
      s.ends job 0 0 c
        (ecdsaSign (0x60 + x.opParam) x.mat x.digest (if bitOf x.param 9 then some (phOf x) else none) x.rnd))

/-- ECDSA_VERIFY (R215, Table 7.8). -/
def execEcdsaVerify (job : Nat) (s : State) : Host.Outcome State Fault Refusal :=
  finish (match s.running job 0x29 2 with
    | none => s
    | some x =>
      let n := 2 * fieldLen (0x60 + x.opParam)
      let pub := if isInline x then x.auxData.drop n else x.ownPub
      s.endsVerify job x.figure
        (if ecdsaVerify (0x60 + x.opParam) pub x.digest (x.auxData.take n) then none else some 0x0301))

/-- EDDSA_SIGN (R215). -/
def execEddsaSign (job : Nat) (s : State) : Host.Outcome State Fault Refusal :=
  finish (match s.running job 0x2A 1 with
    | none => s
    | some x => s.endsOk job x (edSign (0x66 + x.opParam) x.mat (edIns (0x66 + x.opParam) (modeOf x) x.ctx x.inp)))

/-- EDDSA_VERIFY: the cofactored equation (R215). -/
def execEddsaVerify (job : Nat) (s : State) : Host.Outcome State Fault Refusal :=
  finish (match s.running job 0x2A 2 with
    | none => s
    | some x =>
      let n := edSig x.opParam
      let pub := if isInline x then slice x.auxData n (x.auxLen - n - ctxLen x) else x.ownPub
      s.endsVerify job x.figure
        (if edVerify (0x66 + x.opParam) pub (x.auxData.take n) (edIns (0x66 + x.opParam) (modeOf x) x.ctx x.inp) then none
         else some 0x0301))

/-! ## Raw big-number jobs (R217, Tables 7.8 and 7.9) -/

/-- MODEXP: the whole exponent of 64L bits; exponent 0 gives 1. -/
def execModexp (job : Nat) (s : State) : Host.Outcome State Fault Refusal :=
  finish (match s.running job 0x71 1 with
    | none => s
    | some x =>
      s.endsOk job x (leBytes (8 * rawL x) (powMod (64 * rawL x) (rawOp x 1) (rawOp x 2) (rawOp x 0))))

/-- MODMUL. -/
def execModmul (job : Nat) (s : State) : Host.Outcome State Fault Refusal :=
  finish (match s.running job 0x71 2 with
    | none => s
    | some x => s.endsOk job x (leBytes (8 * rawL x) (rawOp x 1 * rawOp x 2 % rawOp x 0)))

/-- MODINV: an operand not coprime to the modulus is INPUT 0x030A at full cycles. -/
def execModinv (job : Nat) (s : State) : Host.Outcome State Fault Refusal :=
  finish (match s.running job 0x71 3 with
    | none => s
    | some x =>
      match invMod (64 * rawL x) (rawOp x 1) (rawOp x 0) with
      | some v => s.endsOk job x (leBytes (8 * rawL x) v)
      | none => s.ends job inputErr 0x030A x.figure [])

/-- The bytes of a raw result point: over a composite p, coordinates below p and a tag of 0 or 1, their values free; the x and y
of the point at infinity are free (R217). -/
def State.rawPoint (s : State) (L p : Nat) (P : Pt) : Bytes × State :=
  if knownComposite (64 * L) p then
    let (u, s) := s.freeNum
    let (v, s) := s.freeNum
    let (t, s) := s.freeBit
    (leBytes (8 * L) (u % p) ++ leBytes (8 * L) (v % p) ++ leBytes 8 (b2n t), s)
  else
    match P with
    | none =>
      let (g, s) := s.freeBytes (16 * L)
      (rawPtBytes L g none, s)
    | some q => (rawPtBytes L [] (some q), s)

/-- ECADD: over a composite p the output's values are free (R217). -/
def execEcadd (job : Nat) (s : State) : Host.Outcome State Fault Refusal :=
  finish (match s.running job 0x71 4 with
    | none => s
    | some x =>
      let L := rawL x
      let (b, s) := s.rawPoint L (rawOp x 0)
        (ptAdd (64 * L) (rawOp x 0) (rawOp x 1) (rawPtVal (rawPt x (24 * L))) (rawPtVal (rawPt x (40 * L + 8))))
      s.endsOk job x b)

/-- ECMUL: the whole scalar of 64L bits; a multiple of the point's order gives infinity. -/
def execEcmul (job : Nat) (s : State) : Host.Outcome State Fault Refusal :=
  finish (match s.running job 0x71 5 with
    | none => s
    | some x =>
      let L := rawL x
      let (b, s) := s.rawPoint L (rawOp x 0)
        (ptMul (64 * L) (rawOp x 0) (rawOp x 1) (64 * L) (leAt x.inp (40 * L + 8) (8 * L)) (rawPtVal (rawPt x (24 * L))))
      s.endsOk job x b)

end Sys2Proof.Machine
end

