-- ==== Sys2Proof/Machine/CrixaVector.lean ====
section
/-! DEFINITION. The vector extension of the G cores (R369 to R374). -/

namespace Sys2Proof.Machine

/-! ## Elements -/

/-- Bytes of an element of width EW. -/
def eBytes (ew : Nat) : Nat := 2 ^ ew
/-- Elements of width EW in a wide register. -/
def eCount (ew : Nat) : Nat := 128 / 2 ^ ew
/-- The elements of a wide register's value. -/
def elems (ew : Nat) (v : BitVec 1024) : List Nat :=
  (List.range (eCount ew)).map (fun i => v.toNat / 2 ^ (8 * eBytes ew * i) % 2 ^ (8 * eBytes ew))
/-- The value of a list of elements, each reduced to its width. -/
def unElems (ew : Nat) (l : List Nat) : BitVec 1024 :=
  BitVec.ofNat 1024 ((l.zipIdx.map (fun e => e.1 % 2 ^ (8 * eBytes ew) * 2 ^ (8 * eBytes ew * e.2))).sum)
/-- An element as a signed number. -/
def eSigned (ew v : Nat) : Int := if 2 ^ (8 * eBytes ew - 1) ≤ v then (v : Int) - 2 ^ (8 * eBytes ew) else v

/-- A wide register. -/
def CRegs.w (r : CRegs) (n : Nat) : Wide := r.wide.getD n {}
/-- Write a wide register. -/
def CRegs.setW (r : CRegs) (n : Nat) (x : Wide) : CRegs := { r with wide := r.wide.put {} n x }
/-- A predicate; q0 reads all ones. -/
def CRegs.q (r : CRegs) (n : Nat) : Pred := if n = 0 then { val := BitVec.allOnes 128 } else r.pred.getD n {}
/-- Write a predicate; q0 ignores writes. -/
def CRegs.setQ (r : CRegs) (n : Nat) (x : Pred) : CRegs := if n = 0 then r else { r with pred := r.pred.put {} n x }

/-- The active count A of an instruction of width EW (R369, R373). -/
def CRegs.activeCount (r : CRegs) (ew : Nat) : Nat := min r.sc (eCount ew)
/-- Element `i` is active and selected by the predicate (R370). -/
def CRegs.active (r : CRegs) (op : VOp) (i : Nat) : Bool :=
  decide (i < r.activeCount op.ew.toNat) && (r.q op.q.toNat).val.getLsbD i
/-- The selected active elements, lowest first. -/
def CRegs.actives (r : CRegs) (op : VOp) : List Nat := (List.range (eCount op.ew.toNat)).filter (r.active op)

/-- A wide register with new elements where `sel` holds; SEC when the sources are, or when SEC elements are kept (R370,
log 65). -/
def CRegs.putElems (r : CRegs) (wd ew : Nat) (sel : Nat → Bool) (new : Nat → Nat) (sec : Bool) : CRegs :=
  let old := r.w wd
  let n := eCount ew
  let kept := (List.range n).any (fun i => !sel i)
  r.setW wd {
    val := unElems ew ((elems ew old.val).zipIdx.map (fun e => if sel e.2 then new e.2 else e.1))
    sec := sec || (old.sec && kept) }

/-- The instruction word of a V-format instruction. -/
def encV (op : Nat) (v : VOp) (func : Nat) : Nat :=
  op * 2 ^ 26 + v.wd.toNat * 2 ^ 21 + v.wa.toNat * 2 ^ 16 + v.wb.toNat * 2 ^ 11 + v.q.toNat * 256 + v.ew.toNat * 64 + func

/-- A vector instruction: ILLEGAL on core T and for a form it does not accept; while the unit is gated it starts or awaits the wake and issues after it (R355,
R374); with SC = 0 it does nothing (R369). -/
def State.vinstr (s : State) (core op : Nat) (v : VOp) (func : Nat) (bad : Bool) (f : State → CRegs → CStep) : State :=
  s.instr core (fun s r =>
    if core = 4 || bad then .trap 0x01 (encV op v func)
    else
      let c := s.core core
      if c.gated || c.waking || c.downing then .wait (s.setCore core { c with waking := true, wakeFor := c.ctx })
      else
        let s := s.setCore core { c with vecAt := s.now }
        if r.sc = 0 then .ok s r.next 1 none else f s r)

/-- Cycles of an ALU operation: 512 bits a cycle (R373). -/
def vCycles (r : CRegs) (ew : Nat) : Nat := max 1 (ceilDiv (r.activeCount ew * eBytes ew * 8) 512)

/-! ## Arithmetic (R373, Table 13.8) -/

/-- An element-wise operation of two wide registers. -/
def State.vbin (s : State) (core : Nat) (v : VOp) (func : Nat) (g : Nat → Nat → Nat → Nat) : State :=
  s.vinstr core 0x24 v func false (fun s r =>
    let ew := v.ew.toNat
    let a := r.w v.wa.toNat
    let b := r.w v.wb.toNat
    let sec := a.sec || b.sec || (r.q v.q.toNat).sec
    let ea := elems ew a.val
    let eb := elems ew b.val
    .ok s (r.putElems v.wd.toNat ew (r.active v) (fun i => g (2 ^ (8 * eBytes ew)) (ea.getD i 0) (eb.getD i 0)) sec).next
      (vCycles r ew) none)

/-- VADD. -/
def execVadd (core : Nat) (op : VOp) (s : State) : Host.Outcome State Fault Refusal :=
  finish (s.vbin core op 1 (fun m a b => (a + b) % m))
/-- VSUB. -/
def execVsub (core : Nat) (op : VOp) (s : State) : Host.Outcome State Fault Refusal :=
  finish (s.vbin core op 2 (fun m a b => (m + a - b) % m))
/-- VAND. -/
def execVand (core : Nat) (op : VOp) (s : State) : Host.Outcome State Fault Refusal :=
  finish (s.vbin core op 3 (fun _ a b => a &&& b))
/-- VOR. -/
def execVor (core : Nat) (op : VOp) (s : State) : Host.Outcome State Fault Refusal :=
  finish (s.vbin core op 4 (fun _ a b => a ||| b))
/-- VXOR. -/
def execVxor (core : Nat) (op : VOp) (s : State) : Host.Outcome State Fault Refusal :=
  finish (s.vbin core op 5 (fun _ a b => a ^^^ b))
/-- VMUL: the low half of the product. -/
def execVmul (core : Nat) (op : VOp) (s : State) : Host.Outcome State Fault Refusal :=
  finish (s.vbin core op 6 (fun m a b => a * b % m))

/-- The source elements of a widening or dot-product instruction: 0 where the predicate bit is 0 or beyond the active range. -/
def CRegs.source (r : CRegs) (v : VOp) (w : Nat) : Nat → Nat :=
  let e := elems v.ew.toNat (r.w w).val
  fun i => if r.active v i then e.getD i 0 else 0

/-- The number of an element of a width, signed or not, modulo 2^64 or more: products and sums are taken on integers. -/
def eInt (signed : Bool) (ew v : Nat) : Int := if signed then eSigned ew v else (v : Int)

/-- An integer reduced to `bits` bits. -/
def intMod (x : Int) (bits : Nat) : Nat := (x % (2 ^ bits : Int)).toNat

/-- VWMUL: products of width 2 × EW into the pair wd, wd + 1: the first ⌊A ÷ 2⌋ in wd, the others in wd + 1 (R373, log 67). -/
def State.vwmul (s : State) (core : Nat) (v : VOp) (func : Nat) (signed : Bool) : State :=
  s.vinstr core 0x24 v func (v.ew = 3 || v.wd.toNat % 2 = 1) (fun s r =>
    let ew := v.ew.toNat
      let a := r.source v v.wa.toNat
      let b := r.source v v.wb.toNat
      let sec := (r.w v.wa.toNat).sec || (r.w v.wb.toNat).sec || (r.q v.q.toNat).sec
      let n := r.activeCount ew
      let half := n / 2
      let prod (i : Nat) : Nat := intMod (eInt signed ew (a i) * eInt signed ew (b i)) (16 * eBytes ew)
      let r1 := r.putElems v.wd.toNat (ew + 1) (fun i => decide (i < half)) prod sec
      let r2 := r1.putElems (v.wd.toNat + 1) (ew + 1) (fun i => decide (i < n - half)) (fun i => prod (half + i)) sec
      .ok s r2.next (vCycles r ew) none)

/-- VWMUL.U. -/
def execVwmulU (core : Nat) (op : VOp) (s : State) : Host.Outcome State Fault Refusal := finish (s.vwmul core op 7 false)
/-- VWMUL.S. -/
def execVwmulS (core : Nat) (op : VOp) (s : State) : Host.Outcome State Fault Refusal := finish (s.vwmul core op 8 true)

/-- The sum of `n` products of source elements from `i`. -/
def dotSum (a b : Nat → Nat) (signed : Bool) (ew i n : Nat) : Int :=
  ((List.range n).map (fun j => eInt signed ew (a (i + j)) * eInt signed ew (b (i + j)))).sum

/-- VDOT4: e32 lanes of wd accumulate four e8 products each (R373). -/
def State.vdot4 (s : State) (core : Nat) (v : VOp) (func : Nat) (signed : Bool) : State :=
  s.vinstr core 0x24 v func (v.ew ≠ 0) (fun s r =>
      let a := r.source v v.wa.toNat
      let b := r.source v v.wb.toNat
      let old := elems 2 (r.w v.wd.toNat).val
      let sec := (r.w v.wa.toNat).sec || (r.w v.wb.toNat).sec || (r.q v.q.toNat).sec || (r.w v.wd.toNat).sec
      let n := ceilDiv (r.activeCount 0) 4
      .ok s (r.putElems v.wd.toNat 2 (fun i => decide (i < n))
        (fun i => intMod ((old.getD i 0 : Int) + dotSum a b signed 0 (4 * i) 4) 32) sec).next (vCycles r 0) none)

/-- VDOT4.U. -/
def execVdot4U (core : Nat) (op : VOp) (s : State) : Host.Outcome State Fault Refusal := finish (s.vdot4 core op 9 false)
/-- VDOT4.S. -/
def execVdot4S (core : Nat) (op : VOp) (s : State) : Host.Outcome State Fault Refusal := finish (s.vdot4 core op 10 true)

/-- VDOT2: e64 lanes of the pair wd, wd + 1 accumulate two e16 products each (R373). -/
def State.vdot2 (s : State) (core : Nat) (v : VOp) (func : Nat) (signed : Bool) : State :=
  s.vinstr core 0x24 v func (v.ew ≠ 1 || v.wd.toNat % 2 = 1) (fun s r =>
      let a := r.source v v.wa.toNat
      let b := r.source v v.wb.toNat
      let sec := (r.w v.wa.toNat).sec || (r.w v.wb.toNat).sec || (r.q v.q.toNat).sec
      let n := ceilDiv (r.activeCount 1) 2
      let lane (w base : Nat) (r : CRegs) : CRegs :=
        let old := elems 3 (r.w w).val
        if n ≤ base then r
        else r.putElems w 3 (fun i => decide (base + i < n))
          (fun i => intMod ((old.getD i 0 : Int) + dotSum a b signed 1 (2 * (base + i)) 2) 64) (sec || (r.w w).sec)
      .ok s (lane (v.wd.toNat + 1) 16 (lane v.wd.toNat 0 r)).next (vCycles r 1) none)

/-- VDOT2.U. -/
def execVdot2U (core : Nat) (op : VOp) (s : State) : Host.Outcome State Fault Refusal := finish (s.vdot2 core op 11 false)
/-- VDOT2.S. -/
def execVdot2S (core : Nat) (op : VOp) (s : State) : Host.Outcome State Fault Refusal := finish (s.vdot2 core op 12 true)

/-- A comparison into the predicate wd[2:0]. -/
def State.vcmp (s : State) (core : Nat) (v : VOp) (func : Nat) (g : Nat → Nat → Bool) : State :=
  s.vinstr core 0x25 v func false (fun s r =>
    let ew := v.ew.toNat
    let d := v.wd.toNat % 8
    let a := r.w v.wa.toNat
    let b := r.w v.wb.toNat
    let ea := elems ew a.val
    let eb := elems ew b.val
    let old := r.q d
    let bit (i : Nat) : Bool := if r.active v i then g (ea.getD i 0) (eb.getD i 0) else old.val.getLsbD i
    let kept := (List.range 128).any (fun i => !r.active v i)
    let val := BitVec.ofNat 128 (((List.range 128).map (fun i => b2n (bit i) * 2 ^ i)).sum)
    .ok s (r.setQ d { val := val, sec := a.sec || b.sec || (r.q v.q.toNat).sec || (old.sec && kept) }).next (vCycles r ew) none)

/-- VCMPEQ. -/
def execVcmpeq (core : Nat) (op : VOp) (s : State) : Host.Outcome State Fault Refusal :=
  finish (s.vcmp core op 0x10 (fun a b => a == b))
/-- VCMPLTU. -/
def execVcmpltu (core : Nat) (op : VOp) (s : State) : Host.Outcome State Fault Refusal :=
  finish (s.vcmp core op 0x11 (fun a b => decide (a < b)))

/-- VFILL: the scalar ra, an INT, to every active element. -/
def execVfill (core : Nat) (op : VOp) (s : State) : Host.Outcome State Fault Refusal :=
  finish (s.vinstr core 0x25 op 0x20 false (fun s r => cRun do
    let a ← r.operand op.wa.toNat 1 isInt
    pure (.ok s (r.putElems op.wd.toNat op.ew.toNat (r.active op) (fun _ => a.val.toNat) (r.q op.q.toNat).sec).next
      (vCycles r op.ew.toNat) none)))

/-- VEXT: element 0 to the scalar rd, when it is active. -/
def execVext (core : Nat) (op : VOp) (s : State) : Host.Outcome State Fault Refusal :=
  finish (s.vinstr core 0x25 op 0x21 false (fun s r =>
    let a := r.w op.wa.toNat
    let v := BitVec.ofNat 64 ((elems op.ew.toNat a.val).getD 0 0)
    let r1 := if r.active op 0 then r.set op.wd.toNat (dataWord v (a.sec || (r.q op.q.toNat).sec)) else r
    .ok s r1.next 1 none))

/-- VSUM: the sum of the active elements to the scalar rd, modulo 2^64. -/
def execVsum (core : Nat) (op : VOp) (s : State) : Host.Outcome State Fault Refusal :=
  finish (s.vinstr core 0x25 op 0x22 false (fun s r =>
    let a := r.w op.wa.toNat
    let e := elems op.ew.toNat a.val
    let v := BitVec.ofNat 64 (((r.actives op).map (fun i => e.getD i 0)).sum)
    .ok s (r.set op.wd.toNat (dataWord v (a.sec || (r.q op.q.toNat).sec))).next (vCycles r op.ew.toNat) none))

/-! ## Memory (R370 to R372) -/

/-- Length of a VDESC. -/
def vdLen (w : CWord) : Nat := fld w.val.toNat 40 24
/-- Base address of a VDESC. -/
def vdBase (w : CWord) : Nat := fld w.val.toNat 0 40

/-- What an active element meets: its word and address, misalignment, or an element fault (R372). A store into part of a word
of another tag faults as a load of it does (log 65). -/
def State.element (s : State) (core : Nat) (d : CWord) (off ew : Nat) (load : Bool) : Except Bool (CWhere × Nat) :=
  let a := vdBase d + off
  if a % eBytes ew ≠ 0 then .error true
  else if vdLen d < off + eBytes ew then .error false
  else
    match (s.core core).reach core a with
    | none => .error false
    | some w => if isData (s.cword w).tag || (!load && ew = 3) then .ok (w, a) else .error false

/-- The base, the offsets of the elements and the SEC of the addresses: unit stride from INT rb, or indices from wb. -/
def CRegs.vaddr (r : CRegs) (v : VOp) (indexed : Bool) : Except (Nat × Nat) (CWord × (Nat → Nat)) := do
  let d ← r.operand v.wa.toNat 1 (fun t => t = .vdesc)
  if indexed then
    let x := r.w v.wb.toNat
    if x.sec then .error (0x03, 2)
    else
      let e := elems v.ew.toNat x.val
      pure (d, fun i => e.getD i 0 * eBytes v.ew.toNat)
  else
    let b ← r.operand v.wb.toNat 2 isInt
    pure (d, fun i => b.val.toNat + i * eBytes v.ew.toNat)

/-- Cycles of a vector access: a gather takes one per element; the others are free (R373, log 66). -/
def State.vmemCycles (s : State) (r : CRegs) (v : VOp) (indexed : Bool) : Nat :=
  if indexed then max 1 (r.activeCount v.ew.toNat) else 1 + Config.freeNat s.free

/-- A vector load: every active element, or with `partial_` those below the lowest fault when that is not the lowest active
element (R371, R372). -/
def State.vload (s : State) (core func : Nat) (v : VOp) (indexed partial_ : Bool) : State :=
  s.vinstr core (if indexed then 0x22 else 0x21) v func false (fun s r => cRun do
    let ew := v.ew.toNat
    let (d, off) ← r.vaddr v indexed
    let acts := r.actives v
    let look (i : Nat) : Except Bool (CWhere × Nat) := s.element core d (off i) ew true
    let cyc := s.vmemCycles r v indexed
    let s : State := { s with free := s.free + 1 }
    match acts.find? (fun i => match look i with | .error true => true | _ => false) with
    | some i => .error (0x07, vdBase d + off i)
    | none =>
      let load (good : List Nat) : CRegs :=
        let word (i : Nat) : CWord := match look i with | .ok (w, _) => s.cword w | .error _ => {}
        let val (i : Nat) : Nat :=
          fld (word i).val.toNat (8 * ((vdBase d + off i) % 8)) (8 * eBytes ew)
        let sec := (r.q v.q.toNat).sec || good.any (fun i => (word i).tag = .sec)
        if good = [] then r else r.putElems v.wd.toNat ew (fun i => good.contains i) val sec
      match acts.find? (fun i => match look i with | .error _ => true | _ => false) with
      | none => pure (.ok s (load acts).next cyc none)
      | some j =>
        if partial_ && acts.head? ≠ some j then
          pure (.ok s { load (acts.filter (fun i => decide (i < j))) with sc := j }.next cyc none)
        else .error (0x0D, j))

/-- A vector store: every active element is checked before any is written; SEC when its source is (R370, R371). -/
def State.vstore (s : State) (core func : Nat) (v : VOp) (indexed : Bool) : State :=
  s.vinstr core (if indexed then 0x22 else 0x21) v func false (fun s r => cRun do
    let ew := v.ew.toNat
    let (d, off) ← r.vaddr v indexed
    let acts := r.actives v
    let src := r.w v.wd.toNat
    let sec := src.sec || (r.q v.q.toNat).sec
    let e := elems ew src.val
    let look (i : Nat) : Except Bool (CWhere × Nat) := s.element core d (off i) ew false
    let cyc := s.vmemCycles r v indexed
    let s : State := { s with free := s.free + 1 }
    match acts.find? (fun i => match look i with | .error true => true | _ => false),
        acts.find? (fun i => match look i with | .error _ => true | _ => false) with
    | some i, _ => .error (0x07, vdBase d + off i)
    | none, some j => .error (0x0D, j)
    | none, none =>
      let t := acts.foldl (fun t i =>
        match look i with
        | .ok (w, a) => t.setCword w
            { tag := if sec then .sec else .int, val := putWbytes (t.cword w).val (a % 8) (leBytes (eBytes ew) (e.getD i 0)) }
        | .error _ => t) s
      pure (.ok t r.next cyc none))

/-- VLD. -/
def execVld (core : Nat) (op : VOp) (s : State) : Host.Outcome State Fault Refusal := finish (s.vload core 0 op false false)
/-- VLDP. -/
def execVldp (core : Nat) (op : VOp) (s : State) : Host.Outcome State Fault Refusal := finish (s.vload core 1 op false true)
/-- VST. -/
def execVst (core : Nat) (op : VOp) (s : State) : Host.Outcome State Fault Refusal := finish (s.vstore core 2 op false)
/-- VLDX. -/
def execVldx (core : Nat) (op : VOp) (s : State) : Host.Outcome State Fault Refusal := finish (s.vload core 0 op true false)
/-- VLDXP. -/
def execVldxp (core : Nat) (op : VOp) (s : State) : Host.Outcome State Fault Refusal := finish (s.vload core 1 op true true)
/-- VSTX. -/
def execVstx (core : Nat) (op : VOp) (s : State) : Host.Outcome State Fault Refusal := finish (s.vstore core 2 op true)

/-! ## Power gating (R374) -/

/-- VECTOR_POWER_DOWN: the unit powers down after 50 µs without a vector instruction while VPG.EN = 1; with `begins` the power-down
starts, and the next VECTOR_POWER_DOWN completes it. -/
def execVectorPowerDown (core : Nat) (s : State) (begins : Bool := false) : Host.Outcome State Fault Refusal :=
  finish (let c := s.core core
    if !s.awake || 4 ≤ core then s
    else if c.downing then s.setCore core { c with downing := false, gated := true }
    else if c.vpgEn && !c.gated && !c.waking && decide (c.vecAt + 50 ≤ s.now) then
      s.setCore core (if begins then { c with downing := true } else { c with gated := true })
    else s)

/-- VECTOR_WAKE: the wake completes after 1,500 cycles, and the waiting instruction can issue. One that came during a power-down has
waited for what was left of it, up to 800 cycles: a free number (log 66). -/
def execVectorWake (core : Nat) (s : State) : Host.Outcome State Fault Refusal :=
  finish (let c := s.core core
    if s.awake && decide (core < 4) && c.waking then
      let (n, s) := if c.downing then s.freeNum else (0, s)
      let s := s.setCore core { s.core core with
        gated := false, downing := false, waking := false, wakeFor := none, vecAt := s.now }
      let s : State := { s with crx := { s.crx with cntVwake := satInc s.crx.cntVwake } }
      match c.wakeFor with
      | some k => if c.ctx = some k then s.setCtx k { s.ctx k with cycles := (s.ctx k).cycles + 1500 + n % 801 } else s
      | none => s
    else s)

end Sys2Proof.Machine
end

