-- ==== Sys2Proof/Machine/Entropy.lean ====
section
/-! DEFINITION. The entropy island (chapter 14): health tests and whitening, source failures and restorations, conditioner and
reservoir, the DRBG instances and their buffers, host RNG jobs, RAW_READ. The samples of the sources are the operands of
NOISE_SAMPLE; every random value is a function of them (log 3). -/

namespace Sys2Proof.Machine

/-! ## Sources (R387 to R389) -/

/-- RCT cutoffs of Table 14.1. -/
def rctCut (n : Nat) : Nat := [35, 61, 33].getD n 0
/-- APT cutoffs of Table 14.1. -/
def aptCut (n : Nat) : Nat := [648, 815, 629].getD n 0
/-- Credit of a raw sample in 1/100 bit. -/
def sampleCredit (n : Nat) : Nat := [90, 50, 95].getD n 0
/-- Usable units a source needs, and those it has at the most. -/
def unitsMin (n : Nat) : Nat := [24, 48, 0].getD n 0
/-- The units of a source. -/
def unitsMax (n : Nat) : Nat := [32, 64, 1].getD n 0

/-- Which tests fail at a sample. -/
structure Failures where
  /-- repetition count -/
  rct : Bool
  /-- adaptive proportion -/
  apt : Bool
  /-- units: too few, or comparator toggle -/
  unit : Bool
deriving DecidableEq, Repr

/-- Some test fails. -/
def Failures.any (f : Failures) : Bool := f.rct || f.apt || f.unit

/-- The alive and lock tests of an oscillator pair over a window of 4,096 island cycles, from its two edge counts: dead below
1,024, locked after 16 consecutive windows whose counts differ by at most 1; a pair that was left out rejoins after 16 passing
windows (R388, log 143). -/
def NoiseUnit.window (u : NoiseUnit) (edges : Edges) : NoiseUnit :=
  let run := if edges.a ≤ edges.b + 1 && edges.b ≤ edges.a + 1 then u.run + 1 else 0
  let bad := decide (edges.a < 1024) || decide (edges.b < 1024) || decide (16 ≤ run)
  let good := if bad then 0 else u.good + 1
  { u with run := run, good := good, out := bad || (u.out && decide (good < 16)) }

/-- The stuck-latch test of a latch at a release: stuck at 1,024 releases with one value; a latch that was left out rejoins after
1,024 releases showing both values (R388). -/
def NoiseUnit.release (u : NoiseUnit) (bit : Bool) : NoiseUnit :=
  let run := if u.last = some bit then u.run + 1 else 1
  let bad := decide (1024 ≤ run)
  let good := if bad then 0 else u.good + 1
  let both := !bad && (u.both || u.last = some !bit)
  { u with last := some bit, run := run, good := good, both := both, out := bad || (u.out && !(decide (1024 ≤ good) && both)) }

/-- The unit tests of a source after a sample: a latch is tested at each release, a pair when a window of edge counts ends. -/
def Src.unitTests (x : Src) (n : Nat) (outs : List Bool) (edges : List Edges) : List NoiseUnit :=
  (List.range (if n < 2 then unitsMax n else 0)).map (fun i =>
    let u := x.tests.getD i {}
    if n = 1 then u.release (outs.getD i false)
    else match edges[i]? with
      | some e => u.window e
      | none => u)

/-- The raw sample of a source: the XOR of the outputs of its usable units (R387, R388). -/
def Src.rawBit (x : Src) (outs : List Bool) : Bool :=
  (outs.zipIdx.map (fun e => e.1 && !(x.tests.getD e.2 {}).out)).foldl xor false

/-- A raw sample goes through every test and the shift register (R388, R389): the outputs of the source's units, and the edge counts
of its pairs where a window ends. -/
def Src.sample (x : Src) (n : Nat) (outs : List Bool) (edges : List Edges) : Failures × Src :=
  let bit := x.rawBit outs
  let tests := x.unitTests n outs edges
  let usable := if n = 2 then 1 else tests.countP (fun u => !u.out)
  let run := if x.last = some bit then x.run + 1 else 1
  let first := if x.aptPos = 0 then bit else x.aptFirst
  let count := (if x.aptPos = 0 then 0 else x.aptCount) + b2n (bit = first)
  let turn : Bool := match x.last with | some b => b != bit | none => false
  let toggles := (if x.togPos = 0 then 0 else x.toggles) + b2n turn
  let f : Failures := {
    rct := run = rctCut n
    apt := bit = first && count = aptCut n
    unit := usable < unitsMin n || (n = 2 && x.togPos = 1023 && toggles < 64) }
  let lost := tests.zipIdx.countP (fun e => e.1.out && !(x.tests.getD e.2 {}).out) + b2n (n = 2 && f.unit)
  let fb := b2n (x.sr.getLsbD 63) + b2n (x.sr.getLsbD 62) + b2n (x.sr.getLsbD 60) + b2n (x.sr.getLsbD 59) + b2n bit
  (f, { x with
    last := some bit, run := run, aptPos := (x.aptPos + 1) % 1024, aptFirst := first, aptCount := count
    togPos := (x.togPos + 1) % 1024, toggles := toggles, units := usable, tests := tests
    sr := x.sr <<< 1 ||| BitVec.ofNat 64 (fb % 2)
    rctFails := satAdd x.rctFails (b2n f.rct), aptFails := satAdd x.aptFails (b2n f.apt)
    unitFails := satAdd x.unitFails lost })

/-- Healthy sources. -/
def State.healthy (s : State) : Nat := (List.range 3).countP (fun n => (s.src n).state = 1)

/-- An event of the island: its bit of RNG_EVT, and the manager's vector 0 (R405). -/
def State.rngEvent (s : State) (bit : Nat) : State :=
  ({ s with rng := { s.rng with evt := setBit s.rng.evt bit true } } : State).signal 0 0

/-- Reservoir and accumulation are wiped (R391). -/
def State.wipeReservoir (s : State) : State := { s with rng := { s.rng with res := [], acc := [] } }

/-- Every seeded instance is marked for a forced reseed (R398, R400). -/
def State.forceReseeds (s : State) : State :=
  { s with rng := { s.rng with insts := s.rng.insts.each (fun _ i => { i with forced := i.seeded }) } }

/-- The state that follows from the number of healthy sources: output stops below two, and no creel takes a new masked job until a
reseed of its generator (R25, R396, R399). -/
def State.rngSettle (s : State) : State :=
  if !s.rngRuns then s
  else if s.healthy < 2 then
    ({ s with
      rng := { s.rng with state := 3, bufs := [] }
      creels := (List.range 44).foldl (fun t k => t.insert k { s.creels.getD k {} with maskHeld := true }) s.creels
      glb := { s.glb with unseeded := true } } : State).rngEvent 8
  else { s with rng := { s.rng with state := if s.healthy = 3 then 1 else 2 } }

/-- Output resumes once every instance has reseeded from two healthy sources (R396, R400). -/
def State.rngResume (s : State) : State :=
  if s.rng.state = 3 && decide (2 ≤ s.healthy) && (List.range 6).all (fun i => !(s.inst i).forced) then
    ({ s with
      rng := { s.rng with state := if s.healthy = 3 then 1 else 2 }
      glb := { s.glb with unseeded := false } } : State).rngEvent 9
  else s

/-- The recovery timer of a failed source starts again (R400). -/
def State.armRecovery (s : State) (n : Nat) : State :=
  let s := s.setSrc n { s.src n with okSince := s.now }
  (s.dlRemove 1 (.sourceRestore n [])).dlInsert 1 (s.now + 1000000) (.sourceRestore n [])

/-- A healthy source leaves: the reservoir is wiped, reseeds are forced or output stops (R391, R398, R399). -/
def State.sourceLeaves (s : State) (n state : Nat) : State :=
  let was := (s.src n).state
  let s := s.setSrc n { s.src n with state := state, startPass := 0, white := [] }
  if was = 1 then
    let s := s.wipeReservoir
    (if s.rngRuns || s.rng.state = 3 then s.forceReseeds else s).rngSettle
  else s

/-- A source fails: FAILED and its event (R388, R397, R398). -/
def State.sourceFails (s : State) (n : Nat) : State := ((s.sourceLeaves n 2).rngEvent n).armRecovery n

/-- A test of a source has failed at a sample (R388, R397, R400, R403). -/
def State.testFailed (s : State) (n : Nat) : State :=
  let x := s.src n
  if s.rng.state = 4 then s
  else if x.state = 1 then s.sourceFails n
  else if x.state = 2 then s.armRecovery n
  else if x.state = 0 then
    if x.startFails + 1 < 3 then s.setSrc n { x with startPass := 0, white := [], startFails := x.startFails + 1 }
    else (s.setSrc n { x with startFails := 3 }).sourceFails n
  else s

/-! ## RAW_READ's bits (R404) -/

/-- SOURCE and POINT of a RAW_READ. -/
def rawSel (x : Job) : Nat × Nat := (fld x.param 0 2, fld x.param 2 2)

/-- A RAW_READ in progress takes a bit, one byte for each, newest first. -/
def takeRawBits (x : Job) (bits : Bytes) : Job :=
  if x.result.length < 8 * (x.outCap - 16) then { x with result := bits ++ x.result } else x

/-- The bits of a byte, one a byte, newest first, as a RAW_READ in progress holds them. -/
def bitBytes (b : Byte) : Bytes := ((List.range 8).reverse).map (fun i => BitVec.ofNat 8 (b2n (b.getLsbD i)))

/-- A RAW_READ of the conditioner's output is in progress (R404). -/
def readsBlocks (x : Job) : Bool := x.opcode = 0xF206 && x.stage = .firmware && x.phase = 2 && (rawSel x).2 = 2

/-- In RAW the reads of the conditioner's output draw from the reservoir, each the bytes that it still lacks (R391, R404). -/
def State.rawDraw (s : State) : State :=
  if s.rng.state ≠ 4 then s
  else
    s.each (s.jobsWhere readsBlocks) (fun s j =>
      match s.job? j with
      | none => s
      | some x =>
        let n := x.outCap - 16 - x.result.length / 8
        let b := ((s.rng.res.take n).reverse.map bitBytes).flatten
        ({ s with rng := { s.rng with res := s.rng.res.drop n } } : State).modJob j (fun x => { x with result := b ++ x.result }))

/-- Every RAW_READ in progress of a source takes what its point shows; failures are counted in its header. -/
def State.rawSample (s : State) (n : Nat) (bit white : Bool) (f : Failures) : State :=
  { s with jobs := s.jobs.each (fun _ x =>
      if x.opcode = 0xF206 && x.stage = .firmware && x.phase = 2 && (rawSel x).1 = n then
        let b : Bool := if (rawSel x).2 = 1 then white else bit
        let x := if (rawSel x).2 = 2 then x else takeRawBits x [BitVec.ofNat 8 (b2n b)]
        { x with note := min (x.note % 65536 + b2n f.rct) 65535 + 65536 * min (x.note / 65536 + b2n f.apt) 65535 }
      else x) }

/-- NOISE_SAMPLE: the tests, the shift register and the credit of one raw sample (R387 to R391, R397). -/
def execNoiseSample (src : Nat) (outs : List Bool) (edges : List Edges) (s : State) :
    Host.Outcome State Fault Refusal :=
  finish (if !s.live || 3 ≤ src then s
    else
      let white := (s.src src).sr.getLsbD 63
      let bit := (s.src src).rawBit outs
      let (f, x) := (s.src src).sample src outs edges
      let s := (s.setSrc src x).rawSample src bit white f
      if f.any && s.rng.state ≠ 4 then s.testFailed src
      else
        let s := if x.state = 0 && decide (x.startPass < 1024) then
            s.setSrc src { x with startPass := x.startPass + 1, white := white :: x.white }
          else s
        if x.state = 1 || (s.rng.state = 4 && x.state ≠ 3) then
          { s with rng := { s.rng with acc := s.rng.acc ++ [(src, white)] } }
        else s)

/-- SOURCE_STARTUP_PASS: a source joins after 1,024 passing samples, which are credited (R397). -/
def execSourceStartupPass (src : Nat) (s : State) : Host.Outcome State Fault Refusal :=
  finish (let x := s.src src
    if !s.live || 3 ≤ src || s.rng.state = 4 || x.state ≠ 0 || x.startPass < 1024 then s
    else
      let s := s.setSrc src { x with state := 1, white := [] }
      let s := { s with rng := { s.rng with acc := s.rng.acc ++ x.white.reverse.map (fun b => (src, b)) } }
      s.rngSettle)

/-- The sources whose samples of this microsecond, which wait behind the command, fail a test. -/
def State.failingNow (s : State) : List Nat :=
  s.pending.filterMap (fun c =>
    match c with
    | .noiseSample n outs edges => if n < 3 && ((s.src n).sample n outs edges).1.any then some n else none
    | _ => none)

/-- SOURCE_RESTORE: a failed source has passed every test for 1 s; the sources that fail in the same tick are taken first, those
whose failing samples wait in the queue among them (R400, log 152). -/
def execSourceRestore (src : Nat) (s : State) (failing : List Nat := []) : Host.Outcome State Fault Refusal :=
  finish (let s := if s.live then s.each ((failing ++ s.failingNow).filter (fun n => decide (n < 3))) State.testFailed else s
    let x := s.src src
    if !s.live || 3 ≤ src || s.rng.state = 4 || x.state ≠ 2 || s.now < x.okSince + 1000000 then s
    else
      let s := (s.dlRemove 1 (.sourceRestore src [])).setSrc src { x with state := 1 }
      ((s.rngEvent (4 + src)).forceReseeds).rngSettle)

/-- RNG_CFG write (R11, R405, Table 14.9): disabling takes effect at once; clearing starts the recovery count; a write after
GLB_LOCK is set is ignored. -/
def State.rngCfgWrite (s : State) (value : W32) : State :=
  if !s.barsOpen || s.glb.lock then s
  else
    let old := s.rng.cfg.toNat % 8
    let new := value.toNat % 8
    if 2 ≤ popCount 3 new then s
    else
      let s : State := { s with rng := { s.rng with cfg := BitVec.ofNat 32 new } }
      s.each (List.range 3) (fun s n =>
        if bitOf new n && !bitOf old n then s.sourceLeaves n 3
        else if !bitOf new n && bitOf old n then (s.setSrc n { s.src n with state := 2 }).armRecovery n
        else s)

/-- The row RngCfgWrite. -/
def execRngCfgWrite (value : W32) (s : State) : Host.Outcome State Fault Refusal := finish (s.rngCfgWrite value)

/-! ## Conditioner, instances, buffers -/

/-- The personalization string of an instance: 58 bytes, RNG_PERS0 to 3 the last of them (R393). -/
def State.persBytes (s : State) (i : Nat) : Bytes :=
  ascii "AKN9528/DRBG/" ++ [BitVec.ofNat 8 i] ++ leBytes 4 s.glb.boots.toNat ++ leBytes 8 s.glb.ptcBoot.toNat ++
    ((List.range 4).map (fun k => leBytes 8 (s.rng.pers.getD k 0).toNat)).flatten

/-- An instance has been seeded now: both counts restart, and its reseed timer (R394). -/
def State.seedInst (s : State) (i : Nat) (state : Bytes) : State :=
  let s := s.setInst i { seeded := true, seededAt := s.now, state := state }
  (s.dlRemove 1 (.drbgReseedRequest i)).dlInsert 1 (s.now + 500000) (.drbgReseedRequest i)

/-- Bytes leave the reservoir (R391). -/
def State.takeRes (s : State) (n : Nat) : Bytes × State :=
  (s.rng.res.take n, { s with rng := { s.rng with res := s.rng.res.drop n } })

/-- Instances are instantiated in code order while the reservoir holds 384 bits, 256 of entropy input and 128 of nonce; a full
reservoir then ends STARTUP (R393, R397). -/
def State.instantiate (s : State) : Nat → State
  | 0 => s
  | fuel + 1 =>
    if s.rng.state ≠ 0 || s.healthy < 2 then s
    else if s.rng.instantiated < 6 then
      if s.rng.resBits < 384 then s
      else
        let i := s.rng.instantiated
        let (e, s) := s.takeRes 32
        let (n, s) := s.takeRes 16
        let s : State := { s with rng := { s.rng with instantiated := i + 1 } }
        (s.seedInst i (drbgInstantiate e n (s.persBytes i))).instantiate fuel
    else if s.rng.resBits < 768 then s
    else
      { s with
        rng := { s.rng with state := if s.healthy = 3 then 1 else 2 }
        glb := { s.glb with seededThisBoot := true } }

/-- The accumulated bits that a block takes, one a byte: those up to the bit whose credit, in 1/100 bit, makes the sum reach `need`;
and the accumulation that begins after them. None while the credit falls short (R390). -/
def blockOf : Nat → List (Nat × Bool) → Option (Bytes × List (Nat × Bool))
  | _, [] => none
  | need, (n, b) :: rest =>
    let v : Byte := BitVec.ofNat 8 (b2n b)
    if need ≤ sampleCredit n then some ([v], rest)
    else (blockOf (need - sampleCredit n) rest).map (fun r => (v :: r.1, r.2))

/-- A conditioned block: KMAC256 of the accumulated bits under the key in ROM, with the customization string (R390, log 3). -/
def conditioned (bits : Bytes) : Bytes := algoBytes 0x10F64 [Config.conditionKey, bits, ascii "AKN9528/CONDITION"] 32

/-- CONDITIONED_BLOCK: 256 bits for 320 credited, into the reservoir (R390, R391, R397). In RAW the reservoir serves no consumer but a
RAW_READ of the conditioner's output (R403, R404). -/
def execConditionedBlock (s : State) : Host.Outcome State Fault Refusal :=
  finish (if !s.live then s
    else
      match blockOf 32000 s.rng.acc with
      | none => s
      | some (bits, rest) =>
        let s : State := { s with rng := { s.rng with acc := rest, res := (s.rng.res ++ conditioned bits).take 96 } }
        (s.rawDraw).instantiate 7)

/-- DRBG_RESEED_REQUEST: 2^19 requests or 0.5 s since the last seeding (R394). -/
def execDrbgReseedRequest (inst : Nat) (s : State) : Host.Outcome State Fault Refusal :=
  finish (let x := s.inst inst
    if s.live && inst < 6 && x.seeded && (decide (2 ^ 19 ≤ x.reqs) || decide (x.seededAt + 500000 ≤ s.now)) then
      s.setInst inst { x with asked := true }
    else s)

/-- A reseed of an instance from 256 bits of the reservoir, with 32 bytes of heddle counters, which of them the spec does not say
(log 152), and the request's own additional input (R394); one that was forced makes the mask generators of the instance's frame due
(R395). -/
def State.reseed (s : State) (i : Nat) (add : Bytes) : State :=
  let forced := (s.inst i).forced
  let (e, s) := s.takeRes 32
  let (h, s) := s.freeBytes 32
  let s : State := { s with rng := { s.rng with cntReseed := satInc s.rng.cntReseed } }
  let s := s.seedInst i (drbgReseed (s.inst i).state e (h ++ add))
  if forced && i < 4 then
    s.each (List.range 11) (fun s c => s.setCreel i c { s.creel i c with maskForced := (s.creel i c).maskSeeded })
  else s

/-- An instance waits for a reseed. -/
def State.wantsReseed (s : State) (i : Nat) : Bool := (s.inst i).asked || (s.inst i).forced

/-- An instance may be reseeded: the reservoir holds 256 bits from two healthy sources, and no lower-coded instance waits (R394, R398,
R400). -/
def State.mayReseed (s : State) (i : Nat) : Bool :=
  decide (2 ≤ s.healthy) && decide (256 ≤ s.rng.resBits) && !(List.range i).any s.wantsReseed

/-- DRBG_RESEED: a waiting reseed is carried out (R394, R398, R400). -/
def execDrbgReseed (inst : Nat) (s : State) : Host.Outcome State Fault Refusal :=
  finish (if !s.live || 6 ≤ inst || s.rng.state = 4 || !s.wantsReseed inst || !s.mayReseed inst then s
    else (s.reseed inst []).rngResume.wakeT)

/-- FRAME_BUFFER_REFILL: a generate request of 4 KiB into a buffer of 16 KiB (R395). -/
def execFrameBufferRefill (frame : Nat) (s : State) : Host.Outcome State Fault Refusal :=
  finish (if s.live && frame < 4 && s.serves frame && decide ((s.frameBuf frame).length + 4096 ≤ 16384) then
      let (b, s) := s.generate frame 4096 []
      { s with rng := { s.rng with bufs := s.rng.bufs.put [] frame (s.frameBuf frame ++ b) } }
    else s)

/-- MASK_GENERATOR_RESEED: 256 bits from the frame buffer, every 10 ms of PTC_BOOT, after a forced reseed of the frame's
instance, and at first (R395). -/
def execMaskGeneratorReseed (frame creel : Nat) (s : State) : Host.Outcome State Fault Refusal :=
  finish (let c := s.creel frame creel
    if s.live && frame < 4 && creel < 11 && s.rngRuns && decide (32 ≤ (s.frameBuf frame).length) &&
      (!c.maskSeeded || c.maskForced || c.maskHeld || decide (c.maskAt + 10000 ≤ s.now)) then
      let (seed, s) := s.takeFrame frame 32
      s.setCreel frame creel { c with maskSeed := seed, maskForced := false, maskHeld := false, maskAt := s.now }
    else s)

/-! ## Host RNG jobs (R401, R402) -/

/-- RNG jobs run in the order S3 admitted them. -/
def State.rngTurn (s : State) (j : Nat) (x : Job) : Bool :=
  s.jobs.all (fun e => e.1 = j || e.2.opClass ≠ 6 || e.2.stage.buffered || e.2.stage = .ended ||
    (match e.2.admitted, x.admitted with
     | some a, some b => decide (b ≤ a)
     | _, _ => true))

/-- The requests of a GENERATE, at most 65,536 bytes each, by their sizes: with PR = 1 each is preceded by a reseed; the additional
input accompanies each. Answers the bytes, how many requests are still due, and the state: a request that cannot be served
waits. -/
def State.generateAll (s : State) (pr : Bool) (add : Bytes) : List Nat → Bytes × Nat × State
  | [] => ([], 0, s)
  | n :: ns =>
    if !s.rngRuns || (if pr then !s.mayReseed 5 else !s.serves 5) then ([], ns.length + 1, s)
    else
      let (b, s) := (if pr then s.reseed 5 [] else s).generate 5 n add
      let r := s.generateAll pr add ns
      (b ++ r.1, r.2)

/-- The sizes of the requests of a GENERATE. -/
def requestSizes (cap : Nat) : List Nat := (List.range (ceilDiv cap 65536)).map (fun i => min 65536 (cap - 65536 * i))

/-- An RNG job that waits for the island ends at its deadline (R399, Table 14.12). -/
def State.rngLate (s : State) (j : Nat) (x : Job) : State :=
  if s.lateNow x then
    let (c, s) := s.freeNum
    s.ends j rngErr 0x0A01 c []
  else s

/-- GENERATE: OUT_CAP bytes of instance H (R401, R402). The spec gives no figure for its island cycles. -/
def execGenerate (job : Nat) (s : State) : Host.Outcome State Fault Refusal :=
  finish (match s.running job 0x61 1 with
    | none => s
    | some x =>
      if !s.rngTurn job x then s.rngLate job x
      else
        let sizes := requestSizes x.outCap
        let (b, due, s) := s.generateAll (bitOf x.param 0) x.auxData (sizes.drop x.phase)
        let b := (if x.phase = 0 then [] else x.result) ++ b
        if due ≠ 0 then (s.modJob job (fun x => { x with phase := sizes.length - due, result := b })).rngLate job x
        else
          let (c, s) := s.freeNum
          s.ends job 0 0 c b)

/-- RESEED: instance H, with the job's additional input (R402). -/
def execReseed (job : Nat) (s : State) : Host.Outcome State Fault Refusal :=
  finish (match s.running job 0x61 2 with
    | none => s
    | some x =>
      if !s.rngTurn job x || !s.rngRuns || !s.mayReseed 5 then s.rngLate job x
      else
        let (c, s) := (s.reseed 5 x.auxData).freeNum
        s.ends job 0 0 c [])

/-! ## RAW_READ -/

/-- Eight bits, one a byte and the lowest first, as one byte. -/
def packBits : Nat → Bytes → Bytes
  | 0, _ => []
  | n + 1, b => (b.take 8).foldr (fun v (a : Byte) => a <<< 1 ||| (v &&& 1)) 0 :: packBits n (b.drop 8)

/-- RAW_READ: the checks, then the bits of the samples that follow, and the header of Table 14.6 (R404). -/
def execRawRead (job : Nat) (s : State) : Host.Outcome State Fault Refusal :=
  finish (match s.cmdJob job 0xF206 with
    | none => s
    | some x =>
      let (sel, point) := rawSel x
      let bits := 8 * (x.outCap - 16)
      if x.phase = 0 then
        if 16 ≤ x.param then s.doneErr job inputErr 4
        else if sel = 3 || point = 3 then s.doneErr job inputErr 0x0A02
        else if x.outCap < 17 || 1048592 < x.outCap then s.doneErr job inputErr 0x0A01
        else ((s.waitPhase job 2).modJob job (fun x => { x with result := [], note := 0 })).rawDraw
      else if x.result.length < bits then s
      else
        let data := packBits (x.outCap - 16) (x.result.reverse.take bits)
        s.done job ([BitVec.ofNat 8 sel, BitVec.ofNat 8 point] ++ zeros 2 ++ leBytes 4 bits ++
          leBytes 2 (x.note % 65536) ++ leBytes 2 (x.note / 65536) ++ zeros 4 ++ data))

end Sys2Proof.Machine
end

