-- ==== Sys2Proof/Machine/Images.lean ====
section
/-! DEFINITION. IMAGE_LOAD: firmware, vendor microcode, customer routine and applet images, their checks and their effect
(R40, R112, R266 to R272, R376). -/

namespace Sys2Proof.Machine

/-! ## Static checks of customer words (R271 item 5, R276, Table 9.10) -/

/-- A nano-word issues MOP END. -/
def nanoIsEnd (w : Nat) : Bool := fld w 90 6 = 0x3F

/-- A nano-word holds only codes of Table 9.5, no reserved bit and no invalid GM (R263). -/
def nanoCodesOk (w : Nat) : Bool :=
  decide (fld w 176 8 ≤ 0x0A) && (fld w 176 8 ≠ 0x0A || decide (2 ≤ fld w 173 3)) && decide (fld w 136 6 ≤ 4)
    && decide (fld w 126 6 ≤ 4) && decide (fld w 120 6 ≤ 4) && (fld w 120 6 = 0 || decide (fld w 116 4 ≤ 2))
    && decide (fld w 110 6 ≤ 4) && decide (fld w 104 6 ≤ 0x0A) && (decide (fld w 90 6 ≤ 4) || nanoIsEnd w)
    && fld w 89 1 = 0 && fld w 64 20 = 0

/-- The IMM values a gate entry accepts (Table 9.10); HASH_FINAL admits those of SHAKE256 (log 61). -/
def gateImmOk (addr imm : Nat) : Bool :=
  match addr with
  | 3520 => decide (1 ≤ imm) && decide (imm ≤ 4)
  | 3521 => decide (1 ≤ imm) && decide (imm ≤ 256)
  | 3522 => decide (imm ≤ 15)
  | 3523 => imm = 0
  | 3524 => imm = 0
  | 3525 => decide (1 ≤ imm) && decide (imm ≤ 1023)
  | 3526 => decide (1 ≤ imm) && decide (imm ≤ 256)
  | 3527 => decide (1 ≤ imm) && decide (imm ≤ 1023)
  | _ => false

/-- IMM values of a word that issues END (R276). -/
def endImmOk (imm : Nat) : Bool := decide (imm ≤ 1) || (decide (0x200 ≤ imm) && decide (imm ≤ 0x2FF))

/-- The static checks of one micro-word at an address (R271 item 5). -/
def microWordOk (nanos : List (BitVec 192)) (addr : Nat) (word : BitVec 40) : Bool :=
  let w := word.toNat
  let cond := fld w 32 4
  let next := fld w 20 12
  let nano := fld w 10 10
  let imm := fld w 0 10
  let ends := decide (896 ≤ nano) && nanoIsEnd ((nanos[nano - 896]?).getD 0).toNat
  let inside (a : Nat) : Bool := decide (3584 ≤ a) && decide (a ≤ 4095)
  microParity word && (nano = 0 || decide (896 ≤ nano)) && !(cond = 0xE && addr = 4095)
    && (if ends then next = 0 && endImmOk imm
        else if cond = 0xE then inside next || gateImmOk next imm
        else if cond = 0xF then next = 0
        else inside next && (cond = 0 || inside (next ||| 1)))

/-- A word of one OPS bit. -/
def oneBit (n : Nat) : Bool := (List.range 10).any (fun i => n = 2 ^ i)

/-- An entry record keeps Table 9.7. -/
def rtnEntryOk (b : Bytes) : Bool :=
  let flags := leAt b 2 1
  let key := bitOf flags 1
  decide (3584 ≤ leAt b 0 2) && decide (leAt b 0 2 ≤ 4095) && decide (flags < 4)
    && (if key then ((decide (1 ≤ leAt b 3 1) && decide (leAt b 3 1 ≤ 6)) || leAt b 3 1 = 8) && oneBit (leAt b 4 2)
        else leAt b 3 1 = 0 && leAt b 4 2 = 0)
    && leAt b 6 2 = 0 && decide (leAt b 0x0C 2 ≤ 8192) && decide (leAt b 0x0E 2 ≤ 8192) && decide (1 ≤ leAt b 0x10 4)
    && (slice b 0x16 10).all (· = 0)

/-- An entry record as the sequencer uses it. -/
def rtnEntryOf (b : Bytes) : RtnEntry :=
  { addr := leAt b 0 2, foot8 := bitOf (leAt b 2 1) 0, key := bitOf (leAt b 2 1) 1, ktype := leAt b 3 1
    ops := BitVec.ofNat 16 (leAt b 4 2), inMax := leAt b 8 4, auxMax := leAt b 0x0C 2, outMax := leAt b 0x0E 2
    base := leAt b 0x10 4, slope := leAt b 0x14 2 }

/-! ## Customer routine images (R268 to R272) -/

/-- Layout of a routine image: where MICRO, NANO, IKEY and SIG stand (Table 9.6). -/
def rtnNanoAt (b : Bytes) : Nat := 0x240 + 8 * leAt b 0x10 2
/-- Offset of IKEY. -/
def rtnKeyAt (b : Bytes) : Nat := rtnNanoAt b + 24 * leAt b 0x12 2

/-- Item 1 of R271: length, MAGIC, FORMAT, reserved bytes and counts. -/
def rtnLayoutOk (b : Bytes) : Bool :=
  leAt b 0 4 = 0x52434B41 && leAt b 4 2 = 1 && decide (leAt b 6 2 < 2) && leAt b 8 4 ≠ 0
    && decide (1 ≤ leAt b 0x0C 1) && decide (leAt b 0x0C 1 ≤ 16) && leAt b 0x0D 3 = 0
    && decide (1 ≤ leAt b 0x10 2) && decide (leAt b 0x10 2 ≤ 512) && decide (leAt b 0x12 2 ≤ 128)
    && (slice b 0x18 8).all (· = 0) && b.length = rtnKeyAt b + 1952 + 3309
    && (List.range (leAt b 0x10 2)).all (fun i => leAt b (0x240 + 8 * i + 5) 3 = 0)

/-- The micro-words of a routine image. -/
def rtnMicro (b : Bytes) : List (BitVec 40) :=
  (List.range (leAt b 0x10 2)).map (fun i => BitVec.ofNat 40 (leAt b (0x240 + 8 * i) 5))

/-- The nano-words of a routine image. -/
def rtnNano (b : Bytes) : List (BitVec 192) :=
  (List.range (leAt b 0x12 2)).map (fun i => BitVec.ofNat 192 (leAt b (rtnNanoAt b + 24 * i) 24))

/-- Item 5 of R271: every word and every entry record; the first ENTRIES records are those in use (DESIGN CHOICE, log 153). -/
def rtnStaticOk (b : Bytes) : Bool :=
  let nano := rtnNano b
  (rtnMicro b).zipIdx.all (fun e => microWordOk nano (3584 + e.2) e.1)
    && nano.all (fun w => nanoParity w && nanoCodesOk w.toNat)
    && (List.range 16).all (fun i =>
      let r := slice b (0x40 + 32 * i) 32
      if i < leAt b 0x0C 1 then rtnEntryOk r else r.all (· = 0))

/-- The image as the stores hold it. -/
def rtnImage (b : Bytes) : RtnImg :=
  { cver := leAt b 8 4, entries := (List.range (leAt b 0x0C 1)).map (fun i => rtnEntryOf (slice b (0x40 + 32 * i) 32))
    micro := rtnMicro b, nano := rtnNano b }

/-- The registered integrator key digest (R270). -/
def State.ikeyDigest (s : State) : Option Bytes :=
  if s.otp.ikey0.kind = 1 then some s.otp.ikey0.data else if s.otp.ikey1.kind = 1 then some s.otp.ikey1.data else none

/-- Both integrator key slots are spoiled. -/
def State.ikeysSpoiled (s : State) : Bool := s.otp.ikey0.kind = 2 && s.otp.ikey1.kind = 2

/-- IKEY of an image is its IKEY_ID's, is the registered one, and has signed every byte before SIG (R270, R271 item 2). A first
image that registers its key needs no registered one. -/
def State.signedByIntegrator (s : State) (ctx : Bytes) (b : Bytes) (idAt keyAt : Nat) (registers : Bool) : Bool :=
  let id := slice b idAt 32
  let key := slice b keyAt 1952
  !s.ikeysSpoiled && sha3 key = id
    && (match s.ikeyDigest with | some d => d = id | none => registers)
    && verifies ctx key (b.take (keyAt + 1952)) (slice b (keyAt + 1952) 3309)

/-- What refuses a customer routine image, in the order of R271. -/
def State.rtnErr (s : State) (b : Bytes) : Option (Nat × Nat) :=
  let registers := bitOf (leAt b 6 2) 0
  if !rtnLayoutOk b then some (integrityErr, 0x0101)
  else if !s.signedByIntegrator (ascii "AKN-ROUTINE") b 0x20 (rtnKeyAt b) registers then some (integrityErr, 0x0101)
  else if leAt b 8 4 < s.mcs.cver.toNat then some (integrityErr, 0x0102)
  else if s.mcs.ver.toNat < leAt b 0x14 4 then some (integrityErr, 0x0101)
  else if !rtnStaticOk b then some (integrityErr, 0x0101)
  else if !s.lcs.access.getLsbD 8 then some (conflictErr, 0x0104)
  else if s.ikeyDigest.isNone && registers && !s.lcs.access.getLsbD 11 then some (conflictErr, 0x0104)
  else none

/-- Registration of the integrator key by the procedure of R49: slot 0, or slot 1 when slot 0 is spoiled. `spoils` says which
slots read back wrong while they are programmed. -/
def State.registerKey (s : State) (id : Bytes) (spoils : BitVec 2) : State :=
  let prog (bad : Bool) : OtpSlot := { data := id, valid := if bad then 0xFF else 0xA5 }
  let s : State := if s.otp.ikey0.kind = 0 then
    { s with otp := { s.otp with ikey0 := prog (spoils.getLsbD 0) } } else s
  if s.otp.ikey0.kind ≠ 1 && s.otp.ikey1.kind = 0 then
    { s with otp := { s.otp with ikey1 := prog (spoils.getLsbD 1) } } else s

/-- The stores are written and read back: creels whose readback fails are held and counted (R272). -/
def State.storesWritten (s : State) (failed : List Nat) : State :=
  let held := (List.range 44).filter (fun k => failed.contains k)
  let s : State := { s with mcs := { s.mcs with loadHeld := held.length, loading := false } }
  s.each held (fun s k => { s with creels := s.creels.put {} k { s.creels.getD k {} with heldLoad := true } })

/-! ## Firmware and vendor images (types 1 to 3): their layouts are not in the spec (log 62) -/

/-- The version an image of a type carries. -/
def imageVersion (type : Nat) (b : Bytes) : W32 := BitVec.ofNat 32 (Config.count (0x10F30 + type) [b])

/-- Bytes of the routine image in force that a vendor image's gate entries must serve. -/
def rtnBytes (g : RtnImg) : Bytes := (g.micro.map (fun w => leBytes 5 w.toNat)).flatten

/-- What refuses an image of type 1 to 3: authentication, version, and for vendor microcode the gate entries the customer image
calls (R267) and the life-cycle permission. -/
def State.firmwareErr (s : State) (type : Nat) (b : Bytes) : Option (Nat × Nat) :=
  let running := if type = 1 then s.mcs.sfw else if type = 2 then s.mcs.tfw else s.mcs.ver
  if !Config.accepts (0x10F20 + type) [b] then some (integrityErr, 0x0101)
  else if (imageVersion type b).toNat < running.toNat then some (integrityErr, 0x0102)
  else if type = 3 && (match s.mcs.cust with | some g => !Config.accepts 0x10F24 [b, rtnBytes g] | none => false) then
    some (integrityErr, 0x0101)
  else if !s.lcs.access.getLsbD 7 then some (conflictErr, 0x0104)
  else none

/-! ## Applet images (R376) -/

/-- One applet record. -/
def appletRec (b : Bytes) : AppletRec :=
  { start := leAt b 0 4, entries := leAt b 4 2, forerunner := bitOf (leAt b 6 2) 0, tlim := leAt b 8 4 }

/-- A record keeps Table 13.11; of an absent applet only the reserved bits count. -/
def appletRecOk (b : Bytes) : Bool :=
  decide (leAt b 6 2 < 2) && leAt b 12 4 = 0 &&
    (leAt b 4 2 = 0 || (decide (leAt b 4 2 ≤ 256) && decide (1 ≤ leAt b 8 4) && decide (leAt b 8 4 ≤ 10000000)))

/-- Layout of an applet image (Table 13.11). -/
def appletLayoutOk (b : Bytes) : Bool :=
  leAt b 0 4 = 0x50414B41 && leAt b 4 2 = 1 && leAt b 6 2 = 0 && leAt b 8 4 ≠ 0 && leAt b 0x0C 4 % 4 = 0
    && b.length = 0x130 + leAt b 0x0C 4 + 1952 + 3309
    && (List.range 16).all (fun a => appletRecOk (slice b (0x30 + 16 * a) 16))

/-- The applet image as a context runs it. -/
def appletImage (b : Bytes) : AppletImg :=
  { aver := leAt b 8 4, recs := (List.range 16).map (fun a => appletRec (slice b (0x30 + 16 * a) 16))
    code := slice b 0x130 (leAt b 0x0C 4) }

/-- What refuses an applet image. -/
def State.appletErr (s : State) (b : Bytes) : Option (Nat × Nat) :=
  if s.ikeyDigest.isNone then some (integrityErr, 0x0101)
  else if !appletLayoutOk b then some (integrityErr, 0x0101)
  else if !s.signedByIntegrator (ascii "AKN-APPLET") b 0x10 (0x130 + leAt b 0x0C 4) false then some (integrityErr, 0x0101)
  else if (match s.crx.img with | some g => decide (leAt b 8 4 < g.aver) | none => false) then some (integrityErr, 0x0102)
  else if 1 < ((appletImage b).recs.filter (·.forerunner)).length then some (integrityErr, 0x0101)
  else if !s.lcs.access.getLsbD 8 then some (conflictErr, 0x0104)
  else none

/-! ## IMAGE_LOAD -/

/-- The size limits of Table 4.8. -/
def imageLimit : Nat → Option Nat
  | 1 => some 8388608
  | 2 => some 262144
  | 3 => some 1048576
  | 4 => some 65536
  | 5 => some 4194304
  | _ => none

/-- The device returns from UPDATE to SERVICE (R40). -/
def State.endUpdate (s : State) : State := { s with glb := { s.glb with update := false } }

/-- An authenticated image takes effect (Table 4.8, R267, R270, R272). -/
def State.installImage (s : State) (type : Nat) (b : Bytes) (failed : List Nat) (spoils : BitVec 2) : State :=
  match type with
  | 1 => { s with mcs := { s.mcs with sfw := imageVersion 1 b, mSfw := sha3 b } }
  | 2 => { s with mcs := { s.mcs with tfwNext := some (imageVersion 2 b) } }
  | 3 =>
    let v := imageVersion 3 b
    ({ s with mcs := { s.mcs with ver := v, hbmVendor := some v, mMcs := sha3 b } } : State).storesWritten failed
  | _ =>
    let g := rtnImage b
    let s : State := { s with mcs := { s.mcs with
      cust := some g, hbmCust := some g, cver := BitVec.ofNat 32 g.cver, mMcsc := sha3 b } }
    let s := if s.ikeyDigest.isNone then s.registerKey (slice b 0x20 32) spoils else s
    s.storesWritten failed

/-- IMAGE_LOAD (R112): applet images at once; the others through DRAIN (phase 1) and UPDATE, where the image is authenticated
(phase 2) and the stores are written (phase 3). -/
def execImageLoad (job : Nat) (failedReadback : List Nat) (spoils : BitVec 2) (s : State) (hwChange : Bool := false) :
    Host.Outcome State Fault Refusal :=
  finish (match s.cmdJob job 0xF301 with
    | none => s
    | some x =>
      let type := fld x.param 0 4
      let b := x.block
      match imageLimit type with
      | none => s.doneErr job inputErr 0x010B
      | some limit =>
        if limit < x.inLen then s.doneErr job inputErr 0x010C
        else if type = 5 then
          match s.appletErr b with
          | some e => s.doneErr job e.1 e.2
          | none =>
            ({ s with
                crx := { s.crx with img := some (appletImage b) }
                mcs := { s.mcs with mApplet := sha3 b } } : State).done job []
        else if x.phase = 0 then s.unlessHw job hwChange x (s.startDrain job .update)
        else if x.phase = 2 then
          match (if type = 4 then s.rtnErr b else s.firmwareErr type b) with
          | some e => s.endUpdate.doneErr job e.1 e.2
          | none => ({ s with mcs := { s.mcs with loading := decide (3 ≤ type) } } : State).waitPhase job 3
        else if x.phase = 3 then
          let t := s.installImage type b failedReadback spoils
          if type = 4 && t.ikeyDigest.isNone then
            ({ s with otp := t.otp, mcs := { s.mcs with loading := false } } : State).endUpdate.doneErr job integrityErr 0x0101
          else t.endUpdate.done job []
        else s)

end Sys2Proof.Machine
end

