-- ==== Sys2Proof/Machine/Micro.lean ====
section
/-! DEFINITION. Customer routines: micro-words and nano-words of a spindle, the secrecy rules, the end and the faults of a
routine, input pieces, and the gate entries (chapter 9, R257 to R279). -/

namespace Sys2Proof.Machine

/-! ## Local memory and the secrecy rules (Table 9.8, R275) -/

/-- Bytes of local memory; an address beyond bank 7 wraps (log 60). -/
def Micro.read (m : Micro) (a n : Nat) : Bytes := (List.range n).map (fun i => m.mem.getD ((a + i) % 65536) 0)

/-- The 256-byte regions that `n` bytes at `a` lie in. -/
def microRegions (a n : Nat) : List Nat :=
  if n = 0 then [] else (List.range ((a + n - 1) / 256 + 1 - a / 256)).map (fun i => (a / 256 + i) % 256)

/-- A byte of the span lies in one of the regions from `lo` to `hi`. -/
def microTouches (lo hi a n : Nat) : Bool := (microRegions a n).any (fun r => decide (lo ≤ r) && decide (r ≤ hi))

/-- The span holds a SECRET region. -/
def Micro.secret (m : Micro) (a n : Nat) : Bool := (microRegions a n).any (fun r => m.sec.getD r false)

/-- Set or clear the SECRET bits of a span. -/
def Micro.mark (m : Micro) (a n : Nat) (b : Bool) : Micro :=
  { m with sec := (microRegions a n).foldl (fun t r => t.put false r b) m.sec }

/-- Write bytes; banks 0 and 1 are read only (Table 9.8, log 60). -/
def Micro.write (m : Micro) (a : Nat) (b : Bytes) : Micro :=
  { m with mem := b.zipIdx.foldl (fun t e =>
      let p := (a + e.2) % 65536
      if p < 0x4000 then t else t.put 0 p e.1) m.mem }

/-- Clear the SECRET bits of a span, but those of banks 0 and 1, which no write reaches. -/
def Micro.unmark (m : Micro) (a n : Nat) : Micro :=
  { m with sec := ((microRegions a n).filter (64 ≤ ·)).foldl (fun t r => t.put false r false) m.sec }

/-- A result of an operation stored with the SECRET bit R275 gives it, region by region: set by a SECRET operand at order 1 or 2,
cleared by an operation with PUB = 1, kept otherwise. -/
def Micro.storeResult (m : Micro) (order : Nat) (pub secretIn : Bool) (a : Nat) (b : Bytes) : Micro :=
  let m := m.write a b
  if secretIn && !pub && decide (0 < order) then m.mark a b.length true
  else if pub then m.unmark a b.length
  else m

/-- The fault of an operation's accesses: bank 7 without FOOT8, then a SECRET region read with PUB = 1 (R275, Table 9.8). -/
def Micro.accessFault (m : Micro) (foot8 pub : Bool) (reads writes : List (Nat × Nat)) : Option Nat :=
  if !foot8 && (reads ++ writes).any (fun p => microTouches 0xE0 0xFF p.1 p.2) then some 0x0505
  else if pub && reads.any (fun p => m.secret p.1 p.2) then some 0x0502
  else none

/-! ## Nano-words (R262, R263) -/

/-- Carry-less product of two 64-bit numbers (GOP 0x04; GM 2). -/
def clmul (a b : Nat) : Nat := (List.range 64).foldl (fun r i => if bitOf b i then r ^^^ (a * 2 ^ i) else r) 0

/-- Free bytes from position `k` of the word's draw. -/
def freeAt (k n : Nat) : Bytes := (List.range n).map (fun i => Config.freeByte (k + i))

/-- What a nano-word acts under: the job's masking order, FOOT8, the micro-word's IMM and the position of its free values. -/
structure NanoEnv where
  order : Nat
  foot8 : Bool
  imm : Nat
  free : Nat
deriving DecidableEq, Repr

/-- An address register named by a field of the nano-word. -/
def Micro.arAt (m : Micro) (w lo : Nat) : Nat := (m.ar.getD (fld w lo 4) 0).toNat % 65536

/-- The modulus that QSEL names: the two fixed ones, or a loadable one, which must be odd (Tables 8.1, 9.4). -/
def Micro.modulus (m : Micro) (sel : Nat) : Option Nat :=
  if sel = 0 then some 3329 else if sel = 1 then some 8380417
  else if m.q.getD sel 0 % 2 = 1 then some (m.q.getD sel 0) else none

/-- The 24-bit values of the 16 lanes at an address (log 60). -/
def Micro.lanes (m : Micro) (a : Nat) : List Nat := (List.range 16).map (fun i => ofLe (m.read (a + 8 * i) 3))

/-- A lane's result modulo q; none where the tables do not give it: butterflies, whose twiddle factor no field names, and
decompression, whose width none does. Compression is FIPS 203's (log 60). -/
def laneResult (op q lit a b : Nat) : Option Nat :=
  match op with
  | 0x03 => some (a * b % q)
  | 0x04 => some ((a + b) % q)
  | 0x05 => some ((a + (q - b % q)) % q)
  | 0x06 => some (a % q)
  | 0x07 => let d := fld lit 0 5; some ((2 * 2 ^ d * (a % q) + q) / (2 * q) % 2 ^ d)
  | _ => none

/-- Distance of a lane's value from 0 modulo q. -/
def laneNorm (q a : Nat) : Nat := min (a % q) (q - a % q)

/-- The butterfly lanes: 8 bytes per lane at ARA, ARB and ARD, the value in the lower 24 bits. A result that the tables do not give
is free; so is a norm check that meets the bound exactly. `o` is the state at the start of the word. -/
def nanoLanes (w : Nat) (e : NanoEnv) (o m : Micro) : Except Nat Micro :=
  let op := fld w 176 8
  let pub := bitOf w 88
  let a := (o.arAt w 153, 128)
  let b := (o.arAt w 149, 128)
  let d := o.arAt w 145
  let on (i : Nat) : Bool := bitOf (fld w 157 16) i
  if op = 0 then .ok m
  else if op = 0x0A then .ok { m with q := m.q.put 0 (fld w 173 3) (fld w 0 24) }
  else
    let reads := if op ≤ 5 then [a, b] else [a]
    match o.accessFault e.foot8 pub reads (if op = 9 then [] else [(d, 128)]) with
    | some f => .error f
    | none =>
      let q := o.modulus (fld w 173 3)
      if op = 9 then
        let norms := ((o.lanes a.1).zipIdx.filter (fun p => on p.2)).map (fun p => laneNorm (q.getD 0) p.1)
        let v := if q.isNone || (norms.all (fun n => decide (n ≤ fld w 0 24)) && norms.contains (fld w 0 24)) then
            Config.freeBool e.free
          else norms.all (fun n => decide (n < fld w 0 24))
        .ok (if bitOf w 85 then { m with acc := { v := v, t := false } } else m)
      else
        let vals := ((o.lanes a.1).zip (o.lanes b.1)).zipIdx.map (fun p =>
          match q.bind (fun q => laneResult op q (fld w 0 64) p.1.1 p.1.2) with
          | some r => leBytes 8 r
          | none => freeAt (e.free + 8 * p.2) 8)
        let res := vals.zipIdx.flatMap (fun p => if on p.2 then p.1 else o.read (d + 8 * p.2) 8)
        let zero := vals.zipIdx.all (fun p => !on p.2 || p.1.all (· == 0))
        let m := m.storeResult e.order pub (reads.any (fun p => o.secret p.1 p.2)) d res
        .ok (if bitOf w 87 && pub then { m with lz := { v := zero, t := false } } else m)

/-- The address registers named by ARA, ARB and ARD move on by their stride registers where INC says so (Table 9.4). -/
def nanoStep (w : Nat) (o m : Micro) : Micro :=
  let step (m : Micro) (bit lo : Nat) : Micro :=
    let r := fld w lo 4
    if bitOf w bit then { m with ar := m.ar.put 0 r (o.ar.getD r 0 + o.stride.getD r 0) } else m
  step (step (step m 144 153) 143 149) 142 145

/-- The Keccak core: permute, absorb the rate, squeeze LIT[7:0] bytes, clear (log 60). -/
def nanoKeccak (w : Nat) (e : NanoEnv) (o m : Micro) : Except Nat Micro :=
  let op := fld w 136 6
  let pub := bitOf w 88
  let slot := fld w 132 4
  let n := fld w 0 8
  let st := padTo 200 (o.kslot.getD slot [])
  let ssec := o.ksec.getD slot false
  let m := if op = 0 then m else { m with kused := true }
  match op with
  | 0 => .ok m
  | 1 => if pub && ssec then .error 0x0502 else .ok { m with kslot := m.kslot.put [] slot (algoBytes 0x10F00 [st] 200) }
  | 2 =>
    let a := o.arAt w 153
    match o.accessFault e.foot8 pub [(a, n)] [] with
    | some f => .error f
    | none => .ok { m with
        kslot := m.kslot.put [] slot (xorBytes st (padTo 200 (o.read a (min n 200))))
        ksec := m.ksec.put false slot (ssec || (o.secret a n && !pub && decide (0 < e.order))) }
  | 3 =>
    let d := o.arAt w 145
    match o.accessFault e.foot8 pub [] [(d, n)] with
    | some f => .error f
    | none => if pub && ssec then .error 0x0502 else .ok (m.storeResult e.order pub ssec d (slice st 0 n))
  | _ => .ok { m with kslot := m.kslot.put [] slot [], ksec := m.ksec.put false slot false }

/-- The SHA-2 core: initialise, compress the block at ARA, write the state to ARD. -/
def nanoSha (w : Nat) (e : NanoEnv) (o m : Micro) : Except Nat Micro :=
  let op := fld w 126 6
  let pub := bitOf w 88
  let wide := decide (o.shaMode = 2)
  let m := if op = 0 then m else { m with hused := true }
  match op with
  | 0 => .ok m
  | 1 => .ok { m with shaMode := 1, sha := algoBytes 0x10F11 [] 32, shaSec := false }
  | 2 => .ok { m with shaMode := 2, sha := algoBytes 0x10F12 [] 64, shaSec := false }
  | 3 =>
    let a := o.arAt w 153
    let n := if wide then 128 else 64
    match o.accessFault e.foot8 pub [(a, n)] [] with
    | some f => .error f
    | none =>
      if pub && o.shaSec then .error 0x0502
      else .ok { m with
        sha := algoBytes (0x10F13 + o.shaMode) [o.sha, o.read a n] (if wide then 64 else 32)
        shaSec := o.shaSec || (o.secret a n && !pub && decide (0 < e.order)) }
  | _ =>
    let d := o.arAt w 145
    match o.accessFault e.foot8 pub [] [(d, o.sha.length)] with
    | some f => .error f
    | none => if pub && o.shaSec then .error 0x0502 else .ok (m.storeResult e.order pub o.shaSec d o.sha)

/-- The GF(2^m) unit and the carry-less multiplier: 8-byte operands, a 16-byte result; a result in the field of 2^12 or 2^13 elements
is a free value of as many bits (Table 9.4, log 60). -/
def nanoField (w : Nat) (e : NanoEnv) (o m : Micro) : Except Nat Micro :=
  let op := fld w 120 6
  let pub := bitOf w 88
  let a := o.arAt w 153
  let b := o.arAt w 149
  let d := o.arAt w 145
  if op = 0 then .ok m
  else
    let reads := if op = 1 || op = 4 then [(a, 8), (b, 8)] else [(a, 8)]
    match o.accessFault e.foot8 pub reads [(d, 16)] with
    | some f => .error f
    | none =>
      let x := ofLe (o.read a 8)
      let y := if op = 2 then x else ofLe (o.read b 8)
      let r := if op = 4 || (fld w 116 4 = 2 && op ≠ 3) then leBytes 16 (clmul x y) else
        leBytes 16 (ofLe (freeAt (e.free + 128) 2) % 2 ^ (12 + min 1 (fld w 116 4)))
      .ok (m.storeResult e.order pub (reads.any (fun p => o.secret p.1 p.2)) d r)

/-- A sample modulo q: uniform, or between −b and b, for b the bound LIT[7:0], η of a centred binomial, or 1 of a sample-in-ball
(Table 9.5); which of these values it is, is free (log 60). -/
def sampleOf (op lit : Nat) (q : Option Nat) (r : Nat) : Nat :=
  match q with
  | none => r
  | some q =>
    if op = 1 then r % q
    else
      let b := if op = 2 then fld lit 0 8 else if op = 3 then fld lit 0 2 else 1
      (r % (2 * b + 1) + (q - b % q)) % q

/-- The samplers: candidates at ARA, samples at ARD, one for each of 16 lanes of 8 bytes (log 60). -/
def nanoSampler (w : Nat) (e : NanoEnv) (o m : Micro) : Except Nat Micro :=
  let pub := bitOf w 88
  let a := o.arAt w 153
  let d := o.arAt w 145
  if fld w 110 6 = 0 then .ok m
  else
    match o.accessFault e.foot8 pub [(a, 128)] [(d, 128)] with
    | some f => .error f
    | none =>
      let sec := o.secret a 128
      let q := o.modulus (fld w 173 3)
      let m := m.storeResult e.order pub sec d ((List.range 16).flatMap (fun i =>
        leBytes 8 (sampleOf (fld w 110 6) (fld w 0 64) q (ofLe (freeAt (e.free + 144 + 8 * i) 3)))))
      .ok (if bitOf w 86 then
        { m with srej := { v := Config.freeBool (e.free + 1), t := sec && !pub && decide (0 < e.order) } } else m)

/-- The signed 7-bit shift of the scalar unit: left by a positive count, right by a negative one (log 60). -/
def scalarShift (x : W64) (n : Nat) : W64 := if n < 64 then x <<< n else x >>> (128 - n)

/-- The scalar unit (R263): it holds no SECRET operand, so its flags are untainted. The order of its operands, and a carry that only an
addition defines, are the model's choice (DESIGN CHOICE, log 60). -/
def nanoScalar (w : Nat) (e : NanoEnv) (o m : Micro) : Micro :=
  let op := fld w 104 6
  let d := fld w 100 4
  let xd := o.x.getD d 0
  let xs := o.x.getD (fld w 96 4) 0
  let cfree := Config.freeBool (e.free + 2)
  let (r, c) : W64 × Bool := match op with
    | 1 => (BitVec.ofNat 64 (fld w 0 64), cfree)
    | 2 => (xd + xs, decide (2 ^ 64 ≤ xd.toNat + xs.toNat))
    | 3 => (xd - xs, cfree)
    | 4 => (xd &&& xs, cfree)
    | 5 => (xd ^^^ xs, cfree)
    | 6 => (scalarShift xd (fld w 0 7), cfree)
    | 7 => (BitVec.ofNat 64 e.imm, cfree)
    | 8 => (BitVec.ofNat 64 e.imm, cfree)
    | 9 => (xs, cfree)
    | _ => (xd - xs, cfree)
  let m := match op with
    | 0 => m
    | 7 => { m with lc0 := e.imm }
    | 8 => { m with lc1 := e.imm }
    | 9 => { m with ar := m.ar.put 0 d xs }
    | 0x0A => m
    | _ => { m with x := m.x.put 0 d r }
  if op ≠ 0 && bitOf w 84 then
    { m with z := { v := microZ r, t := false }, neg := { v := r.msb, t := false }, c := { v := c, t := false } }
  else m

/-- The memory mover but END: IN_NEXT, UNMASK, REFRESH, COPY. -/
def nanoMover (w : Nat) (e : NanoEnv) (o m : Micro) : Except Nat Micro :=
  let op := fld w 90 6
  let pub := bitOf w 88
  let n := fld w 0 16
  let a := o.arAt w 153
  let d := o.arAt w 145
  let keyBanks := microTouches 0 63 a n || microTouches 0 63 d n
  match op with
  | 1 =>
    let m := if pub then m.mark 0x6000 16384 false else m
    .ok { m with wantPiece := true }
  | 2 =>
    match o.accessFault e.foot8 pub [(a, n)] [(d, n)] with
    | some f => .error f
    | none => if keyBanks then .error 0x0502 else .ok ((m.write d (o.read a n)).mark d n false)
  | 3 =>
    match o.accessFault e.foot8 pub [(a, n)] [(a, n)] with
    | some f => .error f
    | none => .ok m
  | 4 =>
    match o.accessFault e.foot8 pub [(a, n)] [(d, n)] with
    | some f => .error f
    | none => if keyBanks then .error 0x0502 else .ok (m.storeResult e.order pub (o.secret a n) d (o.read a n))
  | _ => .ok m

/-- Every unit of the spindle acts at once on the state at the start of the word (R262). -/
def nanoRun (w : Nat) (e : NanoEnv) (m : Micro) : Except Nat Micro := do
  let r ← nanoLanes w e m (nanoStep w m m)
  let r ← nanoKeccak w e m r
  let r ← nanoSha w e m r
  let r ← nanoField w e m r
  let r ← nanoSampler w e m r
  nanoMover w e m (nanoScalar w e m r)

/-- A nano-word with an operation that a busy unit could hold. -/
def nanoWorks (w : Nat) : Bool :=
  fld w 176 8 ≠ 0 || fld w 136 6 ≠ 0 || fld w 126 6 ≠ 0 || fld w 120 6 ≠ 0 || fld w 110 6 ≠ 0 || fld w 104 6 ≠ 0
    || (fld w 90 6 ≠ 0 && fld w 90 6 ≠ 0x3F)

/-! ## Micro-words (R258 to R261) -/

/-- The micro-word at an address of the stores (R257). -/
def State.microAt (s : State) (a : Nat) : Nat :=
  if a < 3584 then (Config.vendorMicro s.mcs.ver.toNat a).toNat
  else match s.mcs.cust with
    | some g => ((g.micro[a - 3584]?).getD 0).toNat
    | none => 0

/-- The word at an address of a nano-store (R257). -/
def State.nanoStore (s : State) (a : Nat) : Nat :=
  if a < 896 then (Config.vendorNano s.mcs.ver.toNat a).toNat
  else match s.mcs.cust with
    | some g => ((g.nano[a - 896]?).getD 0).toNat
    | none => 0

/-- The nano-word that a NANO field issues; NANO 0 fetches nothing (R262). -/
def State.nanoAt (s : State) (a : Nat) : Nat := if a = 0 then 0 else s.nanoStore a

/-- A condition of Table 9.3: its truth, or the routine fault of a tainted flag. The core-idle conditions are free once the
core has been used (log 60). -/
def microCond (cond imm free : Nat) (m : Micro) : Except Nat Bool :=
  let flag (f : MFlag) : Except Nat Bool := if f.t then .error 0x0503 else .ok f.v
  match cond with
  | 0x0 => .ok false
  | 0x1 => .ok true
  | 0x2 => .ok (m.lc0 ≠ 0)
  | 0x3 => .ok (m.lc1 ≠ 0)
  | 0x4 => flag m.z
  | 0x5 => flag m.neg
  | 0x6 => flag m.c
  | 0x7 => flag m.lz
  | 0x8 => .ok (!m.kused || Config.freeBool (free + 3))
  | 0x9 => .ok (!m.hused || Config.freeBool (free + 4))
  | 0xA => .ok (!m.wantPiece)
  | 0xB => flag m.srej
  | 0xC => .ok m.acc.v
  | _ => .ok (bitOf (m.x.getD 0 0).toNat (fld imm 0 6))

/-- The loop counters after their condition is tested. -/
def microCount (cond : Nat) (m : Micro) : Micro :=
  match cond with
  | 0x2 => { m with lc0 := m.lc0 - 1 }
  | 0x3 => { m with lc1 := m.lc1 - 1 }
  | _ => m

/-- The successor of a word: the condition ORed into bit 0, a call, or a return (R259, R260). -/
def microNext (word free : Nat) (m : Micro) : Except Nat Micro :=
  let cond := fld word 32 4
  let next := fld word 20 12
  let imm := fld word 0 10
  match cond with
  | 0xE =>
    if 4 ≤ m.stack.length || (next = 3523 && 2 < m.stack.length) then .error 0x0501
    else .ok { m with stack := (m.pc + 1) % 4096 :: m.stack, x := m.x.put 0 15 (BitVec.ofNat 64 imm), pc := next }
  | 0xF =>
    match m.stack with
    | [] => .error 0x0501
    | a :: rest => .ok { m with stack := rest, pc := a }
  | _ =>
    match microCond cond imm free m with
    | .error f => .error f
    | .ok b => .ok { microCount cond m with pc := next ||| b2n b }

/-- The routine on a spindle: its job, its entry and its state. -/
def State.routine? (s : State) (f c u : Nat) : Option (Nat × Job × RtnEntry × Micro) :=
  let v := s.unit f c u
  match v.job with
  | none => none
  | some j =>
    match s.job? j with
    | none => none
    | some x =>
      match s.customEntry x with
      | none => none
      | some e => if v.micro.on && x.stage = .s5 && x.opClass = 9 then some (j, x, e, v.micro) else none

/-- The routine's state after a word. -/
def State.setMicro (s : State) (f c u : Nat) (m : Micro) : State := s.setUnit f c u { s.unit f c u with micro := m }

/-- A routine fault ends the job at once: INTEGRITY with its detail, the wipe, and a trace record with the micro address
(R278). -/
def State.routineFault (s : State) (f c u j : Nat) (x : Job) (m : Micro) (detail : Nat) : State :=
  let s := s.trace (x.ev 0x0D none (locCode s.dev f c u) (m.pc + detail * 65536))
  let s := s.ends j integrityErr detail (m.cycles + 1024) []
  (s.setMicro f c u { m with on := false }).modJob j (fun x => { x with rnd := [] })

/-- END: the result of IMM, or the fault of an X14 above OUT_MAX or 8,192 (R275, R276). -/
def State.routineEnd (s : State) (f c u j : Nat) (x : Job) (e : RtnEntry) (m : Micro) (imm : Nat) : State :=
  let n := (m.x.getD 14 0).toNat
  if e.outMax < n || 8192 < n then s.routineFault f c u j x m 0x0504
  else
    let s := s.setMicro f c u { m with on := false }
    let cycles := m.cycles + 1024
    if imm = 0 then s.ends j 0 0 cycles (m.read 0xC000 n)
    else if imm = 1 then s.ends j verifyFail 0x0501 cycles []
    else s.ends j inputErr (0x0600 + fld imm 0 8) cycles []

/-- The stalls of a word: a free number up to 11 for the fetch when another spindle of the creel computes, a free number after
the reload of the bank, and one for a unit that interlocks (R261, R265, log 60). -/
def State.wordStall (s : State) (f c u nano w : Nat) : Nat :=
  let others := (List.range 12).any (fun v => v ≠ u && (s.unit f c v).busy)
  (if nano ≠ 0 && others then Config.freeNat s.free % 12 else 0) +
    (if (s.unit f c u).micro.stalled then Config.freeNat (s.free + 511) else 0) + (if nanoWorks w then Config.freeNat (s.free + 1) else 0)

/-- A routine executes the word at its micro address when its COND is one of those asked for: the nano-word issues, the routine
ends, faults or goes on. A word that issues IN_NEXT waits while the previous piece is not staged (R274), one whose nano-store bank is being reloaded until
the reload ends (R265). -/
def State.runWord (s : State) (f c u : Nat) (mine : Nat → Bool) : State :=
  match s.routine? f c u with
  | none => s
  | some (j, x, e, m) =>
    let word := s.microAt m.pc
    let imm := fld word 0 10
    let nano := fld word 10 10
    let w := s.nanoAt nano
    if decide (3520 ≤ m.pc) && decide (m.pc ≤ 3527) then s
    else if !mine (fld word 32 4) then s
    else if fld w 90 6 = 1 && m.wantPiece then s
    else if nano ≠ 0 && bitOf (s.creel f c).reloading.toNat (nano / 256) then s.setMicro f c u { m with stalled := true }
    else
      let env : NanoEnv := { order := x.mask, foot8 := e.foot8, imm := imm, free := s.free + 2 }
      let m := { m with cycles := m.cycles + fld word 36 3 + 1 + s.wordStall f c u nano w, stalled := false }
      let s := { s with free := s.free + 512 }
      match nanoRun w env m with
      | .error d => s.routineFault f c u j x m d
      | .ok m1 =>
        if fld w 90 6 = 0x3F then s.routineEnd f c u j x e m1 imm
        else
          match microNext word (env.free + 300) m1 with
          | .error d => s.routineFault f c u j x m1 d
          | .ok m2 => s.setMicro f c u m2

/-- The local memory and registers of a routine at its start (R274, Table 9.8): key material in banks 0 and 1, which are SECRET in any routine
(R275); the
auxiliary data in bank 2; the first input piece in the window. -/
def microStart (x : Job) (e : RtnEntry) : Micro :=
  let piece := min 16384 x.inLen
  let mem : Tbl Byte := Tbl.putBytes [] 0 (if e.key then ((x.key.map (·.2.mat)).getD []).take 16384 else [])
  let mem := Tbl.putBytes (Tbl.putBytes mem 16384 x.auxData) 24576 (x.inp.take piece)
  let regs : Tbl W64 := [(1, BitVec.ofNat 64 (fld x.opcode 0 8)), (2, BitVec.ofNat 64 x.param), (3, BitVec.ofNat 64 x.inLen),
    (4, BitVec.ofNat 64 x.auxLen), (5, BitVec.ofNat 64 x.outCap), (6, BitVec.ofNat 64 piece)]
  { on := true, pc := e.addr, x := regs.foldl (fun t r => t.put 0 r.1 r.2) [], mem := mem
    sec := (List.range 64).map (fun i => (i, true)), inPos := piece }

/-- CUSTOM_JOB: the routine of a started CUSTOM job begins at its entry address (R273, R274). -/
def execCustomJob (job : Nat) (s : State) : Host.Outcome State Fault Refusal :=
  finish (match s.job? job with
    | none => s
    | some x =>
      match s.customEntry x, x.place, x.spns with
      | some e, some (f, c), u :: _ =>
        if x.stage ≠ .s5 || x.opClass ≠ 9 || (s.unit f c u).micro.on then s else s.setMicro f c u (microStart x e)
      | _, _, _ => s)

/-- MICRO_WORD: a word with COND 0x0 to 0xD. -/
def execMicroWord (frame creel spindle : Nat) (s : State) : Host.Outcome State Fault Refusal :=
  finish (s.runWord frame creel spindle (fun c => decide (c ≤ 13)))
/-- MICRO_CALL: a word with COND 0xE. -/
def execMicroCall (frame creel spindle : Nat) (s : State) : Host.Outcome State Fault Refusal :=
  finish (s.runWord frame creel spindle (fun c => decide (c = 14)))
/-- MICRO_RETURN: a word with COND 0xF. -/
def execMicroReturn (frame creel spindle : Nat) (s : State) : Host.Outcome State Fault Refusal :=
  finish (s.runWord frame creel spindle (fun c => decide (c = 15)))

/-- PIECE_STAGED: the requested piece replaces the window, X6 takes its length, and PIECE goes true (R274). The bytes
behind a shorter piece stay (DESIGN CHOICE, log 153). -/
def execPieceStaged (job : Nat) (s : State) : Host.Outcome State Fault Refusal :=
  finish (match s.job? job with
    | none => s
    | some x =>
      match x.place, x.spns with
      | some (f, c), u :: _ =>
        match s.routine? f c u with
        | some (j, x, _, m) =>
          if j ≠ job || !m.wantPiece then s
          else
            let piece := (x.inp.drop m.inPos).take 16384
            s.setMicro f c u { m with
              wantPiece := false, inPos := m.inPos + piece.length
              x := m.x.put 0 6 (BitVec.ofNat 64 piece.length), mem := Tbl.putBytes m.mem 0x6000 piece }
        | none => s
      | _, _ => s)

/-! ## Gate entries (R279, Table 9.10) -/

/-- A gate body's cycles: the table gives order 1; order 2 costs order 1 ÷ 0.35; order 0 is free (log 60). -/
def State.gateCycles (s : State) (order fig : Nat) : Nat := if order = 0 then Config.freeNat s.free else atOrder order fig

/-- Block bytes of a gate hash, and the bytes its padding needs at least. -/
def gateBlock (alg : Nat) : Nat × Nat :=
  match alg with
  | 1 => (64, 9)
  | 2 => (128, 17)
  | _ => (136, 1)

/-- Cycles of `n` compressions or permutations (R279). -/
def gateHashCycles (alg order n : Nat) : Nat :=
  n * (match alg, order with
    | 1, 0 => 68
    | 1, o => atOrder o (3 * 68)
    | 2, 0 => 90
    | 2, o => atOrder o (3 * 90)
    | _, 0 => 24
    | _, 1 => 48
    | _, _ => 144)

/-- The gate routine at the spindle's address runs and returns to its caller: `f` gives its body cycles and its effect. -/
def State.gate (s : State) (frame creel spindle addr : Nat) (g : Job → RtnEntry → Micro → Nat → Option (Nat × Micro)) : State :=
  match s.routine? frame creel spindle with
  | none => s
  | some (_, x, e, m) =>
    if m.pc ≠ addr then s
    else
      match m.stack, g x e m (m.x.getD 15 0).toNat with
      | ret :: rest, some (extra, m1) =>
        ({ s with free := s.free + 512 } : State).setMicro frame creel spindle
          { m1 with stack := rest, pc := ret, cycles := m.cycles + extra }
      | _, _ => s

/-- What the core that holds a gate's hash context holds: a function of what has been absorbed (log 60). -/
def GateHash.core (h : GateHash) : Bytes :=
  algoBytes 0x10F20 [leBytes 1 h.alg, h.data] (if h.alg = 1 then 32 else if h.alg = 2 then 64 else 200)

/-- The context stands in the SHA-2 core, or in Keccak slot 15; it is SECRET once key bytes have been absorbed (R279). -/
def Micro.holdHash (m : Micro) (h : GateHash) : Micro :=
  let m := { m with hash := some h }
  if h.alg ≤ 2 then { m with sha := h.core, shaMode := h.alg, shaSec := h.sec, hused := true }
  else { m with kslot := m.kslot.put [] 15 h.core, ksec := m.ksec.put false 15 h.sec, kused := true }

/-- No operation of the routine has changed the context since. -/
def Micro.holdsHash (m : Micro) (h : GateHash) : Bool :=
  if h.alg ≤ 2 then m.shaMode = h.alg && m.sha == h.core else m.kslot.getD 15 [] == h.core

/-- Absorb bytes into the gate's hash context; with no context open nothing is absorbed, and one that the routine has overwritten
stays so (log 60). -/
def Micro.absorb (m : Micro) (order : Nat) (secretIn : Bool) (b : Bytes) : Nat × Micro :=
  match m.hash with
  | none => (0, m)
  | some h =>
    let blk := (gateBlock h.alg).1
    let n := (h.data.length + b.length) / blk - h.data.length / blk
    (gateHashCycles h.alg order n,
      let h' : GateHash := { h with data := h.data ++ b, sec := h.sec || (secretIn && decide (0 < order)) }
      if m.holdsHash h then m.holdHash h' else { m with hash := some h' })

/-- The digest of a gate hash context. -/
def gateDigest (h : GateHash) (n : Nat) : Bytes :=
  hashTo (match h.alg with | 1 => 1 | 2 => 3 | 3 => 4 | _ => 8) h.data n

/-- HASH_BEGIN opens the hash context of IMM. -/
def execHashBegin (frame creel spindle : Nat) (s : State) : Host.Outcome State Fault Refusal :=
  finish (s.gate frame creel spindle 3520 (fun x _ m imm =>
    some (s.gateCycles x.mask 12, m.holdHash { alg := imm, data := [], sec := false })))

/-- ABSORB_KEY absorbs IMM key bytes from bank 0. -/
def execAbsorbKey (frame creel spindle : Nat) (s : State) : Host.Outcome State Fault Refusal :=
  finish (s.gate frame creel spindle 3521 (fun x _ m imm =>
    let (n, m1) := m.absorb x.mask (m.secret 0 imm) (m.read 0 imm)
    some (s.gateCycles x.mask 40 + n, m1)))

/-- ABSORB_X absorbs X[IMM] as 8 little-endian bytes. -/
def execAbsorbX (frame creel spindle : Nat) (s : State) : Host.Outcome State Fault Refusal :=
  finish (s.gate frame creel spindle 3522 (fun x _ m imm =>
    let (n, m1) := m.absorb x.mask false (leBytes 8 (m.x.getD imm 0).toNat)
    some (s.gateCycles x.mask 30 + n, m1)))

/-- ABSORB_INPUT absorbs the window and the whole remaining input, a piece at a time; it waits for a piece already asked for. -/
def execAbsorbInput (frame creel spindle : Nat) (s : State) : Host.Outcome State Fault Refusal :=
  finish (s.gate frame creel spindle 3523 (fun x _ m _ =>
    if m.wantPiece then none
    else
      let here := min 16384 (m.x.getD 6 0).toNat
      let rest := x.inp.drop m.inPos
      let pieces := (if here = 0 then 0 else 1) + ceilDiv rest.length 16384
      let (n, m1) := m.absorb x.mask (m.secret 0x6000 here) (m.read 0x6000 here ++ rest)
      let last := rest.drop ((rest.length - 1) / 16384 * 16384)
      some (s.gateCycles x.mask (60 + 40 * pieces) + n,
        { m1 with x := m1.x.put 0 6 0, inPos := m.inPos + rest.length
                  mem := if rest.length = 0 then m1.mem else Tbl.putBytes m1.mem 0x6000 last })))

/-- ABSORB_AUX absorbs the auxiliary data. -/
def execAbsorbAux (frame creel spindle : Nat) (s : State) : Host.Outcome State Fault Refusal :=
  finish (s.gate frame creel spindle 3524 (fun x _ m _ =>
    let (n, m1) := m.absorb x.mask (m.secret 0x4000 x.auxLen) (m.read 0x4000 x.auxLen)
    some (s.gateCycles x.mask 50 + n, m1)))

/-- HASH_FINAL pads, finishes and unmasks the first IMM bytes of the digest into bank 6; X14 := IMM. Without a context, or
once the routine has overwritten it, the bytes are free (log 60). -/
def execHashFinal (frame creel spindle : Nat) (s : State) : Host.Outcome State Fault Refusal :=
  finish (s.gate frame creel spindle 3525 (fun x _ m imm =>
    let (n, b) : Nat × Bytes := match m.hash with
      | none => (0, freeAt (s.free + 1) imm)
      | some h =>
        let (blk, pad) := gateBlock h.alg
        let extra := if h.alg = 4 then ceilDiv imm blk - 1 else 0
        (gateHashCycles h.alg x.mask (ceilDiv (h.data.length + pad) blk - h.data.length / blk + extra),
          if m.holdsHash h then gateDigest h imm else freeAt (s.free + 1) imm)
    some (s.gateCycles x.mask 120 + n,
      { (m.write 0xC000 b).mark 0xC000 imm false with hash := none, x := m.x.put 0 14 (BitVec.ofNat 64 imm) })))

/-- MASKED_XOR XORs IMM key bytes of bank 0 into bank 5. -/
def execMaskedXor (frame creel spindle : Nat) (s : State) : Host.Outcome State Fault Refusal :=
  finish (s.gate frame creel spindle 3526 (fun x _ m imm =>
    some (s.gateCycles x.mask (4 * ceilDiv imm 8),
      m.storeResult x.mask false (m.secret 0 imm || m.secret 0xA000 imm) 0xA000
        (xorBytes (m.read 0xA000 imm) (m.read 0 imm)))))

/-- UNMASK_OUT recombines IMM bytes of bank 5 into bank 6; X14 := IMM. -/
def execUnmaskOut (frame creel spindle : Nat) (s : State) : Host.Outcome State Fault Refusal :=
  finish (s.gate frame creel spindle 3527 (fun x _ m imm =>
    some (s.gateCycles x.mask (4 * ceilDiv imm 8),
      { (m.write 0xC000 (m.read 0xA000 imm)).mark 0xC000 imm false with x := m.x.put 0 14 (BitVec.ofNat 64 imm) })))

end Sys2Proof.Machine
end

