-- ==== Sys2Proof/Machine/Strands.lean ====
section
/-! DEFINITION. Strands (chapter 11 and R104 to R107): enable, disable and drain, quotas and token buckets, FLR and VF Enable, the
comm page and mailboxes, the dirty log, save and restore. -/

namespace Sys2Proof.Machine

/-- The strand a manager's command names. -/
def Job.strandNo (x : Job) : Nat := fld x.param 0 10

/-! ## States (R303 to R305) -/

/-- Every ring of a strand is torn down; ring 0 leaves ADM_CFG disabled (R100). -/
def State.tearDown (s : State) (f : Nat) : State :=
  let s := s.each ((s.rings.filter (fun e => e.1 / 256 = f)).map (fun e => e.1 % 256)) (fun s r => s.removeRing f r)
  let p := s.page f
  s.setPage f { p with admCfg := setBit p.admCfg 31 false }

/-- The generation that an advance by 1 would produce is carried by a job in flight (R312). -/
def State.aliases (s : State) (f : Nat) : Bool :=
  let g := (s.strand f).gen + 1
  s.jobs.any (fun e => e.2.fn = f && e.2.admitted.isSome && e.2.gen = g)

/-- STRAND_ENABLE (R104, R304, R308, R309). -/
def execStrandEnable (job : Nat) (s : State) : Host.Outcome State Fault Refusal :=
  finish (match s.cmdJob job 0xF101 with
    | none => s
    | some x =>
      let f := x.strandNo
      let t := s.strand f
      let out (s : State) : Bytes := leBytes 8 (s.strand f).gen.toNat
      if !s.vfEnabled f then s.doneErr job inputErr 0x0107
      else
        match t.state with
        | .enabled => s.done job (out s)
        | .draining => s.doneErr job busyErr 0x0102
        | .stopped =>
          let s := (s.setStrand f { t with state := .enabled }).notice f 5 t.gen.toNat 0
          s.done job (out s)
        | .disabled =>
          if s.aliases f then s.doneErr job busyErr 0x0103
          else
            let s := (s.advanceGen f (t.gen + 1)).resetPage f
            let s := s.setStrand f { s.strand f with state := .enabled, level := t.quota.burst * 2 ^ 20 }
            let s := s.notice f 5 (t.gen + 1).toNat 1
            s.done job (out s))

/-- STRAND_DISABLE: a drain begins, or a stopped strand is torn down and its warm keys are wiped (R104, R239, R304). -/
def execStrandDisable (job : Nat) (s : State) : Host.Outcome State Fault Refusal :=
  finish (match s.cmdJob job 0xF102 with
    | none => s
    | some x =>
      let f := x.strandNo
      let t := s.strand f
      if !s.vfEnabled f then s.doneErr job inputErr 0x0107
      else
        match t.state with
        | .disabled => s.doneErr job conflictErr 0x0103
        | .enabled => ((s.setStrand f { t with state := .draining }).notice f 3 0 0).done job []
        | .draining => s.done job []
        | .stopped =>
          let s := (s.tearDown f).wipeWarm (fun slot => slot / 262144 = f)
          (s.setStrand f { s.strand f with state := .disabled }).done job [])

/-- A job or a fetched entry of the strand is in the device. -/
def State.strandBusy (s : State) (f : Nat) : Bool :=
  s.jobs.any (fun e => e.2.fn = f) || s.hdl.ready.any (fun t => t.fn = f) ||
    (List.range 4).any (fun m => (s.frame m).parse.any (fun t => t.fn = f)) ||
    s.rings.any (fun e => e.1 / 256 = f && !e.2.reading.isEmpty)

/-- STRAND_DRAIN_END: the last fetched job has retired; fetch will resume at DONE (R303, R324). -/
def execStrandDrainEnd (strand : Nat) (s : State) : Host.Outcome State Fault Refusal :=
  finish (let t := s.strand strand
    if t.state ≠ .draining || s.strandBusy strand then s
    else
      let s : State := { s with rings := s.rings.each (fun k g =>
        if k / 256 = strand then { g with held := [], fetched := g.done } else g) }
      (s.setStrand strand { t with state := .stopped }).notice strand 4 0 0)

/-! ## Quotas and token buckets (R105, R307, R308) -/

/-- The quota that a block of Table 4.7 gives. -/
def quotaOf (b : Bytes) : Quota := {
  maxRings := leAt b 0 2, ceil := leAt b 2 1, inflight := leAt b 4 4, rate := leAt b 8 4, burst := leAt b 12 4
  keyEntries := leAt b 16 4, cacheKib := leAt b 20 4, ogBase := leAt b 24 2, ogCount := leAt b 26 2 }

/-- Every field lies in its range (R105), BURST also where RATE is 0 (DESIGN CHOICE, log 147). -/
def Quota.inRange (q : Quota) (b : Bytes) : Bool :=
  1 ≤ q.maxRings && q.maxRings ≤ 64 && q.ceil ≤ 3 && leAt b 3 1 = 0 && 1 ≤ q.inflight && q.inflight ≤ 65536 &&
    q.rate ≤ 16000000 && 1 ≤ q.burst && q.burst ≤ 65536 && q.keyEntries ≤ 4194304 && q.cacheKib ≤ 16384 &&
    q.ogBase ≤ 4095 && 1 ≤ q.ogCount && q.ogBase + q.ogCount ≤ 4096 && leAt b 28 4 = 0

/-- The refusals of R105, in the order it lists them. -/
def State.quotaErr (s : State) (f : Nat) (b : Bytes) : Option (Nat × Nat) :=
  let q := quotaOf b
  let old := (s.strand f).quota
  let inQ (g : Nat) : Bool := decide (q.ogBase ≤ g ∧ g < q.ogBase + q.ogCount)
  let meets (o : Quota) : Bool := decide (0 < o.ogCount ∧ o.ogBase < q.ogBase + q.ogCount ∧ q.ogBase < o.ogBase + o.ogCount)
  let others := s.strands.filter (fun e => e.1 ≠ f)
  if !q.inRange b then some (inputErr, 0x0108)
  else if (s.strand f).state ≠ .disabled && (q.ogBase ≠ old.ogBase || q.ogCount ≠ old.ogCount) then some (conflictErr, 0x0103)
  else if others.any (fun e => meets e.2.quota) || s.rings.any (fun e => e.1 / 256 = 0 && inQ e.2.ogrp) then
    some (resourceErr, 0x0103)
  else if 4194304 < (others.map (fun e => e.2.quota.keyEntries)).sum + q.keyEntries then some (resourceErr, 0x0103)
  else if 16384 < (others.map (fun e => e.2.quota.cacheKib)).sum + q.cacheKib then some (resourceErr, 0x0103)
  else none

/-- Every ring of a strand keeps a class ceiling of at most CEIL; one that CEIL raises above stays as it is (R93). -/
def State.lowerCeilings (s : State) (f c : Nat) : State :=
  { s with rings := s.rings.each (fun k g => if k / 256 = f then { g with ceil := min g.ceil c } else g) }

/-- The groups newly given to a strand, in which no job is in flight, count from 0 again (R333). -/
def State.clearGroups (s : State) (old q : Quota) : State :=
  let fresh (g : Nat) : Bool :=
    decide (q.ogBase ≤ g ∧ g < q.ogBase + q.ogCount) && !decide (old.ogBase ≤ g ∧ g < old.ogBase + old.ogCount) &&
      s.jobs.all (fun e => e.2.ogrp ≠ g || e.2.admitted.isNone)
  { s with hdl := { s.hdl with og := s.hdl.og.keep (fun g _ => !fresh g) } }

/-- STRAND_QUOTA (R93, R105, R308, R319, R333). -/
def execStrandQuota (job : Nat) (s : State) : Host.Outcome State Fault Refusal :=
  finish (match s.cmdJob job 0xF103 with
    | none => s
    | some x =>
      let f := x.strandNo
      if !s.vfEnabled f then s.doneErr job inputErr 0x0107
      else
        match s.quotaErr f x.block with
        | some e => s.doneErr job e.1 e.2
        | none =>
          let t := s.strand f
          let q := quotaOf x.block
          let s := s.setStrand f { t with
            quota := q, level := if q.burst < t.quota.burst then min t.level (q.burst * 2 ^ 20) else t.level }
          let s := (s.lowerCeilings f q.ceil).clearGroups t.quota q
          let s := s.dlRemove 2 (.bucketRefill f)
          let s := if q.rate ≠ 0 then s.dlInsert 2 (s.now + 1) (.bucketRefill f) else s
          (s.notice f 6 (leAt x.block 0 8) (leAt x.block 8 8)).done job [])

/-- BUCKET_REFILL: one tick's refill, 20 fractional bits, up to BURST; the strand's entry is inserted again (R308, R335). -/
def execBucketRefill (strand : Nat) (s : State) : Host.Outcome State Fault Refusal :=
  finish (let t := s.strand strand
    if !s.live || t.quota.rate = 0 then s
    else
      let s := s.setStrand strand { t with
        level := max t.level (min (t.quota.burst * 2 ^ 20) (t.level + t.quota.rate * 2 ^ 20 / 1000000)) }
      (s.dlRemove 2 (.bucketRefill strand)).dlInsert 2 (s.now + 1) (.bucketRefill strand))

/-! ## FLR and VF Enable (R305, R313, R314) -/

/-- The blob of a save is on its way to the host: in S6 or S7, its word 0 not yet issued. -/
def Stage.leaving : Stage → Bool
  | .s6 | .s7wait | .held => true
  | .s7 k => decide (k < 5)
  | _ => false

/-- The saves and restores of a strand that are under way: raised to firmware, their input still being read included, and a save
whose blob is being written to the host. -/
def State.transfers (s : State) (f : Nat) : List Nat :=
  s.jobsWhere (fun x => (x.opcode = 0xF107 || x.opcode = 0xF108) && x.strandNo = f &&
    (x.stage = .firmware || (x.opcode = 0xF107 && x.major = 0 && x.stage.leaving)))

/-- A save or restore under way ends with ABORTED; a restore leaves the strand as it was (R107). -/
def State.abortTransfers (s : State) (f detail : Nat) : State :=
  s.each (s.transfers f) (fun s j =>
    match s.job? j with
    | some x =>
      let s := if x.opcode = 0xF108 && x.phase = 2 then s.undoRestore f else s
      s.abortTo j abortedErr detail
    | none => s)

/-- Jobs of a strand that S1 and S2 hold: complete chains in the ready lists and parse buffers (R68). -/
def State.tokenJobs (s : State) (f : Nat) : Nat :=
  s.hdl.ready.countP (fun t => t.fn = f) + ((List.range 4).map (fun m => (s.frame m).parse.countP (fun t => t.fn = f))).sum

/-- The effects of FLR on a strand. ARG1 of the RESET notice counts the jobs of S1 to S5 and the write-backs under way, which the
advance drops or aborts (Table 11.7). -/
def State.flr (s : State) (f : Nat) : State :=
  let s := s.abortTransfers f 0x0103
  let t := s.strand f
  if t.state = .disabled then s.resetPage f
  else
    let g := s.nextGen f
    let hit := (s.jobsWhere (fun x => x.fn = f && x.sub.isNone && x.stage.overtaken)).length + s.tokenJobs f
    let s := s.each ((s.rings.filter (fun e => e.1 / 256 = f)).map (fun e => e.1 % 256)) (fun s r => s.dropEntries f r)
    let s := (s.advanceGen f g).tearDown f
    let s := (s.wipeWarm (fun slot => slot / 262144 = f)).resetPage f
    let s := s.notice f 2 (t.gen.toNat + g.toNat * 2 ^ 16) hit
    let u := s.strand f
    s.setStrand f { u with
      state := if t.state = .enabled then .enabled else .stopped
      lateDue := !(s.oldJobs f).isEmpty }

/-- VF_FLR. -/
def execVfFlr (strand : Nat) (s : State) : Host.Outcome State Fault Refusal :=
  finish (if s.barsOpen && s.vfEnabled strand then s.flr strand else s)

/-- VF_ENABLE_CLEAR: NumVFs of the SR-IOV capability becomes `numVfs`, 0 for VF Enable clear; each strand no longer enabled
undergoes FLR, its rings go and it is DISABLED, its keys kept (R305). -/
def execVfEnableClear (numVfs : Nat) (s : State) : Host.Outcome State Fault Refusal :=
  finish (if !s.barsOpen || maxVf < numVfs then s
    else
      let gone := (List.range (s.host.numVfs - numVfs)).map (fun i => numVfs + 1 + i)
      let s := s.each gone (fun s f =>
        let s := (s.flr f).tearDown f
        s.setStrand f { s.strand f with state := .disabled })
      { s with host := { s.host with numVfs := numVfs } })

/-! ## Comm page and mailboxes (R315 to R319) -/

/-- STR_COMM write: ADDR is fixed while EN is 1; setting EN writes N_HEAD = 0 (R319, Table 11.13). -/
def State.commWrite (s : State) (strand : Nat) (value : W64) : State :=
  let t := s.strand strand
  let v := value.toNat / 4096 * 4096 + value.toNat % 2
  if !s.barsOpen || strand = 0 || maxVf < strand then s
  else if bitOf t.comm.toNat 0 && v / 4096 ≠ t.comm.toNat / 4096 then s
  else if bitOf v 0 && !bitOf t.comm.toNat 0 then
    (s.setStrand strand { t with comm := BitVec.ofNat 64 v, nHead := 0 }).send
      (.write 0 (v / 4096 * 4096 + 0xC00) (zeros 8))
  else
    let s := s.setStrand strand { t with comm := BitVec.ofNat 64 v }
    if bitOf v 0 then s
    else { s with host := { s.host with notices := s.host.notices.filter (fun n => n.fn ≠ strand) } }

/-- The row StrCommWrite. -/
def execStrCommWrite (strand : Nat) (value : W64) (s : State) : Host.Outcome State Fault Refusal := finish (s.commWrite strand value)

/-- MBX_RING_MANAGER: the manager rings a strand; a bit already set signals no second interrupt (R317, R318). -/
def State.mbxManager (s : State) (value : W32) : State :=
  let f := fld value.toNat 0 10
  if !s.barsOpen || f = 0 || maxVf < f then s
  else
    let p := s.page f
    if p.mbxSts.getLsbD 0 then s else (s.setPage f { p with mbxSts := setBit p.mbxSts 0 true }).signal f 0

/-- The row MbxRingManager. -/
def execMbxRingManager (value : W32) (s : State) : Host.Outcome State Fault Refusal := finish (s.mbxManager value)

/-- MBX_RING_TENANT: a strand rings the manager (R317, R318). -/
def State.mbxTenant (s : State) (strand : Nat) (value : W32) : State :=
  if !s.barsOpen || strand = 0 || !s.vfEnabled strand || !value.getLsbD 0 || s.mbxPend.getD strand false then s
  else
    ({ s with mbxPend := s.mbxPend.put false strand true } : State).signal 0 (fld (s.strand strand).mbx.toNat 0 8)

/-- The row MbxRingTenant. -/
def execMbxRingTenant (strand : Nat) (value : W32) (s : State) : Host.Outcome State Fault Refusal := finish (s.mbxTenant strand value)

/-! ## Dirty log (R106, R320 to R322) -/

/-- DLOG_START. -/
def execDlogStart (job : Nat) (s : State) : Host.Outcome State Fault Refusal :=
  finish (match s.cmdJob job 0xF104 with
    | none => s
    | some x =>
      let f := x.strandNo
      let w (i : Nat) : Nat := leAt x.block (8 * i) 8
      if !s.vfEnabled f then s.doneErr job inputErr 0x0107
      else if w 0 % 4096 ≠ 0 || w 1 % 4096 ≠ 0 || 2 ^ 40 < w 1 || w 2 % 4096 ≠ 0 || w 3 % 4096 ≠ 0 then
        s.doneErr job inputErr 0x0109
      else
        (s.setStrand f { s.strand f with
          dlogOn := true, dlogBuf := false, dlogBase := w 0, dlogLen := w 1, dlogA := w 2, dlogB := w 3 }).done job [])

/-- Bits of a bitmap are still to be written for the strand: a bit-write has not been acknowledged, or a streaming decryption that
has fixed the bitmap still has output to log (R220). -/
def State.dlogDue (s : State) (f : Nat) (map : Bool) : Bool :=
  s.jobs.any (fun e => e.2.fn = f && e.2.dlogBuf = some map &&
    (e.2.due.any HostWait.isBit || ((s.strand f).dlogOn && streams e.2 && e.2.issued && e.2.phase ≠ 2)))

/-- DLOG_SWAP: logging turns to the other bitmap; the command ends once the closed one's bit-writes are acknowledged. -/
def execDlogSwap (job : Nat) (s : State) : Host.Outcome State Fault Refusal :=
  finish (match s.cmdJob job 0xF105 with
    | none => s
    | some x =>
      let f := x.strandNo
      let t := s.strand f
      if !s.vfEnabled f then s.doneErr job inputErr 0x0107
      else if x.phase = 0 && !t.dlogOn then s.doneErr job conflictErr 0x0108
      else
        let s := if x.phase = 0 then
            ((s.setStrand f { t with dlogBuf := !t.dlogBuf }).modJob job (fun x => { x with note := b2n t.dlogBuf })).waitPhase
              job 2
          else s
        let closed := if x.phase = 0 then t.dlogBuf else x.note = 1
        if s.dlogDue f closed then s else s.done job (leBytes 8 (b2n closed)))

/-- DLOG_STOP. -/
def execDlogStop (job : Nat) (s : State) : Host.Outcome State Fault Refusal :=
  finish (match s.cmdJob job 0xF106 with
    | none => s
    | some x =>
      let f := x.strandNo
      let t := s.strand f
      if !s.vfEnabled f then s.doneErr job inputErr 0x0107
      else if x.phase = 0 && !t.dlogOn then s.doneErr job conflictErr 0x0108
      else
        let s := if x.phase = 0 then (s.setStrand f { t with dlogOn := false }).waitPhase job 2 else s
        if s.dlogDue f false || s.dlogDue f true then s else s.done job [])

/-! ## Save (R323, R324) -/

/-- A ring's record in a strand blob (Table 11.9). -/
def ringRecord (r : Nat) (g : Ring) : Bytes :=
  leBytes 8 g.base.toNat ++ leBytes 8 (r + g.log2 * 2 ^ 8 + g.ceil * 2 ^ 16 + b2n g.mirror * 2 ^ 18 + g.ogrp * 2 ^ 20) ++
    leBytes 8 (g.vec + g.cnt * 2 ^ 8 + g.tmo * 2 ^ 20) ++ leBytes 4 g.tail.toNat ++ leBytes 4 g.done.toNat ++
    leBytes 2 g.pendIrq ++ zeros 6

/-- A key's record in a strand blob: a stateful key goes with NEXT := CEIL. -/
def State.keyRecord (s : State) (slot : Nat) (k : KeyObj) : Bytes :=
  let n := k.mat.length
  s.headerBytes slot { k with next := if stateful k.type then k.ceil else k.next, active := false, repl := none } ++
    leBytes 4 (s.handleOf slot % 2 ^ 22) ++ leBytes 4 n ++ zeros 8 ++ padTo (8 * ceilDiv n 8) k.mat

/-- The header of a strand blob (Table 11.8). -/
def State.strandHeader (s : State) (f : Nat) (ply : Bool) (kcv : Bytes) (rings keys body : Nat) (iv : Bytes) : Bytes :=
  leBytes 4 0x53424B41 ++ leBytes 1 1 ++ leBytes 1 (b2n ply) ++ leBytes 2 f ++ leBytes 2 (s.strand f).gen.toNat ++
    leBytes 1 s.dev ++ zeros 1 ++ padTo 3 kcv ++ zeros 1 ++ leBytes 2 rings ++ leBytes 2 (s.strand f).quota.ogBase ++
    leBytes 4 keys ++ leBytes 8 body ++ padTo 12 iv ++ zeros 4 ++ leBytes 4 s.mcs.tfw.toNat ++ leBytes 4 s.mcs.sfw.toNat ++
    zeros 8

/-- The keys of a strand by slot. -/
def State.keysOf (s : State) (f : Nat) : Tbl KeyObj := s.kst.keys.keep (fun i _ => i / 262144 = f)

/-- The body of a strand blob (Table 11.9). -/
def State.strandBody (s : State) (f : Nat) : Bytes :=
  let p := s.page f
  leBytes 8 p.admBase.toNat ++ leBytes 4 p.admCfg.toNat ++ zeros 4 ++
    ((s.rings.filter (fun e => e.1 / 256 = f)).map (fun e => ringRecord (e.1 % 256) e.2)).flatten ++
    ((s.keysOf f).map (fun e => s.keyRecord e.1 e.2)).flatten

/-- A strand blob under a key: header, ciphertext of the body, tag. -/
def State.strandBlob (s : State) (f : Nat) (ply : Bool) (key kcv iv : Bytes) : Bytes :=
  let body := s.strandBody f
  let h := s.strandHeader f ply kcv (s.ringCount f) (s.keysOf f).length body.length iv
  h ++ aeadSeal 8 key iv h body 16

/-- The key-encryption key of a save or restore on the host route: a key object, so that the device-wrap key's handle gives KEY
0x0104 (R120). -/
def State.transferKek (s : State) (x : Job) (op : Nat) : Except (Nat × Nat) (Nat × KeyObj) :=
  match s.kekAt x.fn x.handle op with
  | .error e => .error e
  | .ok r => if isDwk x.handle then .error (keyErr, 0x0104) else .ok r

/-- STRAND_SAVE. On the ply route the command waits until it is carried out again, when the matching restore waits; the blob goes
to the partner, whose answer ends it (R107, R323, R324). On the host route the strand's stateful keys freeze when the blob's first
byte is written (`State.beginStep`). -/
def execStrandSave (job : Nat) (s : State) : Host.Outcome State Fault Refusal :=
  finish (match s.cmdJob job 0xF107 with
    | none => s
    | some x =>
      let f := x.strandNo
      let ply := bitOf x.param 12
      let size := 80 + (s.strandBody f).length
      let gone := ((s.keysOf f).filter (fun e => !e.2.atHand)).map (·.1)
      if 2 ≤ x.phase then s
      else if !s.vfEnabled f then s.doneErr job inputErr 0x0107
      else if (s.strand f).state ≠ .stopped then s.doneErr job conflictErr 0x0103
      else if ply then
        if !s.plyUp then s.doneErr job abortedErr 0x0102
        else if x.phase = 0 then s.waitPhase job 1
        else if gone ≠ [] then s.each gone State.fetchRecord
        else
          let b := s.strandBlob f true [] [] x.rnd
          ((s.plySend (.strandBlob f (fld x.param 13 3) b)).freezeSaved f).waitPhase job 2
      else
        match s.transferKek x 4 with
        | .error e => s.doneErr job e.1 e.2
        | .ok (slot, k) =>
          let gone := gone ++ (if k.atHand then [] else [slot])
          if 2 ^ 32 ≤ s.wrapsOf x.fn k false then s.doneErr job keyErr 0x0112
          else if gone ≠ [] then
            if x.phase = 0 then (s.each gone State.fetchRecord).waitPhase job 1
            else if gone.all (fun i => (s.key? i).any s.spoolHas) then s
            else s.doneErr job spoolErr 0x0141
          else if 0xFFFFFFFF < size then s.doneShort job 0xFFFFFFFF
          else if x.outCap < size then s.doneShort job size
          else
            let b := s.strandBlob f false k.mat (kcvOf 0x07 k.mat) x.rnd
            ((s.useKek slot k.uid).countWrap x.fn slot k false).done job b)

/-! ## Restore (R325, R326) -/

/-- A key record read back: INDEX, EPOCH, the object. -/
structure SavedKey where
  /-- INDEX -/
  index : Nat
  /-- EPOCH -/
  epoch : BitVec 4
  /-- the object -/
  key : KeyObj

/-- The key records of a body, `n` of them; none: a record is malformed. -/
def savedKeys : Nat → Bytes → Option (List SavedKey)
  | 0, b => if b = [] then some [] else none
  | n + 1, b =>
    let st := leAt b 0 4
    let t := fld st 0 8
    let len := leAt b 116 4
    let mat := slice b 128 len
    let total := 128 + 8 * ceilDiv len 8
    if b.length < total then none
    else
      match formParam t mat, savedKeys n (b.drop total) with
      | some p, some ks =>
        let k := mkKey t p (policyOf (slice b 0x10 32)) mat (if pubOnly t then mat else pubOf t p mat)
        let k := { k with
          uses := leAt b 0x30 8, next := leAt b 0x38 8, ceil := leAt b 0x40 8, burned := leAt b 0x48 8
          unusable := bitOf st 12, check := slice b 0x50 32 }
        some ({ index := handleIndex (leAt b 112 4), epoch := BitVec.ofNat 4 (fld st 16 4), key := k } :: ks)
      | _, _ => none

/-- The ring records of a body. -/
def savedRings (n : Nat) (b : Bytes) : List Bytes := (List.range n).map (fun i => slice b (16 + 40 * i) 40)

/-- A strand blob opened: its header and its body; none: it does not authenticate or is malformed. -/
def openStrand (b key kcv : Bytes) (ply : Bool) : Option Bytes :=
  let h := b.take 64
  if b.length < 80 || leAt b 0 4 ≠ 0x53424B41 || leAt b 4 1 ≠ 1 || leAt b 5 1 ≠ b2n ply ||
      slice b 0x0C 3 ≠ padTo 3 kcv || b.length ≠ 80 + leAt b 0x18 8 || leAt b 0x18 8 < 16 + 40 * leAt b 0x10 2 then none
  else aeadOpen 8 key (slice b 0x20 12) h (b.drop 64) 16

/-- The ordering group of a restored ring in the destination's range (R325). -/
def State.mapGroup (s : State) (f src og : Nat) : Option Nat :=
  let q := (s.strand f).quota
  if src ≤ og && decide (og - src < q.ogCount) then some (og - src + q.ogBase) else none

/-- Checks 3 to 6 of R325 on an opened blob, and the regeneration of R170. -/
def State.restoreErr (s : State) (f : Nat) (head : Bytes) (rings : List Bytes) (keys : List SavedKey) : Option (Nat × Nat) :=
  let entries := (keys.map (fun k => k.key.entries)).sum
  let spool := keys.any (fun k => k.key.policy.flag polPersist || stateful k.key.type)
  if (s.strand f).quota.maxRings < rings.length then some (resourceErr, 0x0102)
  else if s.entryQuota f < entries then some (resourceErr, 0x0141)
  else if (s.makeRoom ((keys.map (fun k => [1, k.key.run])).flatten) s.kst.keys.length).2.isNone then some (resourceErr, 0x0142)
  else if keys.any (fun k => !pubOnly k.key.type && decide (s.lineQuota f < k.key.lines)) then some (resourceErr, 0x0143)
  else if rings.any (fun r => (s.mapGroup f (leAt head 0x12 2) (fld (leAt r 8 8) 20 12)).isNone) then some (resourceErr, 0x0103)
  else if s.aliases f then some (busyErr, 0x0103)
  else if spool && !s.primaryWritable then some (spoolErr, if s.primaryOpen then 0x0142 else 0x0141)
  else if keys.any (fun k => !pubOnly k.key.type && !entryOk k.key.type k.key.mat) then some (keyErr, 0x010B)
  else none

/-- A restored ring: its settings, TAIL, DONE and pending count; its home frame anew by R231. -/
def State.restoreRing (s : State) (f src : Nat) (b : Bytes) : State :=
  let r := leAt b 8 1
  let g := s.newRing f b
  let done := BitVec.ofNat 32 (leAt b 28 4)
  s.setRing f r { g with
    ogrp := (s.mapGroup f src (fld (leAt b 8 8) 20 12)).getD 0
    tail := BitVec.ofNat 32 (leAt b 24 4), done := done, fetched := done, pendIrq := leAt b 32 2 }

/-- A restored key under the destination's number, with its INDEX and EPOCH. -/
def State.restoreKey (s : State) (f : Nat) (v : SavedKey) : State :=
  let slot := keySlot f v.index
  let persist := v.key.policy.flag polPersist
  let (n, s) := if persist then s.newRecno else (0, s)
  let (s, at_) := s.makeRoom [1, v.key.run] s.kst.keys.length
  let at_ := at_.getD []
  let k := { v.key with
    uid := s.kst.nextUid, lru := s.kst.clock, spoolRec := if persist then some (n, 1) else none
    hdr := at_.getD 0 0, halfA := at_[1]?, halfB := none, inBuffer := at_.length < 2 }
  ({ s with kst := { s.kst with
    keys := s.kst.keys.insert slot k, epoch := s.kst.epoch.put 0 slot v.epoch
    nextUid := s.kst.nextUid + 1, clock := s.kst.clock + 1 } } : State).armExpiry slot

/-- A restore is carried out (R326): rings, keys, STOPPED; the KEY and INDEX records of its keys commit before it ends, and with its
end the generation advances. -/
def State.restore (s : State) (j f : Nat) (head body : Bytes) (rings : List Bytes) (keys : List SavedKey) : State :=
  let src := leAt head 0x12 2
  let cfg := leAt body 8 4
  let s := s.setPage f { s.page f with
    admBase := BitVec.ofNat 64 (leAt body 0 8)
    admCfg := BitVec.ofNat 32 (setFld cfg 16 12 ((s.mapGroup f src (fld cfg 16 12)).getD 0)) }
  let s := rings.foldl (fun s b => s.restoreRing f src b) s
  let s := keys.foldl (fun s v => s.restoreKey f v) s
  let s := s.setStrand f { s.strand f with state := .stopped }
  let s := s.modJob j (fun x => { x with
    note := leAt head 6 2 + leAt head 0x0A 1 * 2 ^ 16 + leAt head 8 2 * 2 ^ 24 })
  let ws : List SplWork := keys.flatMap (fun v =>
    let slot := keySlot f v.index
    (if v.key.policy.flag polPersist then [.restKey slot j] else []) ++ (if stateful v.key.type then [.restIndex slot j] else []))
  if ws ≠ [] then (s.waitPhase j 2).commitWorks ws
  else
    match s.job? j with
    | some x => s.restored j x
    | none => s

/-- The checks of a blob and its restore; the blob of the ply route is answered. -/
def State.restoreFrom (s : State) (j f : Nat) (b key kcv : Bytes) (ply : Bool) : State :=
  let fail (s : State) (e : Nat × Nat) : State :=
    (if ply then s.plySend (.blobTaken f false) else s).doneErr j e.1 e.2
  match openStrand b key kcv ply with
  | none => fail s (abortedErr, 0x0101)
  | some body =>
    let n := leAt b 0x10 2
    match savedKeys (leAt b 0x14 4) (body.drop (16 + 40 * n)) with
    | none => fail s (abortedErr, 0x0101)
    | some keys =>
      let rings := savedRings n body
      match s.restoreErr f (b.take 64) rings keys with
      | some e => fail s e
      | none => (if ply then s.plySend (.blobTaken f true) else s).restore j f (b.take 64) body rings keys

/-- STRAND_RESTORE: on the ply route it waits for the sender (R107, R325, R326). -/
def execStrandRestore (job : Nat) (s : State) : Host.Outcome State Fault Refusal :=
  finish (match s.cmdJob job 0xF108 with
    | none => s
    | some x =>
      let f := x.strandNo
      if x.phase = 2 then s
      else if !s.vfEnabled f then s.doneErr job inputErr 0x0107
      else if (s.strand f).state ≠ .disabled || s.keysOf f ≠ [] then s.doneErr job conflictErr 0x0103
      else if bitOf x.param 12 then
        if !s.plyUp then s.doneErr job abortedErr 0x0102
        else
          match s.ply.blob with
          | some (g, b) =>
            if g ≠ f then s.waitPhase job 1
            else ({ s with ply := { s.ply with blob := none } } : State).restoreFrom job f b [] [] true
          | none => s.waitPhase job 1
      else
        match s.transferKek x 5 with
        | .error e => s.doneErr job e.1 e.2
        | .ok (slot, k) =>
          if k.atHand then (s.useKek slot k.uid).restoreFrom job f x.block k.mat (kcvOf 0x07 k.mat) false
          else if !s.spoolHas k then s.doneErr job spoolErr 0x0141
          else if x.phase = 0 then (s.fetchRecord slot).waitPhase job 1
          else s)

end Sys2Proof.Machine
end

