-- ==== Sys2Proof/Machine/Ply.lean ====
section
/-! DEFINITION. The ply link: training, messages, heartbeats, the end of a link, and PLY_CFG (R13, R141, R144, R329, R468,
R484). -/

namespace Sys2Proof.Machine

/-- A ply port. -/
def State.plyPort (s : State) (p : Nat) : PlyPort := if p = 0 then s.ply.p0 else s.ply.p1
/-- Write a ply port. -/
def State.setPlyPort (s : State) (p : Nat) (x : PlyPort) : State :=
  if p = 0 then { s with ply := { s.ply with p0 := x } } else { s with ply := { s.ply with p1 := x } }

/-- The port is enabled in PLY_CFG. -/
def State.plyEnabled (s : State) (p : Nat) : Bool := bitOf s.ply.cfg.toNat p

/-- Set events of a port and signal the manager's vector 0 (R484). -/
def State.plyEvent (s : State) (p : Nat) (bits : List Nat) : State :=
  let v := bits.foldl (fun (v : W32) b => setBit v (8 * p + b) true) s.ply.evt
  ({ s with ply := { s.ply with evt := v } } : State).signal 0 0

/-- No port carries a session: mirroring stops, replacements that wait for the mirror end with CONFLICT 0x0142, and transfers of
the ply route are aborted (Table 1.5, R107). -/
def State.plyGone (s : State) : State :=
  if s.plyUp then s
  else
    let s : State := if s.ply.p0.state = 2 || s.ply.p1.state = 2 then s else { s with ply := { s.ply with ord := 0 } }
    let s := s.each (s.kst.keys.map (·.1)) (fun s slot =>
      match s.key? slot with
      | some k =>
        match k.repl with
        | some r => if r.step = 3 then s.replFail slot r.job conflictErr 0x0142 else s
        | none => s
      | none => s)
    s.each (s.jobsWhere (fun x =>
        x.stage = .firmware && (x.opcode = 0xF107 || x.opcode = 0xF108) && bitOf x.param 12 && x.phase ≠ 0))
      (fun s j =>
        match s.job? j with
        | some x =>
          let s := if x.opcode = 0xF108 && x.phase = 2 then s.undoRestore x.strandNo else s
          s.doneErr j abortedErr 0x0102
        | none => s)

/-- A port that was up, or training, goes to a state; a session that ends sets SESSION_LOST. -/
def State.plyDown (s : State) (p state : Nat) : State :=
  let x := s.plyPort p
  let s := s.setPlyPort p { state := state }
  let s := if x.state = 2 then s.plyEvent p (if x.session then [1, 2] else [1]) else s
  s.plyGone

/-- PLY_TRAINING: the ordinal and the enables are sampled; a neighbour that would repeat an ordinal of the ring is refused (R13,
R468, R484). -/
def execPlyTraining (port : Nat) (refclk : Bool) (neighbour : Nat) (ring : List Nat) (lanes : BitVec 4) (session : Bool)
    (s : State) : Host.Outcome State Fault Refusal :=
  finish (let x := s.plyPort port
    if !s.live || 2 ≤ port || x.state = 2 then s
    else if !s.plyEnabled port then s.setPlyPort port { state := 5 }
    else if !refclk then s.setPlyPort port { state := 4 }
    else
      let ord := fld s.ply.cfg.toNat 2 3
      if neighbour = ord || ring.contains neighbour then (s.setPlyPort port { state := 3 }).plyEvent port [3]
      else if lanes = 0 then s.setPlyPort port { state := 1 }
      else
        let s : State := { s with ply := { s.ply with ord := ord } }
        (s.setPlyPort port { state := 2, lanes := lanes, session := session, partner := some neighbour }).plyEvent port [0])

/-- The partner has stored and verified a shadow, or has failed (Table 5.10 t3). -/
def State.shadowAcked (s : State) (slot : Nat) (ok : Bool) : State :=
  match s.key? slot with
  | some k =>
    match k.repl with
    | some r =>
      if r.step ≠ 3 || r.job = 0 then s
      else if ok then s.replPersist slot k r
      else s.replFail slot r.job conflictErr 0x0142
    | none => s
  | none => s

/-- The shadow of a replacement that runs on the partner is stored and verified, and the partner hears whether it was; a
replacement of the same key on both devices goes to the lower ordinal (Table 5.10 t3, R144). -/
def State.takeShadow (s : State) (ordinal owner index : Nat) (mat : Bytes) : State :=
  let slot := keySlot owner index
  let refuse := s.plySend (.shadowAck owner index false)
  let keep (s : State) : State :=
    match s.key? slot with
    | none => s
    | some k =>
      let pub := pubOf k.type k.param mat
      match s.makeRoom [k.run] s.kst.keys.length with
      | (s, some [a]) =>
        (s.setKey slot { k.setThere (some a) with
          repl := some { job := 0, step := 3, mat := mat, pub := pub, check := checkOf k.type pub mat } }).plySend
            (.shadowAck owner index true)
      | _ => refuse
  match s.key? slot with
  | none => refuse
  | some k =>
    let pub := pubOf k.type k.param mat
    if !k.policy.flag polMirror || stateful k.type || mat.length ≠ k.len || !entryOk k.type mat ||
        (!pubOnly k.type && !pctOk k.type mat pub) then refuse
    else
      match k.repl with
      | none => keep s
      | some r =>
        if r.job ≠ 0 && decide (r.step ≤ 3) && decide (ordinal < s.ply.ord) then
          keep (s.replFail slot r.job conflictErr 0x0142)
        else refuse

/-- A replacement that runs on the partner goes from its stored shadow to `next`: the flip at the next gap, or none, its shadow
wiped (Table 5.10 t3 and t5). -/
def State.twinStep (s : State) (slot : Nat) (next : Replacing → Option Replacing) : State :=
  match s.key? slot with
  | some k =>
    match k.repl with
    | some r =>
      if r.job = 0 && r.step = 3 then
        s.setKey slot (match next r with | some r => { k with repl := some r } | none => k.replDone)
      else s
    | none => s
  | none => s

/-- The type field that the trace gives a message: its values are not in the spec, so they are free (log 83). -/
def plyMsgCode (m : PlyMsg) : Nat :=
  let n : Nat := match m with
    | .shadowAck .. => 1 | .shadow .. => 2 | .flip .. => 3 | .wipeShadow .. => 4 | .strandBlob .. => 5 | .blobTaken .. => 6
    | .firmware kind _ => 7 + kind
  Config.count 0x10F50 [leBytes 8 n] % 256

/-- EV_PLY: a message for the key store, the strand mover or core T arrives on a port with a session (R141, R144, R107, R329). -/
def execEvPly (port : Nat) (msg : PlyMsg) (s : State) : Host.Outcome State Fault Refusal :=
  finish (let x := s.plyPort port
    if !s.live || 2 ≤ port || x.state ≠ 2 || !x.session then s
    else
      let ordinal := x.partner.getD 0
      let s := s.trace { event := 0x14, src := some 4, arg := plyMsgCode msg + ordinal % 8 * 2 ^ 8 }
      match msg with
      | .shadowAck owner index ok => s.shadowAcked (keySlot owner index) ok
      | .shadow owner index mat => s.takeShadow ordinal owner index mat
      | .flip owner index => s.twinStep (keySlot owner index) (fun r => some { r with step := 5 })
      | .wipeShadow owner index => s.twinStep (keySlot owner index) (fun _ => none)
      | .strandBlob strand blob =>
        if s.ply.blob.isSome then s.plySend (.blobTaken strand false)
        else { s with ply := { s.ply with blob := some (strand, blob) } }
      | .blobTaken strand ok =>
        match (s.transfers strand).filter (fun j =>
            match s.job? j with | some y => y.opcode = 0xF107 && bitOf y.param 12 && y.phase = 2 | none => false) with
        | j :: _ => if ok then s.done j [] else s.doneErr j abortedErr 0x0101
        | [] => s
      | .firmware kind words => { s with ply := { s.ply with inbox := s.ply.inbox ++ [(kind, words)] } })

/-- PLY_HEARTBEAT_MISS. -/
def execPlyHeartbeatMiss (port : Nat) (s : State) : Host.Outcome State Fault Refusal :=
  finish (if s.live && decide (port < 2) && (s.plyPort port).state = 2 then s.plyEvent port [4] else s)

/-- PLY_LINK_DOWN. -/
def execPlyLinkDown (port : Nat) (s : State) : Host.Outcome State Fault Refusal :=
  finish (if s.live && decide (port < 2) && ((s.plyPort port).state = 2 || (s.plyPort port).state = 1) then
    s.plyDown port 0 else s)

/-- PLY_CFG_WRITE: RWL; clearing an enable takes its port down at once (R11, R484). -/
def State.plyCfgWrite (s : State) (value : W32) : State :=
  if !s.barsOpen || s.glb.lock then s
  else
    let old := s.ply.cfg
    let s : State := { s with ply := { s.ply with cfg := value &&& 0x1F } }
    s.each [0, 1] (fun s p =>
      if bitOf old.toNat p && !bitOf value.toNat p then s.plyDown p 5
      else if !bitOf old.toNat p && bitOf value.toNat p && (s.plyPort p).state = 5 then s.setPlyPort p {}
      else s)

/-- The row PlyCfgWrite. -/
def execPlyCfgWrite (value : W32) (s : State) : Host.Outcome State Fault Refusal := finish (s.plyCfgWrite value)

end Sys2Proof.Machine
end

