-- ==== Sys2Proof/Machine/Recover.lean ====
section
/-! DEFINITION. How waits end and work is undone: deadline entries (R25, R95, R146, R337), the wait-for scan and rollback (R338
to R340), machine checks and retirement (R249 to R251, R277), and the timers of the pipeline: the cross-frame window (R237), warm
keys (R239). -/

namespace Sys2Proof.Machine

/-! ## Deadlines at S3 -/

/-- The detail of a SPOOL status at a deadline; with a writable primary, whose commit is only late, the spec gives none. -/
def State.spoolWaitDetail (s : State) : Nat × State :=
  if !s.primaryOpen then (0x0141, s)
  else if !s.primaryWritable then (0x0142, s)
  else
    let (n, s) := s.freeNum
    (n % 2 ^ 16, s)

/-- DEADLINE_EXPIRY: the deadline entry of a job that waits fires (R337). -/
def execDeadlineExpiry (job : Nat) (s : State) : Host.Outcome State Fault Refusal :=
  finish (match s.job? job with
    | none => s
    | some x =>
      if !s.lateNow x then s
      else
        match x.stage with
        | .waiting .randomness => s.refuse job rngErr (if s.glb.seededThisBoot then 0x0A01 else 0x0A02) 0
        | .waiting .index =>
          let (d, s) := s.spoolWaitDetail
          s.refuse job spoolErr d 0
        | .waiting _ => s.refuse job deadlineErr 1 0
        | .firmware =>
          if x.phase = 1 then ((s.cancelDrain job).doneErr job deadlineErr 1).modJob job (fun x => { x with fLate := false })
          else s
        | _ => s)

/-! ## The wait-for scan -/

/-- A job is blocked: its claim failed, it is a held token, or its result finds no room. -/
def State.blocked (s : State) (j : Nat) : Bool :=
  match s.job? j with
  | some x =>
    match x.stage with
    | .deque _ _ | .ended => x.since ≠ 0
    | .held => !s.myTurn x
    | _ => false
  | none => false

/-- The jobs that hold the units and the bank a job of creel `c` of frame `f` lacks (R338). The islands beside the creels, 15, have
none of these units. -/
def State.unitHolders (s : State) (x : Job) (f c : Nat) : List Nat :=
  let us := List.range 12
  let at_ (p : Unit' → Option Nat) (us : List Nat) : List Nat := us.filterMap (fun u => p (s.unit f c u))
  let spindles :=
    if needsSpindle x && us.all (fun u => !s.spindleFor x f c u) then
      at_ (·.job) us ++ (if s.banks8 x then at_ (·.lent) us else [])
    else []
  let carder := if needsCarder x && !s.idle f c 12 then at_ (·.job) [12] else []
  let bank :=
    if needsCarder x && (s.bankFor f c).isNone then
      at_ (·.lent) us ++ (at_ (·.job) us).filter (fun k => match s.job? k with | some y => s.banks8 y | none => false)
    else []
  if c = 15 then [] else spindles ++ carder ++ bank

/-- A finished job finds no room in its frame's retire buffer (R230). -/
def State.retireFull (s : State) (x : Job) : Bool := !streams x && decide (2 ^ 26 < s.retireUsed (s.sealFrame x) + x.result.length)

/-- The wait-for edges of a blocked job (R338): of a claim that failed, for each kind of thing it lacks. -/
def State.waitsFor (s : State) (j : Nat) : List Nat :=
  match s.job? j with
  | none => []
  | some x =>
    match x.stage with
    | .deque f c =>
      let space :=
        if (s.claimCache j x.lines).isNone then
          s.jobsWhere (fun y =>
            y.pinned && (match x.key, y.key with | some (a, _), some (b, _) => a / 262144 = b / 262144 | _, _ => false))
        else []
      (space ++ s.unitHolders x f c).filter (· ≠ j)
    | .held =>
      s.jobsWhere (fun y => y.stamp.isSome && y.ogrp = x.ogrp && s.myTurn y)
    | .ended => if s.retireFull x then s.jobsWhere (fun y => y.stage = .held && s.sealFrame y = s.sealFrame x) else []
    | _ => []

/-- A shortest cycle through `goal`: the paths from it, each listed from its end, grow by one edge a round over the jobs not `seen`
yet, until an edge leads back. -/
def cycleThrough (adj : Nat → List Nat) (goal : Nat) : Nat → List (List Nat) → List Nat → List Nat
  | 0, _, _ => []
  | n + 1, paths, seen =>
    match paths.find? (fun p => (p.head?.map (fun k => (adj k).contains goal)).getD false) with
    | some p => p
    | none =>
      let grown := paths.foldl (fun (acc : List (List Nat) × List Nat) p =>
        let more := ((p.head?.map adj).getD []).filter (fun k => !acc.2.contains k)
        (acc.1 ++ more.map (fun k => k :: p), acc.2 ++ more)) ([], seen)
      cycleThrough adj goal n grown.1 grown.2

/-- The blocked jobs of a shortest cycle of edges through a blocked job in which every job is blocked (R339, log 100). -/
def State.cycleOf (s : State) (j : Nat) : List Nat :=
  let bs := (s.jobs.map (·.1)).filter s.blocked
  let adj (k : Nat) : List Nat := ((s.waitsFor k).filter bs.contains).eraseDups
  if bs.contains j then cycleThrough adj j bs.length [[j]] [j] else []

/-- The job of a list whose first admission came last. -/
def State.youngest (s : State) (js : List Nat) : Option Nat :=
  leastOf (fun j => s.admissions - (((s.job? j).bind (·.admitted)).getD 0)) js

/-- A job is wiped and returns to S3 as the next of its ring: everything it holds is released, its stamp kept. -/
def State.backToS3 (s : State) (j : Nat) : State :=
  let s := (((((s.unuse j).unreserve j).burn j).undeal j).freeUnits j true)
  s.modJob j (fun x => { x with
    stage := .s3, tagged := false, checked := false, fRetried := true, fHeld := false, rnd := [], input := none, aux := none,
    place := none, thief := none, pinned := false, lines := 0, cycles := 0, result := [], winner := none, nextAttempt := 0,
    major := 0, detail := 0, resLen := 0, since := 0, engine := 0 })

/-- A rollback (R340); `n` jobs were on the cycle. -/
def State.rollback (s : State) (j n : Nat) : State :=
  match s.job? j with
  | none => s
  | some x =>
    let loc := s.locOf x
    let s := (s.backToS3 j)
    let s := { s with hdl := { s.hdl with cntRollback := satInc s.hdl.cntRollback } }
    s.trace (x.ev 0x0B none loc (n % 256))

/-- The jobs a scan examines: those that have been blocked for HDL_WF.TMO µs or longer (0 acts as 1), while EN is 1 (R339). -/
def State.scanned (s : State) : List Nat :=
  let wf := s.hdl.wf.toNat
  if !s.live || !bitOf wf 0 then []
  else
    let old (x : Job) : Bool := x.since ≠ 0 && decide (x.since - 1 + max 1 (fld wf 16 16) ≤ s.now)
    (s.jobs.filter (fun e => s.blocked e.1 && old e.2)).map (·.1)

/-- The youngest job of a cycle through a job is rolled back, and again while the job still lies on a cycle: each cycle that the scan
finds is broken (R339). -/
def State.breakCycles (s : State) (j : Nat) : Nat → State
  | 0 => s
  | fuel + 1 =>
    let c := s.cycleOf j
    match s.youngest c with
    | some v => (s.rollback v c.length).breakCycles j fuel
    | none => s

/-- WAIT_FOR_SCAN: every 10 µs, of each cycle that a job examined lies on the youngest job is rolled back (R339). -/
def execWaitForScan (s : State) : Host.Outcome State Fault Refusal :=
  finish ((s.each s.scanned (fun s j => s.breakCycles j s.jobs.length)).dlRemove 7 .waitForScan |>.dlInsert 7 (s.now + 10)
    .waitForScan)

/-! ## Machine checks (R249 to R251) -/

/-- The window of an hour over which machine checks count, in µs. -/
def mchkWindow : Nat := 3600000000

/-- The checks of a list that fall within the last hour. -/
def recent (now : Nat) (l : List Nat) : List Nat := l.filter (fun t => decide (now < t + mchkWindow))

/-- The use of an aborted job is returned: to its reservation when the job will compute again (R126, R250). -/
def State.returnUse (s : State) (j : Nat) (again : Bool) : State :=
  match s.job? j with
  | none => s
  | some x =>
    match x.used, x.key with
    | true, some (slot, k) =>
      let s := s.unuse j
      if again then
        (s.modKey slot k.uid (fun k => { k with reserved := k.reserved + x.useCount })).modJob j
          (fun x => { x with reserved := true })
      else s
    | _, _ => if again then s else s.unreserve j

/-- The job on a unit that took a machine check: the first time it is requeued ripe, the second time it completes with INTEGRITY
0x0401 (R250). A held creel's job goes to another creel of its frame; where the frame has none with room, it stays (log 130). -/
def State.mchkJob (s : State) (j f c : Nat) : State :=
  match s.job? j with
  | none => s
  | some x =>
    let again := x.mchk = 0
    let eng := s.engineAt x
    let s := ((s.returnUse j again).burn j).freeUnits j true
    let (n, s) := s.freeNum
    let s := s.modJob j (fun y => { y with
      mchk := x.mchk + 1, rnd := [], input := none, aux := none, place := none, thief := none, pinned := false, result := [],
      winner := none, nextAttempt := 0, since := 0, fRetried := y.fRetried || again })
    if again then
      match if s.creelHeld f c then s.dealIn x f true else .creel f c with
      | .creel g d => s.enterDeque j g d true
      | _ => s.enterDeque j f c true
    else
      s.modJob j (fun y => { y with
        stage := .s6, major := integrityErr, detail := 0x0401, resLen := 0, engine := eng, cycles := n })

/-- A unit's or creel's third check within the hour (R251). -/
def State.retireUnits (s : State) (f c u cause : Nat) : State :=
  let v := s.unit f c u
  let s := if cause ≠ 2 && decide (3 ≤ v.mchks.length) then
      s.setUnit f c u { v with retired := true, retired3 := v.retired3 || cause = 3, warm := none } else s
  let x := s.creel f c
  let all := (List.range 13).all (fun w => (s.unit f c w).retired)
  if (cause = 2 && decide (3 ≤ x.nano.length)) || all then s.setCreel f c { x with heldRetired := true } else s

/-- A machine check of a unit; `bank` is the nano-store bank of cause 2. -/
def State.machineCheck (s : State) (f c u cause bank : Nat) : State :=
  let holder := (s.unit f c u).job
  let loc := locCode s.dev f c u
  let job := holder.bind s.job?
  let ev : Ev := match job with
    | some x => x.ev 0x0C none loc cause
    | none => { event := 0x0C, src := none, loc := some loc, arg := cause }
  let v := s.unit f c u
  let s := s.setUnit f c u { v with
    recovering := some (cause + (if cause = 2 then 16 * bank else 0)), warm := none, micro := {}
    mchks := if cause = 2 then v.mchks else recent s.now v.mchks ++ [s.now] }
  let x := s.creel f c
  let s := s.setCreel f c { x with
    mchkTotal := satInc x.mchkTotal, mchkCause := BitVec.ofNat 4 cause, mchkLoc := loc
    nano := if cause = 2 then recent s.now x.nano ++ [s.now] else x.nano
    reloading := if cause = 2 then setBit x.reloading bank true else x.reloading }
  let s := s.setFrame f { s.frame f with cntMchk := satInc (s.frame f).cntMchk }
  let s := s.retireUnits f c u cause
  (match holder with | some j => s.mchkJob j f c | none => s).trace ev

/-- The cause suits the unit: 5 the carder, the others a spindle. -/
def causeSuits (unit cause : Nat) : Bool :=
  if cause = 5 then unit = 12 else decide (1 ≤ cause ∧ cause ≤ 4) && decide (unit < 12)

/-- MACHINE_CHECK: an error of Table 8.5 strikes a unit. Which nano-store bank cause 2 strikes is a free value. -/
def execMachineCheck (frame creel unit cause : Nat) (s : State) : Host.Outcome State Fault Refusal :=
  finish (if s.live && frame < 4 && creel < 11 && causeSuits unit cause && (s.unit frame creel unit).recovering.isNone then
      (if cause = 2 then
        let (n, s) := s.freeNum
        s.machineCheck frame creel unit 2 (n % 4)
       else s.machineCheck frame creel unit cause 0)
    else s)

/-- The watchdog bound of a CUSTOM job, in cycles (R277). -/
def Job.watchdogBound (x : Job) (e : RtnEntry) : Nat := e.base * 1024 + e.slope * ceilDiv (x.inLen + x.auxLen) 64

/-- WATCHDOG_EXPIRY: a routine that has run longer than its bound takes a machine check of cause 4 (R277). How long it has waited
for an input piece or a bank's reload is not counted in the model, so there the expiry is taken at its word (log 98). -/
def execWatchdogExpiry (frame creel spindle : Nat) (s : State) : Host.Outcome State Fault Refusal :=
  finish (match (s.unit frame creel spindle).job.bind s.job? with
    | some x =>
      match s.customEntry x with
      | some e =>
        let m := (s.unit frame creel spindle).micro
        if s.live && spindle < 12 && x.opClass = 9 && x.stage = .s5 && (m.wantPiece || m.stalled || decide (x.watchdogBound e < m.cycles)) then
          s.machineCheck frame creel spindle 4 0
        else s
      | none => s
    | none => s)

/-- MCHK_RECOVERY_END: the unit is back in dealing unless it is retired, and its nano-store bank is reloaded (R250, R265). -/
def execMchkRecoveryEnd (frame creel unit : Nat) (s : State) : Host.Outcome State Fault Refusal :=
  finish (
    let v := s.unit frame creel unit
    match v.recovering with
    | none => s
    | some n =>
      let s := s.setUnit frame creel unit { v with recovering := none }
      if n % 16 = 2 then
        s.setCreel frame creel { s.creel frame creel with reloading := setBit (s.creel frame creel).reloading (n / 16) false }
      else s)

/-- MCHK_WINDOW_SWEEP: the machine checks older than an hour no longer count (R251). -/
def execMchkWindowSweep (s : State) : Host.Outcome State Fault Refusal :=
  finish (
    let s := (s.dlRemove 7 .mchkWindowSweep).dlInsert 7 (s.now + mchkWindow) .mchkWindowSweep
    { s with
      units := s.units.each (fun _ v => { v with mchks := recent s.now v.mchks })
      creels := s.creels.each (fun _ x => { x with nano := recent s.now x.nano }) })

/-! ## Timers of the pipeline -/

/-- XSTEAL_WINDOW: the budget is set again. -/
def execXstealWindow (frame : Nat) (s : State) : Host.Outcome State Fault Refusal :=
  finish (if frame < 4 then s.newWindow frame else s)

/-- FRM_XSTEAL_WRITE: the window in progress ends, and one of the new values begins. -/
def State.xstealWrite (s : State) (frame : Nat) (value : W32) : State :=
  if frame < 4 && s.barsOpen then
    (s.setFrame frame { s.frame frame with xsteal := value }).newWindow frame else s

/-- The row FrmXstealWrite. -/
def execFrmXstealWrite (frame : Nat) (value : W32) (s : State) : Host.Outcome State Fault Refusal := finish (s.xstealWrite frame value)

/-- WARM_KEY_TIMEOUT: a spindle idle for WARM_TMO µs wipes its warm key (R239). -/
def execWarmKeyTimeout (frame creel spindle : Nat) (s : State) : Host.Outcome State Fault Refusal :=
  finish (
    let v := s.unit frame creel spindle
    if spindle < 12 && v.job.isNone && v.warm.isSome &&
        decide (v.idleAt + fld (s.creel frame creel).ctl.toNat 16 16 ≤ s.now) then
      s.setUnit frame creel spindle { v with warm := none }
    else s)

end Sys2Proof.Machine
end

