-- ==== Sys2Proof/Machine/Power.lean ====
section
/-! DEFINITION. Creel clocks, the capping loop and spindle gating (R252 to R254). -/

namespace Sys2Proof.Machine

/-- Change the clock of every creel. -/
def State.eachFreq (s : State) (g : Nat → Nat) : State :=
  s.each (List.range 44) (fun s k =>
    let x := s.creels.getD k {}
    { s with creels := s.creels.put {} k { x with freq := g x.freq } })

/-- Every creel's clock passes a test. -/
def State.allFreq (s : State) (p : Nat → Bool) : Bool := (List.range 44).all (fun k => p (s.creels.getD k {}).freq)

/-- UNMET clears when the clocks have risen above 0.80 GHz (R254). -/
def State.clearUnmet (s : State) : State :=
  { s with cap := { s.cap with unmet := s.cap.unmet && !s.allFreq (16 < ·) } }

/-- CAP_W in tenths of a watt: 0 no cap, 1 to 59 W act as 60 W (R253). -/
def State.capDw (s : State) : Nat :=
  let w := fld s.cap.cap.toNat 0 16
  if w = 0 then 0 else 10 * max 60 w

/-- A condition of R253 holds: the clocks go down by 50 MHz; 100 ms of it at 0.80 GHz set UNMET and GATED (R254). -/
def State.capDown (s : State) : State :=
  let floor := s.allFreq (· ≤ 16)
  let s := s.eachFreq (fun n => max 16 (n - 1))
  let ms := if floor then s.cap.floorMs + 1 else 0
  let s := { s with cap := { s.cap with lowered := true, clear := 0, gateClear := 0, above := true, floorMs := ms } }
  if 100 ≤ ms && !s.cap.gated then
    ({ s with cap := { s.cap with unmet := true, gated := true } } : State).signal 0 0
  else s

/-- No condition holds: after ten consecutive clear intervals the clocks rise by 50 MHz an interval toward the set point; with no
condition enabled they rise at once. -/
def State.capUp (s : State) (margin free : Bool) : State :=
  let n := if margin then s.cap.clear + 1 else 0
  let s := { s with cap := { s.cap with above := false, floorMs := 0, clear := n, gateClear := s.cap.gateClear + 1 } }
  let sp := s.setPoint
  if s.cap.gated || !(decide (10 ≤ n) || free) then s
  else
    let s := (s.eachFreq (fun n => if n < sp then n + 1 else n)).clearUnmet
    { s with cap := { s.cap with lowered := s.cap.lowered && !s.allFreq (sp ≤ ·) } }

/-- CAPPING_INTERVAL: one millisecond of the loop, with the package power averaged over it in tenths of a watt and the junction
temperature in tenths of a degree (R253, R254); the next interval is due a millisecond later (R335). -/
def execCappingInterval (powerDw : Nat) (junction : Int) (s : State) : Host.Outcome State Fault Refusal :=
  finish (if !s.live then s
    else
      let s := (s.dlRemove 7 (.cappingInterval 0 0)).dlInsert 7 (s.now + 1000) (.cappingInterval 0 0)
      let cap := s.capDw
      let therm := bitOf s.cap.cap.toNat 16
      let hot := therm && decide (1000 < junction)
      let s := { s with cap := { s.cap with pkgDw := powerDw % 65536, therm := hot } }
      if (cap ≠ 0 && decide (cap < powerDw)) || hot then s.capDown
      else s.capUp ((cap = 0 || decide (powerDw + 50 < cap)) && (!therm || decide (junction ≤ 950))) (cap = 0 && !therm))

/-- GATE_STEP: every 10 ms while gated, GATE_N goes down to 4 while the condition holds, and up once it has been clear for 10 ms;
at 12 gating ends (R254). -/
def execGateStep (s : State) : Host.Outcome State Fault Refusal :=
  finish (if !s.cap.gated then s
    else if s.cap.above then { s with cap := { s.cap with gateN := max 4 (s.cap.gateN - 1) } }
    else if 10 ≤ s.cap.gateClear then
      (if 11 ≤ s.cap.gateN then { s with cap := { s.cap with gateN := 12, gated := false } }
       else { s with cap := { s.cap with gateN := s.cap.gateN + 1 } })
    else s)

/-- DVFS_STEP: a creel island moves one step of 50 MHz toward the set point; while capping holds the clocks down none rises
(R252); UNMET clears as the clocks rise (R254). -/
def execDvfsStep (frame creel : Nat) (s : State) : Host.Outcome State Fault Refusal :=
  finish (if s.live && frame < 4 && creel < 11 then
      let x := s.creel frame creel
      if s.setPoint < x.freq then s.setCreel frame creel { x with freq := x.freq - 1 }
      else if x.freq < s.setPoint && !s.cap.lowered then (s.setCreel frame creel { x with freq := x.freq + 1 }).clearUnmet
      else s
    else s)

/-- PWR_CRL_SET_WRITE: the set point's field [4:0] is written (R252, R255). -/
def State.crlSetWrite (s : State) (value : W32) : State :=
  if s.barsOpen then { s with cap := { s.cap with set := value &&& 0x1F } } else s

/-- The row PwrCrlSetWrite. -/
def execPwrCrlSetWrite (value : W32) (s : State) : Host.Outcome State Fault Refusal := finish (s.crlSetWrite value)

end Sys2Proof.Machine
end

