-- ==== Sys2Proof/Machine/Regs.lean ====
section
/-! DEFINITION. The register windows BAR0 and BAR2: where an address leads (R477 to R479, R486), what each register reads as
(the register tables of each chapter), which registers a read clears (R480), and what a write does (R8, R11, Table 0.4).
Every register of the map lies at an offset that is a multiple of eight, so a location is found for the aligned eight bytes. -/

namespace Sys2Proof.Machine

/-! ## Where an address leads (Tables 19.1 and 19.2) -/

/-- A register location: the table the register is in, and its offset there. -/
inductive RegLoc where
  /-- assigned to no register (R479) -/
  | reserved
  /-- identity, status and generation of a function (Tables 3.11, 11.10) -/
  | page (fn off : Nat)
  /-- administrative ring and mailbox of a function (Tables 4.1, 11.5) -/
  | box (fn off : Nat)
  /-- MBX_PENDi (Table 11.5) -/
  | pend (i : Nat)
  /-- ring doorbell (Table 3.6) -/
  | bell (fn ring : Nat)
  /-- MSI-X table entry: `hi` 0 the address, 1 data and control -/
  | msix (fn vec hi : Nat)
  /-- 64 bits of the PBA -/
  | pba (fn i : Nat)
  | glb (off : Nat)
  | hst (off : Nat)
  | str (s off : Nat)
  | hdl (off : Nat)
  | sht (i off : Nat)
  | kst (off : Nat)
  | spl (off : Nat)
  | ply (off : Nat)
  | rng (off : Nat)
  | dge (off : Nat)
  | slot (n off : Nat)
  | tmp (off : Nat)
  | lcs (off : Nat)
  | pwr (off : Nat)
  | trc (off : Nat)
  | frm (f off : Nat)
  | creel (f c off : Nat)
  | mcs (off : Nat)
  | hbm (off : Nat)
  | crx (off : Nat)
  /-- debug window of a core (R486) -/
  | debug (core off : Nat)
  /-- the shadow of a register of the shadowed data class (R442) -/
  | shadow (of : RegLoc)
deriving DecidableEq, Repr

/-- A block of 64 KiB whose registers lie below 0x8000. -/
def below (off : Nat) (l : RegLoc) : RegLoc := if off < 0x8000 then l else .reserved

/-- A block of the shadowed data class. -/
def shadowed (off : Nat) (l : Nat → RegLoc) : RegLoc := if off < 0x8000 then l off else .shadow (l (off - 0x8000))

/-- The location of eight bytes of BAR0 of a function. -/
def locate0 (fn a : Nat) : RegLoc :=
  let mbx := if fn = 0 then 0x1000 else 0x100
  let bells := if fn = 0 then 0x10000 else 0x1000
  let rings := if fn = 0 then 256 else 64
  let msix := if fn = 0 then 0x80000 else 0x8000
  let vecs := if fn = 0 then 256 else 16
  let pba := if fn = 0 then 0xC0000 else 0xC000
  if a < 0x30 then .page fn a
  else if decide (mbx ≤ a) && decide (a < mbx + 0x20) then .box fn (a - mbx)
  else if fn = 0 && decide (0x1100 ≤ a) && decide (a < 0x1180) then .pend ((a - 0x1100) / 8)
  else if decide (bells ≤ a) && decide (a < bells + 0x40 * rings) && (a - bells) % 0x40 = 0 then .bell fn ((a - bells) / 0x40)
  else if decide (msix ≤ a) && decide (a < msix + 16 * vecs) then .msix fn ((a - msix) / 16) ((a - msix) % 16 / 8)
  else if decide (pba ≤ a) && decide (a < pba + (if fn = 0 then 32 else 8)) then .pba fn ((a - pba) / 8)
  else .reserved

/-- The location of eight bytes of BAR2. -/
def locate2 (a : Nat) : RegLoc :=
  let b := a / 0x10000
  let off := a % 0x10000
  if b = 0x00 then below off (.glb off)
  else if b = 0x01 then below off (.hst off)
  else if b = 0x02 then .str (off / 0x40) (off % 0x40)
  else if b = 0x04 then below off (.hdl off)
  else if b = 0x05 then below off (.sht (off / 0x1000) (off % 0x1000))
  else if b = 0x06 then shadowed off .kst
  else if b = 0x07 then below off (.spl off)
  else if b = 0x08 then below off (.ply off)
  else if b = 0x09 then below off (.rng off)
  else if b = 0x0A then
    (if off < 0x1000 then .dge off
     else if off < 0x1400 then .slot (48 + (off - 0x1000) / 0x100) (off % 0x100) else .reserved)
  else if b = 0x0B then shadowed off .tmp
  else if b = 0x0C then shadowed off .lcs
  else if b = 0x0D then below off (.pwr off)
  else if b = 0x0E then below off (.trc off)
  else if decide (0x10 ≤ b) && decide (b < 0x20) then
    let f := (a - 0x100000) / 0x40000
    let r := (a - 0x100000) % 0x40000
    if r < 0x4000 then .frm f r
    else if r / 0x4000 ≤ 11 then .creel f (r / 0x4000 - 1) (r % 0x4000) else .reserved
  else if b = 0x20 then below off (.mcs off)
  else if b = 0x30 then below off (.hbm off)
  else if b = 0x40 then .crx off
  else if decide (0x41 ≤ b) && decide (b ≤ 0x45) then .debug (b - 0x41) off
  else .reserved

/-- The location of the aligned eight bytes that hold an address of a window. -/
def locate (bar : Bar) (fn offset : Nat) : RegLoc :=
  match bar with
  | .bar0 => locate0 fn (offset / 8 * 8)
  | .bar2 => locate2 (offset / 8 * 8)
  | .config => .reserved

/-- The access is to a window that exists, naturally aligned and of 4 or 8 bytes (R8, R477, R478). -/
def State.accessOk (s : State) (bar : Bar) (fn offset size : Nat) : Bool :=
  (size = 4 || size = 8) && offset % size = 0 &&
    (match bar with
     | .bar0 => s.fnThere fn && decide (offset < (if fn = 0 then 0x100000 else 0x10000))
     | .bar2 => fn = 0 && decide (offset < 0x2000000)
     | .config => false)

/-! ## What each register reads as -/

/-- Put fields together: value and lowest bit of each. -/
def pack (l : List (Nat × Nat)) : Nat := (l.map (fun e => e.1 * 2 ^ e.2)).sum

/-- The bits of a list of truth values, the first at bit 0. -/
def bits (l : List Bool) : Nat := l.foldr (fun b n => b2n b + 2 * n) 0

/-- Code of a strand's state (Table 11.1). -/
def strandCode : StrandState → Nat
  | .disabled => 0 | .enabled => 1 | .draining => 2 | .stopped => 3

/-- The function page (Tables 3.11 to 3.13, 11.10). -/
def State.readPage (s : State) (fn off : Nat) : Nat :=
  let p := s.page fn
  match off with
  | 0x00 => if fn = 0 then 0x1F3C9528 else 0x1F3C9529
  | 0x08 => b2n p.halted
  | 0x10 => p.fault.toNat
  | 0x18 => p.dbDrop.toNat
  | 0x20 => pack [(strandCode (s.strand fn).state, 16), ((s.strand fn).gen.toNat, 0)]
  | 0x28 => p.late.toNat
  | _ => 0

/-- The administrative ring and the mailbox (Tables 4.1, 4.2, 11.5). -/
def State.readBox (s : State) (fn off : Nat) : Nat :=
  let p := s.page fn
  let destroying := match s.ring? fn 0 with | some g => g.destroying | none => false
  match off with
  | 0x00 => p.admBase.toNat
  | 0x08 => pack [(p.admCfg.toNat, 0), (b2n destroying, 30)]
  | 0x18 => if fn = 0 then 0 else p.mbxSts.toNat
  | _ => 0

/-- The GLB_ block (Tables 0.2, 2.2 to 2.5, 19.3). -/
def State.readGlb (s : State) (off : Nat) : Nat :=
  let g := s.glb
  match off with
  | 0x00 => glbId
  | 0x08 => glbStep
  | 0x10 => glbCap0
  | 0x40 => pack [(g.haltCause.toNat, 16), (g.prev.toNat, 8), (g.mode.toNat, 0)]
  | 0x48 => pack [(g.fail.toNat, 16), (g.step.toNat, 12), (g.cause.toNat, 8), (b2n g.frozen, 7), (b2n g.epochNew, 6),
      (b2n g.zeroizedInVigil, 5), (b2n g.lcResumed, 4), (b2n g.firstStart, 3), (b2n g.drsSlot, 2),
      (b2n g.drsSlot0Spoiled, 1), (b2n g.creelHeld, 0)]
  | 0x60 => b2n g.lock
  | 0x80 => g.ptcBoot.toNat
  | 0x88 => g.ptcLife.toNat
  | 0x90 => g.boots.toNat
  | 0x98 => pack [(b2n s.ckptOff, 5), (b2n g.bootsRestarted, 4), (g.lifeSrc.toNat, 2), (b2n g.oscUsed, 1), (b2n g.osc, 0)]
  | _ => 0

/-- The HST_ block (Table 19.4). -/
def State.readHst (s : State) (off : Nat) : Nat :=
  let h := s.host
  match off with
  | 0x00 => pack [(h.width.toNat, 8), (b2n h.flit, 7), (b2n h.ide, 6), (h.selIde.toNat, 3), (h.speed.toNat, 0)]
  | 0x08 => h.err.toNat
  | 0x10 => h.cntDmaErr.toNat
  | 0x18 => h.atsInval
  | _ => 0

/-- A strand's entry of the STR_ block (Tables 11.11 to 11.14); entry 0 reads 0 (R328). -/
def State.readStr (s : State) (n off : Nat) : Nat :=
  let t := s.strand n
  if n = 0 then 0
  else match off with
  | 0x00 => pack [(t.gen.toNat, 48), (s.ringCount n, 32), (b2n t.dlogBuf, 8), (b2n t.dlogOn, 7), (b2n (s.page n).halted, 6),
      (b2n (!(s.oldJobs n).isEmpty), 5), (strandCode t.state, 0)]
  | 0x08 => t.comm.toNat
  | 0x10 => t.mbx.toNat
  | 0x18 => t.lateTot.toNat
  | 0x20 => t.dlogOut.toNat
  | 0x28 => t.level / 2 ^ 20
  | 0x30 => s.inflight n
  | _ => 0

/-- The HDL_ block (Tables 12.8 to 12.10). -/
def State.readHdl (s : State) (off : Nat) : Nat :=
  let h := s.hdl
  let og := h.og.getD (fld h.ogSel.toNat 0 12) (0, 0)
  match off with
  | 0x00 => h.wt.toNat
  | 0x08 => h.wf.toNat
  | 0x10 => pack [(min 0xFFFF (s.jobsWhere (fun x => x.stage = .held)).length, 32), (s.poolFree, 0)]
  | 0x18 => h.cntEarly.toNat
  | 0x20 => h.cntEvict.toNat
  | 0x28 => h.cntRollback.toNat
  | 0x30 => h.ogSel.toNat
  | 0x38 => pack [(og.1.toNat, 32), (og.2.toNat, 0)]
  | _ =>
    if decide (0x40 ≤ off) && decide (off < 0x80) then
      pack [(h.high.getD ((off - 0x40) / 8) 0, 32), ((s.dl ((off - 0x40) / 8)).length, 0)] else 0

/-- A shuttle instance (Tables 12.12 to 12.14). WAITING saturates at 31, and counts a holder that an emergency grant suspended. SHT_STS shows the holder of the lowest lane held (log 70). -/
def State.readSht (s : State) (i off : Nat) : Nat :=
  let x := s.shuttle i
  match off with
  | 0x00 => x.cfg.toNat
  | 0x08 => x.starve.toNat
  | 0x10 =>
    let waiting := min 31 (x.waiting.length + (x.grants.filter (fun e => e.2.susp.isSome)).length)
    match x.grants with
    | [] => waiting
    | (_, g) :: _ => pack [(g.slot, 12), (1, 11), (if shtLanes i = 1 then g.cls.getD (s.shtClass i g.slot) else s.shtClass i g.slot, 9), (b2n g.emerg, 8), (waiting, 0)]
  | 0x18 => x.evt.toNat
  | 0x20 => x.irqEn.toNat
  | 0x28 => x.cntPreempt.toNat
  | 0x30 => x.cntStale.toNat
  | _ =>
    if decide (0x100 ≤ off) && decide (off < 0x200) then
      let r := (off - 0x100) / 0x10
      if off % 0x10 = 0 then s.shtReq i r else (x.cnt.getD r 0).toNat
    else 0

/-- The KST_ block (Table 19.5). -/
def State.readKst (s : State) (off : Nat) : Nat :=
  let k := s.kst
  match off with
  | 0x00 => pack [(s.entriesUsed, 32), (b2n (k.keys.any (fun e => e.2.repl.isSome)), 3), (b2n k.rebuild, 2), (b2n s.glb.root, 1),
      (b2n s.vigil.nonce.isSome, 0)]
  | 0x08 => ceilDiv ((s.allKeys.filter (fun e => e.2.cached)).map (fun e => e.2.lines)).sum 4
  | 0x10 => k.cntMissHbm.toNat
  | 0x18 => k.cntMissSpool.toNat
  | 0x20 => k.cntEvict.toNat
  | _ => 0

/-- Status of a spool port (Table 10.13). -/
def Spl.sts (x : Spl) : Nat :=
  pack [(x.used, 32), (x.lifeField, 18), (b2n x.rb, 11), (b2n x.ro, 10), (b2n x.warn, 9), (b2n x.pres, 8), (x.role, 4),
    (x.state, 0)]

/-- The SPL_ block (Tables 10.11 to 10.14). -/
def State.readSpl (s : State) (off : Nat) : Nat :=
  match off with
  | 0x00 => s.spl.cfg.toNat
  | 0x08 => s.spl.a.sts
  | 0x10 => s.spl.b.sts
  | 0x18 => s.spl.evt.toNat
  | 0x20 => s.spl.cntErr.toNat
  | _ => 0

/-- Status of a ply port (Table 19.6). -/
def PlyPort.sts (x : PlyPort) : Nat :=
  pack [(x.lanes.toNat, 9), (b2n x.session, 8), (b2n x.partner.isSome, 7), (x.partner.getD 0, 4), (x.state, 0)]

/-- The PLY_ block (Table 19.6). -/
def State.readPly (s : State) (off : Nat) : Nat :=
  match off with
  | 0x00 => s.ply.cfg.toNat
  | 0x08 => s.ply.p0.sts
  | 0x10 => s.ply.p1.sts
  | 0x18 => s.ply.evt.toNat
  | 0x20 => s.ply.cntErr.toNat
  | _ => 0

/-- The RNG_ block (Tables 14.7 to 14.11). -/
def State.readRng (s : State) (off : Nat) : Nat :=
  let r := s.rng
  let src (n : Nat) : Nat :=
    let x := s.src n
    pack [(x.rctFails.toNat, 48), (x.aptFails.toNat, 32), (x.unitFails.toNat, 16), (x.units, 8), (x.state, 0)]
  match off with
  | 0x00 => pack [(r.resBits, 32), (bits ((List.range 6).map (fun i => (s.inst i).seeded)), 16), ((s.src 2).state, 12),
      ((s.src 1).state, 10), ((s.src 0).state, 8), (r.state, 0)]
  | 0x08 => r.cfg.toNat
  | 0x10 => r.evt.toNat
  | 0x18 => src 0
  | 0x20 => src 1
  | 0x28 => src 2
  | 0x30 => r.cntReseed.toNat
  | _ => if decide (0x40 ≤ off) && decide (off < 0x60) then (r.pers.getD ((off - 0x40) / 8) 0).toNat else 0

/-- The global digest registers (Table 15.3). -/
def State.readDge (s : State) (off : Nat) : Nat :=
  match off with
  | 0x00 => pack [((s.jobsWhere (fun x => x.dslot.isSome)).length, 32), ((s.shuttle 3).grants.length, 16),
      (bits ((List.range 16).map (fun i => (s.dslot (48 + i)).state != 0)), 0)]
  | 0x08 => s.dge.cntMisuse.toNat
  | 0x10 => s.dge.cntRestart.toNat
  | 0x18 => s.dge.cntCmpFault.toNat
  | _ => 0

/-- The TMP_ block (Tables 17.8, 17.9): the values are loaded at t2 (R452). -/
def State.readTmp (s : State) (off : Nat) : Nat :=
  let t := s.tmp
  let s8 (z : Int) : Nat := (BitVec.ofInt 8 z).toNat
  match off with
  | 0x00 => pack [(t.state.toNat, 56), (t.active.toNat, 0)]
  | 0x08 => t.evt.toNat
  | 0x10 =>
    if t.loaded then ((List.range 32).map (fun n => (s.tmpEntry n).resp.toNat * 2 ^ (2 * n))).sum
    else ((List.range 32).map (fun n => srcDefault n * 2 ^ (2 * n))).sum
  | 0x18 => if t.loaded then pack [(s8 s.vigil.tHigh, 8), (s8 s.vigil.tLow, 0)] else 0x73E2
  | 0x20 => pack [(tempBits t.detB, 16), (tempBits t.detA, 0)]
  | 0x28 => if t.loaded then s.otp.fuse.toNat else 0
  | 0x30 => if t.loaded then bits [s.vigil.freeze, s.vigil.mfpEncl, s.vigil.countEn] else 0
  | 0x38 => if t.loaded then pack [(s.vigil.logSeq.toNat, 32), (s.logOldest, 0)] else 0
  | 0x40 => pack [(b2n t.vbatPresent, 16), (t.vbatMv, 0)]
  | _ => 0

/-- The LCS_ block (Tables 16.7 to 16.10). -/
def State.readLcs (s : State) (off : Nat) : Nat :=
  let l := s.lcs
  match off with
  | 0x00 => pack [(l.pending.toNat, 16), (l.scheme.toNat, 8), (l.state.toNat, 0)]
  | 0x08 => l.access.toNat
  | 0x10 => pack [(l.tokens.toNat, 16), (b2n (decide (8 ≤ l.fails.toNat)), 10), (b2n l.resumed, 9), (l.fails.toNat, 0)]
  | _ => 0

/-- The lowest creel clock (PWR_CAP_STS.FREQ). -/
def State.lowestFreq (s : State) : Nat := ((List.range 44).map (fun k => (s.creels.getD k {}).freq)).foldl min 31

/-- The PWR_ block (Tables 8.9, 8.17). -/
def State.readPwr (s : State) (off : Nat) : Nat :=
  let c := s.cap
  match off with
  | 0x00 => c.set.toNat
  | 0x08 => c.cap.toNat
  | 0x10 => pack [(c.gateN, 32), (b2n c.gated, 26), (b2n c.unmet, 25), (b2n c.therm, 24), (s.lowestFreq, 16), (c.pkgDw, 0)]
  | _ => 0

/-- The TRC_ block (Table 12.11). -/
def State.readTrc (s : State) (off : Nat) : Nat :=
  let t := s.trc
  match off with
  | 0x00 => pack [(t.seq.toNat, 32), (b2n t.blocked, 3), (b2n t.mirror, 2), (b2n t.port, 1), (b2n t.enable, 0)]
  | 0x08 => t.rdIdx.toNat
  | 0x30 => t.cntDrop.toNat
  | _ => if decide (0x10 ≤ off) && decide (off < 0x30) then ((t.latch[(off - 0x10) / 8]?).getD 0).toNat else 0

/-- A frame's pipeline registers (Tables 8.7, 8.10 to 8.14). -/
def State.readFrm (s : State) (f off : Nat) : Nat :=
  let x := s.frame f
  let waits := s.jobsWhere (fun j => s.frameOf j == f && (match j.stage with | .waiting _ => true | _ => false))
  match off with
  | 0x00 => x.cfg.toNat
  | 0x08 => x.xsteal.toNat
  | 0x10 => x.fanout.toNat
  | 0x18 => x.vas.toNat
  | 0x20 => pack [(waits.length, 32), (((List.range 11).map (fun c => (s.creel f c).deque.length)).sum, 16), (s.stageIns f, 8),
      ((List.range 11).countP (fun c => !s.creelHeld f c), 0)]
  | 0x28 => x.cntXsteal.toNat
  | 0x30 => x.cntUndo.toNat
  | 0x38 => x.cntMchk.toNat
  | _ => 0

/-- A creel's registers (Tables 8.8, 8.15 to 8.17). -/
def State.readCreel (s : State) (f c off : Nat) : Nat :=
  let x := s.creel f c
  let unit (u : Nat) : Unit' := s.unit f c u
  let recent (l : List Nat) : Nat := min 3 (l.countP (fun t => decide (s.now < t + 3600000000)))
  match off with
  | 0x00 => pack [(bits ((List.range 12).map (fun u => (unit u).retired)), 48), (b2n (unit 12).retired, 44),
      (b2n (s.creelHeld f c), 43), (x.freq, 32), (bits ((List.range 12).map (fun u => (unit u).warm.isSome)), 20),
      (bits ((List.range 12).map (fun u => (unit u).busy)), 8), (x.deque.length, 0)]
  | 0x08 => x.ctl.toNat
  | 0x10 => pack [(x.mchkTotal.toNat, 48), (x.mchkCause.toNat, 32), (x.mchkLoc.toNat, 0)]
  | 0x18 => pack ([(recent x.nano, 26), (recent (unit 12).mchks, 24)] ++
      (List.range 12).map (fun u => (recent (unit u).mchks, 2 * u)))
  | _ => 0

/-- The MCS_ block (Tables 9.14 to 9.16). -/
def State.readMcs (s : State) (off : Nat) : Nat :=
  let m := s.mcs
  let k0 := s.otp.ikey0.kind
  let k1 := s.otp.ikey1.kind
  let ikey := if k0 = 1 then 1 else if k1 = 1 then 2 else if k0 = 2 && k1 = 2 then 3 else 0
  match off with
  | 0x00 => m.ver.toNat
  | 0x08 => m.cver.toNat
  | 0x10 => pack [(m.loadHeld, 8), (ikey, 4), (b2n m.cust.isSome, 3), (b2n m.goldenHbm, 2), (b2n m.loading, 1)]
  | 0x18 => m.winSel.toNat
  | 0x20 => m.winAddr.toNat
  | 0x28 => fld m.latch.toNat 0 64
  | 0x30 => fld m.latch.toNat 64 64
  | 0x38 => fld m.latch.toNat 128 64
  | _ => 0

/-- The HBM_ block (Table 19.7). -/
def State.readHbm (s : State) (off : Nat) : Nat :=
  match off with
  | 0x00 => pack [(0x18, 8), (b2n s.hbm.xts, 2), (b2n s.hbm.selfRefresh, 1), (b2n s.hbm.trained, 0)]
  | 0x08 => pack [(s.hbm.cor.toNat, 32), (s.hbm.unc.toNat, 0)]
  | 0x10 => s.hbm.errAddr.toNat
  | _ => 0

/-- Contexts of a range that run a call. -/
def State.ctxsOn (s : State) (lo n : Nat) : Nat := (List.range n).countP (fun i => (s.ctx (lo + i)).job.isSome)

/-- The CRX_ block (Tables 13.17 to 13.20). -/
def State.readCrx (s : State) (off : Nat) : Nat :=
  match off with
  | 0x00 => s.crx.cfg.toNat
  | 0x08 => pack [(s.crx.callQ.length, 32), (s.ctxsOn 0 32, 16), (s.crx.t2g.length, 8), (s.crx.g2t.length, 0)]
  | 0x40 => s.crx.cntCalls.toNat
  | 0x48 => s.crx.cntAfault.toNat
  | 0x50 => s.crx.cntVwake.toNat
  | _ =>
    if decide (0x10 ≤ off) && decide (off < 0x38) then
      let n := (off - 0x10) / 8
      let c := s.core n
      pack [(c.traps.toNat, 32), (c.lastTrap, 24), (if n = 4 then 0 else s.ctxsOn (8 * n) 8, 8), (b2n (n != 4 && c.waking), 2),
        (b2n (n != 4 && c.gated), 1), (b2n c.run, 0)]
    else 0

/-- A debug window is open: the device is in DEBUG and the life cycle gives debug of that core (R486). -/
def State.windowOpen (s : State) (core : Nat) : Bool := s.glb.debug && s.lcs.access.getLsbD (if core = 4 then 5 else 4)

/-- The memory word a window offset shows, its layout being open (R486, log 69). -/
def State.windowWord (s : State) (core off : Nat) : Option CWhere :=
  if s.windowOpen core then cLocate core (Config.debugAddr core off) else none

/-- The 64 bits at a location. -/
def State.regAt (s : State) : RegLoc → Nat
  | .reserved => 0
  | .page fn off => s.readPage fn off
  | .box fn off => s.readBox fn off
  | .pend i => bits ((List.range 64).map (fun b => s.mbxPend.getD (64 * i + b) false))
  | .bell fn r => match s.ring? fn r with | some g => pack [(g.done.toNat, 32), (g.tail.toNat, 0)] | none => 0
  | .msix fn v hi =>
    let x := s.host.msix.getD (vecNo fn v) {}
    if hi = 0 then x.addr.toNat else pack [(x.ctrl.toNat, 32), (x.data.toNat, 0)]
  | .pba fn i => bits ((List.range 64).map (fun b => s.host.pba.getD (vecNo fn (64 * i + b)) false))
  | .glb off => s.readGlb off
  | .hst off => s.readHst off
  | .str n off => s.readStr n off
  | .hdl off => s.readHdl off
  | .sht i off => s.readSht i off
  | .kst off => s.readKst off
  | .spl off => s.readSpl off
  | .ply off => s.readPly off
  | .rng off => s.readRng off
  | .dge off => s.readDge off
  | .slot n off => ((s.dslot n).read off).val.toNat
  | .tmp off => s.readTmp off
  | .lcs off => s.readLcs off
  | .pwr off => s.readPwr off
  | .trc off => s.readTrc off
  | .frm f off => s.readFrm f off
  | .creel f c off => s.readCreel f c off
  | .mcs off => s.readMcs off
  | .hbm off => s.readHbm off
  | .crx off => s.readCrx off
  | .debug core off =>
    match s.windowWord core off with
    | some w => if (s.cword w).tag = .sec || (s.cword w).tag = .kref then 0 else (s.cword w).val.toNat
    | none => 0
  | .shadow l => if shadowedReg l then 2 ^ regWidth l - 1 - s.regAt l else 0
where
  /-- the offsets of the shadowed blocks that hold a register -/
  shadowedReg : RegLoc → Bool
    | .kst off => decide (off ≤ 0x20)
    | .tmp off => decide (off ≤ 0x40)
    | .lcs off => decide (off ≤ 0x10)
    | _ => false
  /-- the width of a register of the shadowed blocks -/
  regWidth : RegLoc → Nat
    | .kst off => if off = 0 then 64 else 32
    | .tmp off => if off = 0 || off = 0x10 || off = 0x38 then 64 else 32
    | _ => 32

/-- The part of 64 bits that an access reaches. -/
def part (v offset size : Nat) : Nat := if size = 8 then v else fld v (32 * (offset / 4 % 2)) 32

/-- What a read returns: a 4-byte read of the upper half of PTC_BOOT gives the half latched before (R51). -/
def State.regRead (s : State) (bar : Bar) (fn offset size : Nat) : W64 :=
  let l := locate bar fn offset
  if l = .glb 0x80 && size = 4 && offset % 8 = 4 then s.glb.ptcBootLatch.setWidth 64
  else BitVec.ofNat 64 (part (s.regAt l) offset size)

/-! ## Registers that a read clears (R480) -/

/-- The lowest bits of the counters at a location of type RC; none where the register there is of another type. -/
def rcCounters : RegLoc → Option (List Nat)
  | .page _ off => if off = 0x18 || off = 0x28 then some [0] else none
  | .hst off => if off = 0x10 then some [0] else none
  | .str n off => if off = 0x20 && n != 0 then some [0] else none
  | .hdl off => if off = 0x18 || off = 0x20 || off = 0x28 then some [0] else none
  | .sht _ off =>
    if off = 0x28 || off = 0x30 then some [0]
    else if decide (0x100 ≤ off) && decide (off < 0x200) && off % 0x10 = 8 then some [0, 16, 32] else none
  | .kst off => if off = 0x10 || off = 0x18 || off = 0x20 then some [0] else none
  | .spl off => if off = 0x20 then some [0, 16] else none
  | .ply off => if off = 0x20 then some [0, 16] else none
  | .rng off => if off = 0x30 then some [0] else none
  | .dge off => if off = 0x08 || off = 0x10 || off = 0x18 then some [0] else none
  | .trc off => if off = 0x30 then some [0] else none
  | .frm _ off => if off = 0x28 || off = 0x30 || off = 0x38 then some [0] else none
  | .hbm off => if off = 0x08 then some [0, 32] else if off = 0x10 then some [63] else none
  | .crx off => if off = 0x40 || off = 0x48 || off = 0x50 then some [0] else none
  | _ => none

/-- Give an RC register a value. -/
def State.rcSet (s : State) (l : RegLoc) (v : Nat) : State :=
  let w : W32 := BitVec.ofNat 32 v
  match l with
  | .page fn off => s.setPage fn (if off = 0x18 then { s.page fn with dbDrop := w } else { s.page fn with late := w })
  | .hst _ => { s with host := { s.host with cntDmaErr := w } }
  | .str n _ => s.setStrand n { s.strand n with dlogOut := w }
  | .hdl off => { s with hdl :=
      if off = 0x18 then { s.hdl with cntEarly := w } else if off = 0x20 then { s.hdl with cntEvict := w }
      else { s.hdl with cntRollback := w } }
  | .sht i off =>
    let x := s.shuttle i
    s.setShuttle i (if off = 0x28 then { x with cntPreempt := w } else if off = 0x30 then { x with cntStale := w }
      else { x with cnt := x.cnt.put 0 ((off - 0x100) / 0x10) (BitVec.ofNat 64 v) })
  | .kst off => { s with kst :=
      if off = 0x10 then { s.kst with cntMissHbm := w } else if off = 0x18 then { s.kst with cntMissSpool := w }
      else { s.kst with cntEvict := w } }
  | .spl _ => { s with spl := { s.spl with cntErr := w } }
  | .ply _ => { s with ply := { s.ply with cntErr := w } }
  | .rng _ => { s with rng := { s.rng with cntReseed := w } }
  | .dge off => { s with dge :=
      if off = 0x08 then { s.dge with cntMisuse := w } else if off = 0x10 then { s.dge with cntRestart := w }
      else { s.dge with cntCmpFault := w } }
  | .trc _ => { s with trc := { s.trc with cntDrop := w } }
  | .frm f off =>
    let x := s.frame f
    s.setFrame f (if off = 0x28 then { x with cntXsteal := w } else if off = 0x30 then { x with cntUndo := w }
      else { x with cntMchk := w })
  | .hbm off => { s with hbm :=
      if off = 0x08 then { s.hbm with unc := w, cor := BitVec.ofNat 32 (v / 2 ^ 32) }
      else { s.hbm with errAddr := BitVec.ofNat 64 v } }
  | .crx off => { s with crx :=
      if off = 0x40 then { s.crx with cntCalls := w } else if off = 0x48 then { s.crx with cntAfault := w }
      else { s.crx with cntVwake := w } }
  | _ => s

/-- What an RC register holds after a read of the part an access reaches: those bits 0, and 1 in each counter read that is
incremented, or in each bit that is set, in the same cycle (R9, R480). -/
def rcAfter (v offset size : Nat) (counters : List Nat) (sameCycle : List Nat) : Nat :=
  let lo := if size = 8 then 0 else 32 * (offset / 4 % 2)
  let hi := if size = 8 then 64 else lo + 32
  let kept := v - fld v lo (hi - lo) * 2 ^ lo
  kept + ((counters.filter (fun c => decide (lo ≤ c) && decide (c < hi) && sameCycle.contains c)).map (2 ^ ·)).sum

/-- A read that R8 accepts answers with a value. -/
def State.answer (s : State) (v : W64) : State := { s with host := { s.host with ur := false, lastRead := v } }

/-- Configuration requests are answered, and not with Request Retry Status: from the end of KINDLE (R37, R44). -/
def State.configOpen (s : State) : Bool := s.barsOpen

/-- The settings of configuration space that a reset keeps or loses (R44), by their places in a PCI header (log 126). -/
def State.configAt (s : State) (offset : Nat) : Nat :=
  match offset / 4 with
  | 1 => s.host.command.toNat
  | 4 => fld s.host.bar0.toNat 0 32
  | 5 => fld s.host.bar0.toNat 32 32
  | 6 => fld s.host.bar2.toNat 0 32
  | 7 => fld s.host.bar2.toNat 32 32
  | _ => 0

/-- A configuration request of the PF reaches the device: the link is up. -/
def State.configThere (s : State) (fn : Nat) : Bool := fn = 0 && s.pins.mainPower && !s.pins.perst && !s.glb.tripped

/-- A configuration read: Request Retry Status until the end of KINDLE (R37), then the setting's 32 bits. -/
def State.configRead (s : State) (fn offset : Nat) : State :=
  if !s.configThere fn then s
  else if !s.configOpen then { s with host := { s.host with rrs := true } }
  else { s with host := { s.host with rrs := false, ur := false, lastRead := BitVec.ofNat 64 (s.configAt offset) } }

/-- A configuration write of 32 bits: Request Retry Status until the end of KINDLE, without an effect; then the setting. BAR0
takes 1 MiB and BAR2 32 MiB, so that their low bits stay 0 (R477, R478). -/
def State.configWrite (s : State) (fn offset : Nat) (value : W64) : State :=
  if !s.configThere fn then s
  else if !s.configOpen then { s with host := { s.host with rrs := true } }
  else
    let h : HostIf := { s.host with rrs := false, ur := false }
    let v := mergeHalf 0 offset 4 value
    match offset / 4 with
    | 1 => { s with host := { h with command := BitVec.ofNat 16 value.toNat } }
    | 4 => { s with host := { h with bar0 := (h.bar0 &&& 0xFFFFFFFF00000000) ||| (v &&& 0xFFF00000) } }
    | 5 => { s with host := { h with bar0 := (h.bar0 &&& 0xFFFFFFFF) ||| v } }
    | 6 => { s with host := { h with bar2 := (h.bar2 &&& 0xFFFFFFFF00000000) ||| (v &&& 0xFE000000) } }
    | 7 => { s with host := { h with bar2 := (h.bar2 &&& 0xFFFFFFFF) ||| v } }
    | _ => { s with host := h }

/-- The store word that MCS_WIN_SEL and MCS_WIN_ADDR select; 0 where R281 gives no word. -/
def State.winWord (s : State) : Nat :=
  let sel := s.mcs.winSel.toNat
  let a := fld s.mcs.winAddr.toNat 0 12
  let nano := bitOf sel 31
  let vendor := if nano then decide (a < 896) else decide (a < 3584)
  if s.mcs.loading || decide (10 < fld sel 8 4) || (!nano && decide (11 < fld sel 4 4)) then 0
  else if vendor && !s.lcs.access.getLsbD 9 then 0
  else if nano then (if a < 1024 then s.nanoStore a else 0) else s.microAt a

/-- What a read latches before it answers: the upper half of PTC_BOOT with a 4-byte read of the lower (R51), the selected store word
with MCS_WIN_DATA0 (R281), the selected record with TRC_RD_DATA0 (Table 12.11). -/
def State.readLatch (s : State) (l : RegLoc) (offset size : Nat) : State :=
  match l with
  | .glb 0x80 =>
    if size = 4 && offset % 8 = 0 then { s with glb := { s.glb with ptcBootLatch := BitVec.ofNat 32 (s.glb.ptcBoot.toNat / 2 ^ 32) } }
    else s
  | .mcs 0x28 => { s with mcs := { s.mcs with latch := BitVec.ofNat 192 s.winWord } }
  | .trc 0x10 => { s with trc := { s.trc with latch := s.trc.buf.getD (fld s.trc.rdIdx.toNat 0 13) [0, 0, 0, 0] } }
  | _ => s

/-- RC_COUNTER_READ: the register's value, then it is cleared. A register of another type, and configuration space, is read
without an effect but for what it latches. An address that HBM_ERR_ADDR takes in the cycle of its read is free (R9). -/
def execRcCounterRead (bar : Bar) (fn offset size : Nat) (sameCycle : List Nat) (s : State) : Host.Outcome State Fault Refusal :=
  finish (if bar = .config then s.configRead fn offset
    else if !s.barsOpen then s
    else if !s.accessOk bar fn offset size then s.unsupported
    else
      let l := locate bar fn offset
      let s := s.readLatch l offset size
      let s' := s.answer (s.regRead bar fn offset size)
      match rcCounters l with
      | some cs =>
        let v := rcAfter (s.regAt l) offset size cs sameCycle
        if l = .hbm 0x10 && bitOf v 63 && sameCycle.contains 63 then
          let (n, s') := s'.freeNum
          s'.rcSet l (2 ^ 63 + n % 2 ^ 29 * 2 ^ 6)
        else s'.rcSet l v
      | none => s')

/-! ## Reads that latch -/

/-- PTC_BOOT_LOW_READ: a 4-byte read of PTC_BOOT[31:0] latches the upper half (R51). -/
def execPtcBootLowRead (s : State) : Host.Outcome State Fault Refusal :=
  finish (if !s.barsOpen then s
    else
      (s.readLatch (.glb 0x80) 0x80 4).answer (BitVec.ofNat 64 (fld s.glb.ptcBoot.toNat 0 32)))

/-- MCS_WIN_DATA0_READ: the selected word is read and latched (R281). -/
def execMcsWinData0Read (s : State) : Host.Outcome State Fault Refusal :=
  finish (if !s.barsOpen then s
    else
      let w := s.winWord
      let s' := s.answer (BitVec.ofNat 64 w)
      { s' with mcs := { s'.mcs with latch := BitVec.ofNat 192 w } })

/-- TRC_RD_DATA0_READ: the record in the selected slot is latched; its first word answers (Table 12.11). -/
def execTrcRdData0Read (s : State) : Host.Outcome State Fault Refusal :=
  finish (if !s.barsOpen then s
    else
      let r := s.trc.buf.getD (fld s.trc.rdIdx.toNat 0 13) [0, 0, 0, 0]
      let s' := s.answer ((r[0]?).getD 0)
      { s' with trc := { s'.trc with latch := r } })

/-! ## Writes (Table 0.4) -/

/-- GLB_LOCK_SET: writing 1 to LOCK freezes the RWL registers; writing 0 has no effect (R481). -/
def State.lockSet (s : State) (value : W32) : State :=
  if s.barsOpen && value.getLsbD 0 then { s with glb := { s.glb with lock := true } } else s

/-- The row GLB_LOCK_SET. -/
def execGlbLockSet (value : W32) (s : State) : Host.Outcome State Fault Refusal := finish (s.lockSet value)

/-- A write of a register of BAR0 outside the doorbells and the MSI-X table. ADM_BASE and the other fields of ADM_CFG take
the written value while ENABLE is 0 and ignore it while it is 1; ENABLE acts as R93 gives; MBX_STS clears where 1 is
written. -/
def State.writeBox (s : State) (fn off offset : Nat) (v : W64) (ones : Nat) : State :=
  let p := s.page fn
  match off with
  | 0x00 => if p.admOn then s else s.setPage fn { p with admBase := v &&& 0xFFFFFFFFFFFFF000 }
  | 0x08 =>
    if offset % 8 = 4 then s
    else if p.admOn then (if bitOf v.toNat 31 then s else s.admDisable fn)
    else if bitOf v.toNat 31 then s.admEnable fn (BitVec.ofNat 32 v.toNat)
    else s.setPage fn { p with admCfg := (p.admCfg &&& 0x20000000) ||| (BitVec.ofNat 32 v.toNat &&& 0x0FFF001F) }
  | 0x10 =>
    if offset % 8 = 4 then s
    else if fn = 0 then s.mbxManager (BitVec.ofNat 32 v.toNat) else s.mbxTenant fn (BitVec.ofNat 32 v.toNat)
  | 0x18 => if fn = 0 then s else s.setPage fn { p with mbxSts := p.mbxSts &&& ~~~(BitVec.ofNat 2 ones) }
  | _ => s

/-- A write of half a MSI-X table entry; a mask bit that is cleared sends what the PBA holds (R477). -/
def State.writeMsix (s : State) (fn vec hi : Nat) (v : W64) : State :=
  let x := s.host.msix.getD (vecNo fn vec) {}
  let put (s : State) (y : MsixVec) : State := { s with host := { s.host with msix := s.host.msix.put {} (vecNo fn vec) y } }
  if hi = 0 then put s { x with addr := v &&& 0xFFFFFFFFFFFFFFFC }
  else
    let s := put s { x with data := BitVec.ofNat 32 v.toNat, ctrl := BitVec.ofNat 32 (v.toNat / 2 ^ 32) &&& 1 }
    if bitOf x.ctrl.toNat 0 && !bitOf v.toNat 32 then s.vectorUnmask fn vec else s

/-- What a write of the 64 bits `v` (the halves not written as they were) does at a location of BAR2; `ones` are the bits
written 1, and `lowHit` says that the low half was written. -/
def State.writeDev (s : State) (l : RegLoc) (offset size : Nat) (raw v : W64) (ones : Nat) : State :=
  let w : W32 := BitVec.ofNat 32 v.toNat
  let o : W32 := BitVec.ofNat 32 ones
  let low := offset % 8 = 0
  match l with
  | .glb off =>
    if off = 0x50 && low && w = 0x9528 then s.deviceReset 2
    else if off = 0x60 && low then s.lockSet w
    else s
  | .hst off => if off = 0x08 then { s with host := { s.host with err := s.host.err &&& ~~~(BitVec.ofNat 4 ones) } } else s
  | .str n off =>
    if off = 0x08 then s.commWrite n v
    else if off = 0x10 && n ≠ 0 then s.setStrand n { s.strand n with mbx := w &&& 0x1FF }
    else s
  | .hdl off =>
    if off = 0x00 then s.wtWrite w
    else if off = 0x08 then { s with hdl := { s.hdl with wf := w &&& 0xFFFF0001 } }
    else if off = 0x30 then { s with hdl := { s.hdl with ogSel := w &&& 0xFFF } }
    else s
  | .sht i off =>
    let x := s.shuttle i
    if off = 0x00 then
      let s := s.shtSettle i
      s.setShuttle i { s.shuttle i with cfg := w &&& 0xFFFF0000 }
    else if off = 0x08 then s.setShuttle i { x with starve := w }
    else if off = 0x18 then s.setShuttle i { x with evt := x.evt &&& ~~~o }
    else if off = 0x20 then s.setShuttle i { x with irqEn := w }
    else if decide (0x100 ≤ off) && decide (off < 0x200) && off % 0x10 = 0 then s.shtReqWrite i ((off - 0x100) / 0x10) v
    else s
  | .spl off =>
    if off = 0x00 then { s with spl := { s.spl with cfg := w &&& 0xFFFF0001 } }
    else if off = 0x18 then { s with spl := { s.spl with evt := s.spl.evt &&& ~~~o } }
    else s
  | .ply off =>
    if off = 0x00 && low then s.plyCfgWrite w
    else if off = 0x18 then { s with ply := { s.ply with evt := s.ply.evt &&& ~~~o } }
    else s
  | .rng off =>
    if off = 0x08 && low then s.rngCfgWrite w
    else if off = 0x10 then { s with rng := { s.rng with evt := s.rng.evt &&& ~~~o } }
    else if decide (0x40 ≤ off) && decide (off < 0x60) then
      { s with rng := { s.rng with pers := s.rng.pers.put 0 ((off - 0x40) / 8) v } }
    else s
  | .slot n _ => s.dgeWrite n (offset % 0x100) size .manager { tag := .int, val := raw }
  | .tmp off =>
    if off = 0x08 then State.tmpSettle { s with tmp := { s.tmp with evt := s.tmp.evt &&& ~~~o } } else s
  | .pwr off =>
    if off = 0x00 && low then s.crlSetWrite w
    else if off = 0x08 then { s with cap := { s.cap with cap := w &&& 0x1FFFF } }
    else s
  | .trc off => if off = 0x08 then { s with trc := { s.trc with rdIdx := w &&& 0x1FFF } } else s
  | .frm f off =>
    let x := s.frame f
    if off = 0x00 then s.setFrame f { x with cfg := w &&& 0x00FFF101 }
    else if off = 0x08 && low then s.xstealWrite f w
    else if off = 0x10 then s.setFrame f { x with fanout := w &&& 0x7777 }
    else if off = 0x18 then s.setFrame f { x with vas := w &&& 0xFF }
    else s
  | .creel f c off =>
    if off = 0x08 then
      let s := s.setCreel f c { s.creel f c with ctl := w &&& 0xFFFF0003 }
      if bitOf w.toNat 1 then s
      else s.each (List.range 12) (fun s u => s.setUnit f c u { s.unit f c u with warm := none })
    else s
  | .mcs off =>
    if off = 0x18 then { s with mcs := { s.mcs with winSel := w &&& 0x80003FF0 } }
    else if off = 0x20 then { s with mcs := { s.mcs with winAddr := w &&& 0xFFF } }
    else s
  | .crx off => if off = 0x00 && !s.glb.lock then { s with crx := { s.crx with cfg := w &&& 0x1E0 } } else s
  | .debug core off =>
    match s.windowWord core off with
    | some x => s.setCword x { tag := .int, val := v }
    | none => s
  | _ => s

/-- The pending bits that a W1C write clears; bit 0 of MBX_PEND0 does not exist (Table 11.5). -/
def State.clearPend (s : State) (i ones : Nat) : State :=
  s.each (List.range 64) (fun s b => if bitOf ones b then { s with mbxPend := s.mbxPend.put false (64 * i + b) false } else s)

/-- The bits of type W1C at a location (R9). -/
def w1cBits : RegLoc → Nat
  | .box fn off => if fn ≠ 0 && off = 0x18 then 3 else 0
  | .pend i => if i = 0 then 2 ^ 64 - 2 else 2 ^ 64 - 1
  | .hst off => if off = 0x08 then 0xF else 0
  | .sht _ off => if off = 0x18 then 0xFFFFFFFF else 0
  | .spl off => if off = 0x18 then 0x31F1F else 0
  | .ply off => if off = 0x18 then 0x1F1F else 0
  | .rng off => if off = 0x10 then 0x377 else 0
  | .tmp off => if off = 0x08 then 0x3FFFFFE else 0
  | _ => 0

/-- Hardware sets bits of type W1C in the cycle in which they are written, and wins (R9). -/
def State.w1cSet (s : State) (l : RegLoc) (b : Nat) : State :=
  let w : W32 := BitVec.ofNat 32 b
  match l with
  | .box fn _ => s.setPage fn { s.page fn with mbxSts := (s.page fn).mbxSts ||| BitVec.ofNat 2 b }
  | .pend i => s.each (List.range 64) (fun s k => if bitOf b k then { s with mbxPend := s.mbxPend.put false (64 * i + k) true } else s)
  | .hst _ => { s with host := { s.host with err := s.host.err ||| BitVec.ofNat 4 b } }
  | .sht i _ => s.setShuttle i { s.shuttle i with evt := (s.shuttle i).evt ||| w }
  | .spl _ => { s with spl := { s.spl with evt := s.spl.evt ||| w } }
  | .ply _ => { s with ply := { s.ply with evt := s.ply.evt ||| w } }
  | .rng _ => { s with rng := { s.rng with evt := s.rng.evt ||| w } }
  | .tmp _ => State.tmpSettle { s with tmp := { s.tmp with evt := s.tmp.evt ||| w } }
  | _ => s

/-- A register write that R8 accepts. -/
def State.regWrite (s : State) (bar : Bar) (fn offset size : Nat) (value : W64) : State :=
  let l := locate bar fn offset
  let v := mergeHalf (BitVec.ofNat 64 (s.regAt l)) offset size value
  let ones := (mergeHalf 0 offset size value).toNat
  match l with
  | .box f off => s.writeBox f off offset v ones
  | .pend i => s.clearPend i ones
  | .bell f r => s.doorbell f r size value
  | .msix f vec hi => s.writeMsix f vec hi v
  | l => s.writeDev l offset size value v ones

/-- REGISTER_WRITE: the access rules of R8, then the type rules of Table 0.4. Of the writers of one cycle the first in precedence
is the one whose write takes effect (R10), and what hardware sets in that cycle stays set (R9). A write that reaches a register
with a row of its own does what that row says. -/
def execRegisterWrite (bar : Bar) (fn offset size : Nat) (value : W64) (s : State) (cycle : Cycle := Cycle.quiet) :
    Host.Outcome State Fault Refusal :=
  finish (if bar = .config then s.configWrite fn offset (cycleWins cycle value)
    else if !s.barsOpen then s
    else if !s.accessOk bar fn offset size then s.unsupported
    else
      let l := locate bar fn offset
      let sets := cycle.sets.toNat &&& w1cBits l
      let t := ({ s with host := { s.host with ur := false } } : State).regWrite bar fn offset size (cycleWins cycle value)
      if sets = 0 then t else t.w1cSet l sets)

end Sys2Proof.Machine
end

