-- ==== Sys2Proof/Machine/Pins.lean ====
section
/-! DEFINITION. What reaches the device over the side-band pins and from the host outside its queues: the SMBus target
(R471), the test access port (R472), the trace port's pins (R473), ATS invalidations and DOE (R465), and the HBM controller's
corrected errors (R485). -/

namespace Sys2Proof.Machine

/-! ## SMBus (R471) -/

/-- The SMBus target answers: main power is good and the mode is not VIGIL (the 10 ms after PWR_OK are not timed, log 72). -/
def State.smbAnswers (s : State) : Bool := s.pins.mainPower && s.pins.pwrOk && s.glb.mode ≠ 0x0F

/-- SMB_ALERT_N is low. -/
def State.smbAlert (s : State) : Bool := s.tmp.evt ≠ 0 || s.cap.therm

/-- A Block Read of `n` bytes that hold `v`, little-endian. -/
def State.blockRead (s : State) (n v : Nat) : State :=
  if s.smbAnswers then { s with smb := { s.smb with data := leBytes n v, driving := true } } else s

/-- Commands 0x02 to 0x05 return zeros until t2 of KINDLE. -/
def State.fromT2 (s : State) (v : Nat) : Nat := if s.tmp.loaded then v else 0

/-- IDENT: GLB_ID and GLB_STEP. -/
def execIdent (s : State) : Host.Outcome State Fault Refusal := finish (s.blockRead 8 (pack [(glbStep, 32), (glbId, 0)]))

/-- STATE: mode, life-cycle state, halt cause. -/
def execState (s : State) : Host.Outcome State Fault Refusal :=
  finish (s.blockRead 4 (pack [(s.glb.haltCause.toNat, 16), (s.lcs.state.toNat, 8), (s.glb.mode.toNat, 0)]))

/-- TEMP: TMP_TEMP. -/
def execTemp (s : State) : Host.Outcome State Fault Refusal := finish (s.blockRead 4 (s.fromT2 (s.readTmp 0x20)))

/-- POWER: power and capping status. -/
def execPower (s : State) : Host.Outcome State Fault Refusal :=
  finish (s.blockRead 4 (s.fromT2 (pack [(b2n s.cap.gated, 25), (b2n s.cap.unmet, 24), (s.lowestFreq, 16), (s.cap.pkgDw, 0)])))

/-- ALERT: TMP_EVT. -/
def execAlert (s : State) : Host.Outcome State Fault Refusal := finish (s.blockRead 4 (s.fromT2 s.tmp.evt.toNat))

/-- CELL: TMP_VBAT. -/
def execCell (s : State) : Host.Outcome State Fault Refusal := finish (s.blockRead 4 (s.fromT2 (s.readTmp 0x40)))

/-- SMBUS_TIMEOUT: the clock has been low for 25 to 35 ms; the target releases the bus. -/
def execSmbusTimeout (s : State) : Host.Outcome State Fault Refusal := finish { s with smb := { s.smb with driving := false } }

/-! ## The test access port (R472, Table 18.12) -/

/-- The instruction the TAP acts on: EXTEST, EXTEST_PULSE and EXTEST_TRAIN act as BYPASS while PERST_N is high. -/
def State.tapActs (s : State) : Byte :=
  if (s.tap.ir = 0x00 || s.tap.ir = 0x03 || s.tap.ir = 0x04) && !s.pins.perst then 0xFF else s.tap.ir

/-- Load an instruction; the data register captures what it selects: the identity, the bypass register's 0, or the boundary
register, whose cells the spec does not list (a free value). -/
def State.tapLoad (s : State) (code : Byte) : State :=
  if !s.pins.mainPower then s
  else
    let s : State := { s with tap := { s.tap with ir := code } }
    if s.tapActs = 0x01 then { s with tap := { s.tap with dr := 0x195286F3 } }
    else if s.tapActs = 0xFF then { s with tap := { s.tap with dr := 0 } }
    else
      let (v, s) := s.freeNum
      { s with tap := { s.tap with dr := BitVec.ofNat 64 v } }

/-- EXTEST. -/
def execExtest (s : State) : Host.Outcome State Fault Refusal := finish (s.tapLoad 0x00)
/-- IDCODE reads 0x1952_86F3. -/
def execIdcode (s : State) : Host.Outcome State Fault Refusal := finish (s.tapLoad 0x01)
/-- SAMPLE/PRELOAD. -/
def execSamplePreload (s : State) : Host.Outcome State Fault Refusal := finish (s.tapLoad 0x02)
/-- EXTEST_PULSE. -/
def execExtestPulse (s : State) : Host.Outcome State Fault Refusal := finish (s.tapLoad 0x03)
/-- EXTEST_TRAIN. -/
def execExtestTrain (s : State) : Host.Outcome State Fault Refusal := finish (s.tapLoad 0x04)
/-- BYPASS. -/
def execBypass (s : State) : Host.Outcome State Fault Refusal := finish (s.tapLoad 0xFF)

/-- TAP_RESET: the instruction register holds IDCODE (IEEE 1149.1, log 17). -/
def execTapReset (s : State) : Host.Outcome State Fault Refusal := finish { s with tap := { s.tap with ir := 0x01 } }

/-- What MFP[7:0] carry at edge `e` of a record's 32 bytes (R473). -/
def traceEdge (record : Bytes) (e : Nat) : Byte := (record[e]?).getD 0

/-! ## The host beside its queues (R465) and the HBM controller (R485) -/

/-- ATS_INVALIDATION: a request enters the queue of 32 entries, or the oldest one is carried out. -/
def execAtsInvalidation (carriedOut : Bool) (s : State) : Host.Outcome State Fault Refusal :=
  finish (if !s.barsOpen then s
    else { s with host := { s.host with atsInval := if carriedOut then s.host.atsInval - 1 else min 32 (s.host.atsInval + 1) } })

/-- DOE_REQUEST: the SPDM session sets up the link stream and up to seven selective streams. -/
def execDoeRequest (linkStream : Bool) (selective : BitVec 3) (s : State) : Host.Outcome State Fault Refusal :=
  finish (if !s.barsOpen then s else { s with host := { s.host with ide := linkStream, selIde := selective } })

/-- HBM_CORRECTED_ERROR: HBM_ECC.COR counts up. -/
def execHbmCorrectedError (s : State) : Host.Outcome State Fault Refusal :=
  finish (if s.hbm.trained then { s with hbm := { s.hbm with cor := satInc s.hbm.cor } } else s)

end Sys2Proof.Machine
end

