-- ==== Sys2Proof/Machine/Symm.lean ====
section
/-! DEFINITION. Symmetric, MAC and hash jobs (R218 to R224, R490): hashes, HMAC, KMAC, AES-CMAC, the AES modes,
ChaCha20-Poly1305 and TDEA. Block ciphers, hashes and authenticated modes are functions of their inputs (log 3); ECB, CBC and CTR
are written out over the block cipher. -/

namespace Sys2Proof.Machine

/-! ## Block modes -/

/-- Cut a byte string into blocks of `n` bytes; the last may be short. `fuel` bounds their number. -/
def blocksOf (n : Nat) : Nat → Bytes → List Bytes
  | 0, _ => []
  | fuel + 1, b => if b = [] then [] else b.take n :: blocksOf n fuel (b.drop n)

/-- The block cipher of a key TYPE on one block, forward or backward. -/
def blockCipher (type : Nat) (back : Bool) (key block : Bytes) : Bytes :=
  algoBytes (0x10E60 + 16 * b2n back + type) [key, block] block.length

/-- CBC encryption: the blocks of ciphertext after an IV. -/
def cbcEnc (e : Bytes → Bytes) : Bytes → List Bytes → List Bytes
  | _, [] => []
  | iv, p :: ps => e (xorBytes p iv) :: cbcEnc e (e (xorBytes p iv)) ps

/-- CBC decryption. -/
def cbcDec (d : Bytes → Bytes) : Bytes → List Bytes → List Bytes
  | _, [] => []
  | iv, c :: cs => xorBytes (d c) iv :: cbcDec d c cs

/-- CTR: the counter is the whole block, a big-endian number modulo 2^128 (R219). -/
def ctrMode (e : Bytes → Bytes) : Nat → List Bytes → List Bytes
  | _, [] => []
  | n, p :: ps => xorBytes p (e (beBytes 16 (n % 2 ^ 128))) :: ctrMode e (n + 1) ps

/-- The next IV of a chained job: CBC, the last block of ciphertext, the IV itself when there is none; CTR, the next counter. -/
def nextIv (iv : Bytes) (ctr : Bool) (cipher : List Bytes) : Bytes :=
  if ctr then beBytes 16 ((ofBe iv + cipher.length) % 2 ^ 128) else cipher.getLastD iv

/-- An ECB, CBC or CTR job over blocks of `n` bytes: the data, and the next IV with CHAIN (Table 7.10). -/
def blockJob (x : Job) (n type : Nat) : Bytes :=
  let ps := blocksOf n x.inp.length x.inp
  let iv := x.auxData.take n
  let one := x.opOp = 1
  let e := blockCipher type false x.mat
  let d := blockCipher type true x.mat
  let out :=
    if x.opParam = 1 then ps.map (if one then e else d)
    else if x.opParam = 3 then ctrMode e (ofBe iv) ps
    else if one then cbcEnc e iv ps else cbcDec d iv ps
  out.flatten ++ (if bitOf x.param 0 then nextIv iv (x.opParam = 3) (if one then out else ps) else [])

/-! ## Authenticated and key-wrap modes -/

/-- The IV of an AEAD job: from the DRBG with GEN_IV, else the first 12 auxiliary bytes (R221). -/
def Job.iv (x : Job) : Bytes := if genIv x then x.rnd else x.auxData.take 12

/-- The additional data of an AEAD job. -/
def Job.aad (x : Job) : Bytes := if genIv x then x.auxData else x.auxData.drop 12

/-- An AEAD encryption: IV with GEN_IV ‖ C ‖ T. A key encrypts at most 2^32 messages with GEN_IV (R221). -/
def State.aeadEncrypt (s : State) (j : Nat) (x : Job) : State :=
  let out := (if genIv x then x.iv else []) ++ algoBytes x.opcode [x.mat, x.iv, x.aad, x.inp] (x.inLen + tagLen x)
  match x.key with
  | some (slot, k) =>
    if !genIv x then s.endsOk j x out
    else if 2 ^ 32 ≤ ((s.key? slot).map (·.genIvs)).getD 0 then s.ends j keyErr 0x0303 x.figure []
    else (s.modKey slot k.uid (fun k => { k with genIvs := k.genIvs + 1 })).endsOk j x out
  | none => s.endsOk j x out

/-- A decryption writes its plaintext to the host while it computes; when its check fails, zero bytes overwrite what it wrote, and
it ends with VERIFY_FAIL 0x0303 and RES_LEN 0 (R220). -/
def State.streamOut (s : State) (j : Nat) (x : Job) (ok : Bool) (plain : Bytes) : State :=
  let ws := splitOut (x.pieces 1) plain ++ (if ok then [] else splitOut (x.pieces 1) (zeros plain.length))
  let s := ws.foldl (fun s w => s.send (.write x.fn w.1 w.2)) s
  let s := if ok then s.ends j 0 0 x.figure plain else s.ends j verifyFail 0x0303 x.figure (zeros plain.length)
  s.modJob j (fun x => { x with
    issued := true, due := ws.map (fun w => .data w.1 w.2.length), phase := if ws = [] then 2 else 0 })

/-- The ciphertext and tag a decryption checks, and the plaintext it writes. -/
def State.aeadDecrypt (s : State) (j : Nat) (x : Job) : State :=
  s.streamOut j x (Config.accepts x.opcode [x.mat, x.iv, x.aad, x.inp, leBytes 1 (tagLen x)])
    (algoBytes x.opcode [x.mat, x.iv, x.aad, x.inp.take (x.inLen - tagLen x)] (x.inLen - tagLen x))

/-- AES-KW and KWP decryption: of KWP, the padding removed is at most 7 bytes. -/
def State.unwrap (s : State) (j : Nat) (x : Job) : State :=
  let n := x.inLen - 8
  let n := if x.opParam = 6 then n else max (n - 7) (min n (Config.count x.opcode [x.mat, x.inp]))
  s.streamOut j x (Config.accepts x.opcode [x.mat, x.inp]) (algoBytes x.opcode [x.mat, x.inp] n)

/-! ## MACs -/

/-- The code of the MAC function whose state set a key form holds: HMAC by PH, KMAC128 and KMAC256 from 17 on (R130). -/
def macCode (x : Job) : Nat := if x.fam = 0x33 then 16 + x.opParam else x.opParam

/-- The cached state set is computed for the job's function; a form that holds another function's is recomputed in two blocks
(R130). KMAC with a customization string does not use the set (R490). -/
def State.macState (s : State) (x : Job) : Nat × State :=
  match x.key with
  | some (slot, k) =>
    if !x.pinned || (x.fam = 0x33 && fld x.param 0 8 ≠ 0) then (0, s)
    else
      let had := ((s.key? slot).map (·.macFn)).getD 0
      let block := if x.fam = 0x33 then 26 else (phBlock x.opParam).2
      (if had ≠ 0 && had ≠ macCode x then atOrder x.mask (2 * block) else 0,
        s.modKey slot k.uid (fun k => { k with macFn := macCode x }))
  | none => (0, s)

/-- The MAC of a job, its label free of the operation: `n` bytes. -/
def macOf (x : Job) (n : Nat) : Bytes :=
  match x.fam with
  | 0x32 => algoBytes (0x3210 + x.opParam) [x.mat, x.inp] n
  | 0x33 =>
    algoBytes (0x3310 + x.opParam) [x.mat, x.inp, x.auxData.take (fld x.param 0 8),
      leBytes 4 (if bitOf x.param 24 then 0 else tagLen x)] n
  | _ => algoBytes 0x3410 [x.mat, x.inp] n

/-- A MAC job ends: its tag, or the comparison with the tag given (R219). -/
def State.macEnd (s : State) (j : Nat) (x : Job) : State :=
  let (extra, s) := if x.fam = 0x34 then (0, s) else s.macState x
  let tag := macOf x (tagLen x)
  let cycles := x.figure + extra
  if x.opOp = 1 then s.ends j 0 0 cycles tag
  else s.endsVerify j cycles (if tag = x.auxData.drop (x.auxLen - tagLen x) then none else some 0x0301)

/-! ## Operations -/

/-- HASH: a function of Table 6.10; OUTLEN bytes of a SHAKE (Table 7.10). -/
def execHash (job : Nat) (s : State) : Host.Outcome State Fault Refusal :=
  finish (match s.running job 0x31 1 with
    | none => s
    | some x =>
      s.endsOk job x (hashTo x.opParam x.inp (opOut x none 0)))

/-- HMAC_GENERATE. -/
def execHmacGenerate (job : Nat) (s : State) : Host.Outcome State Fault Refusal :=
  finish (match s.running job 0x32 1 with | none => s | some x => s.macEnd job x)
/-- HMAC_VERIFY. -/
def execHmacVerify (job : Nat) (s : State) : Host.Outcome State Fault Refusal :=
  finish (match s.running job 0x32 2 with | none => s | some x => s.macEnd job x)
/-- KMAC_GENERATE. -/
def execKmacGenerate (job : Nat) (s : State) : Host.Outcome State Fault Refusal :=
  finish (match s.running job 0x33 1 with | none => s | some x => s.macEnd job x)
/-- KMAC_VERIFY. -/
def execKmacVerify (job : Nat) (s : State) : Host.Outcome State Fault Refusal :=
  finish (match s.running job 0x33 2 with | none => s | some x => s.macEnd job x)
/-- AES_CMAC_GENERATE. -/
def execAesCmacGenerate (job : Nat) (s : State) : Host.Outcome State Fault Refusal :=
  finish (match s.running job 0x34 1 with | none => s | some x => s.macEnd job x)
/-- AES_CMAC_VERIFY. -/
def execAesCmacVerify (job : Nat) (s : State) : Host.Outcome State Fault Refusal :=
  finish (match s.running job 0x34 2 with | none => s | some x => s.macEnd job x)

/-- The TYPE of a job's key. -/
def Job.keyType (x : Job) : Nat := (x.key.map (·.2.type)).getD 0

/-- AES-XTS of one data unit under the data key and the tweak key (R222). -/
def xtsOut (x : Job) : Bytes :=
  algoBytes x.opcode [x.mat, (x.key2.map (·.2.mat)).getD [], x.auxData, x.inp] x.inLen

/-- AES_ENCRYPT: ECB, CBC, CTR, GCM, XTS, KW, KWP (Table 7.10). -/
def execAesEncrypt (job : Nat) (s : State) : Host.Outcome State Fault Refusal :=
  finish (match s.running job 0x41 1 with
    | none => s
    | some x =>
      if x.opParam ≤ 3 then s.endsOk job x (blockJob x 16 x.keyType)
      else if x.opParam = 4 then s.aeadEncrypt job x
      else if x.opParam = 5 then s.endsOk job x (xtsOut x)
      else s.endsOk job x (algoBytes x.opcode [x.mat, x.inp] (8 * ceilDiv x.inLen 8 + 8)))

/-- AES_DECRYPT. -/
def execAesDecrypt (job : Nat) (s : State) : Host.Outcome State Fault Refusal :=
  finish (match s.running job 0x41 2 with
    | none => s
    | some x =>
      if x.opParam ≤ 3 then s.endsOk job x (blockJob x 16 x.keyType)
      else if x.opParam = 4 then s.aeadDecrypt job x
      else if x.opParam = 5 then s.endsOk job x (xtsOut x)
      else s.unwrap job x)

/-- CHACHA20_POLY1305_ENCRYPT. -/
def execChacha20Poly1305Encrypt (job : Nat) (s : State) : Host.Outcome State Fault Refusal :=
  finish (match s.running job 0x42 1 with | none => s | some x => s.aeadEncrypt job x)
/-- CHACHA20_POLY1305_DECRYPT. -/
def execChacha20Poly1305Decrypt (job : Nat) (s : State) : Host.Outcome State Fault Refusal :=
  finish (match s.running job 0x42 2 with | none => s | some x => s.aeadDecrypt job x)
/-- TDEA_ENCRYPT. -/
def execTdeaEncrypt (job : Nat) (s : State) : Host.Outcome State Fault Refusal :=
  finish (match s.running job 0x43 1 with | none => s | some x => s.endsOk job x (blockJob x 8 x.keyType))
/-- TDEA_DECRYPT. -/
def execTdeaDecrypt (job : Nat) (s : State) : Host.Outcome State Fault Refusal :=
  finish (match s.running job 0x43 2 with | none => s | some x => s.endsOk job x (blockJob x 8 x.keyType))

end Sys2Proof.Machine
end

