-- ==== Sys2Proof/Machine/Dispatch.lean ====
section
/-! DEFINITION. One arm per command: the meaning it has, called directly. -/

namespace Sys2Proof.Machine

/-- The effect of a command on everything but the queue. -/
def exec (i : Instr) (s : State) : Host.Outcome State Fault Refusal :=
  match i with
  | .sourceRestore src failing => Sys2Proof.Machine.execSourceRestore src s failing
  | .drbgReseedRequest inst => Sys2Proof.Machine.execDrbgReseedRequest inst s
  | .drbgReseed inst => Sys2Proof.Machine.execDrbgReseed inst s
  | .spoolCoalesceExpiry port => Sys2Proof.Machine.execSpoolCoalesceExpiry port s
  | .mirrorEntryTimeout => Sys2Proof.Machine.execMirrorEntryTimeout s
  | .firmwareTimerExpiry timer arms => Sys2Proof.Machine.execFirmwareTimerExpiry timer s arms
  | .powerOn => Sys2Proof.Machine.execPowerOn s
  | .pwrOkLow => Sys2Proof.Machine.execPwrOkLow s
  | .perstNAssert => Sys2Proof.Machine.execPerstNAssert s
  | .perstNRelease env => Sys2Proof.Machine.execPerstNRelease env s
  | .gatherTimeout => Sys2Proof.Machine.execGatherTimeout s
  | .gatherComplete env => Sys2Proof.Machine.execGatherComplete env s
  | .mainPowerLoss => Sys2Proof.Machine.execMainPowerLoss s
  | .glbResetWrite value => Sys2Proof.Machine.execGlbResetWrite value s
  | .pfFlr => Sys2Proof.Machine.execPfFlr s
  | .vfFlr strand => Sys2Proof.Machine.execVfFlr strand s
  | .vfEnableClear numVfs => Sys2Proof.Machine.execVfEnableClear numVfs s
  | .failStop => Sys2Proof.Machine.execFailStop s
  | .refclkLoss present => Sys2Proof.Machine.execRefclkLoss present s
  | .doorbellWrite fn ring size value => Sys2Proof.Machine.execDoorbellWrite fn ring size value s
  | .entryFetch fn ring => Sys2Proof.Machine.execEntryFetch fn ring s
  | .entryReadCompletion fn ring outcome words => Sys2Proof.Machine.execEntryReadCompletion fn ring outcome words s
  | .dispatch frame => Sys2Proof.Machine.execDispatch frame s
  | .parse frame => Sys2Proof.Machine.execParse frame s
  | .admitStep job phase => Sys2Proof.Machine.execAdmitStep job phase s
  | .keyFetchComplete job intact => Sys2Proof.Machine.execKeyFetchComplete job intact s
  | .nextJob frame creel unit => Sys2Proof.Machine.execNextJob frame creel unit s
  | .stageInClaim job rivals => Sys2Proof.Machine.execStageInClaim job s rivals
  | .dmaReadCompletion job buffer outcome extent data => Sys2Proof.Machine.execDmaReadCompletion job buffer outcome extent data s
  | .computeStart job => Sys2Proof.Machine.execComputeStart job s
  | .fanoutAttemptEnd job spindle accepted => Sys2Proof.Machine.execFanoutAttemptEnd job spindle accepted s
  | .evDone job checkFails => Sys2Proof.Machine.execEvDone job checkFails s
  | .seal job vasFails flagsDisagree => Sys2Proof.Machine.execSeal job vasFails flagsDisagree s
  | .retire job => Sys2Proof.Machine.execRetire job s
  | .hostWriteAck job outcome which => Sys2Proof.Machine.execHostWriteAck job outcome s which
  | .coalesceTimeout fn ring => Sys2Proof.Machine.execCoalesceTimeout fn ring s
  | .vectorUnmask fn vec => Sys2Proof.Machine.execVectorUnmask fn vec s
  | .deadlineExpiry job => Sys2Proof.Machine.execDeadlineExpiry job s
  | .keyExpiry owner index => Sys2Proof.Machine.execKeyExpiry owner index s
  | .bucketRefill strand => Sys2Proof.Machine.execBucketRefill strand s
  | .xstealWindow frame => Sys2Proof.Machine.execXstealWindow frame s
  | .waitForScan => Sys2Proof.Machine.execWaitForScan s
  | .warmKeyTimeout frame creel spindle => Sys2Proof.Machine.execWarmKeyTimeout frame creel spindle s
  | .machineCheck frame creel unit cause => Sys2Proof.Machine.execMachineCheck frame creel unit cause s
  | .watchdogExpiry frame creel spindle => Sys2Proof.Machine.execWatchdogExpiry frame creel spindle s
  | .mchkRecoveryEnd frame creel unit => Sys2Proof.Machine.execMchkRecoveryEnd frame creel unit s
  | .mchkWindowSweep => Sys2Proof.Machine.execMchkWindowSweep s
  | .cappingInterval powerDw junction => Sys2Proof.Machine.execCappingInterval powerDw junction s
  | .gateStep => Sys2Proof.Machine.execGateStep s
  | .dvfsStep frame creel => Sys2Proof.Machine.execDvfsStep frame creel s
  | .ptcLifeCheckpoint => Sys2Proof.Machine.execPtcLifeCheckpoint s
  | .spoolCheckpoint => Sys2Proof.Machine.execSpoolCheckpoint s
  | .ringTeardownEnd fn ring => Sys2Proof.Machine.execRingTeardownEnd fn ring s
  | .drainComplete => Sys2Proof.Machine.execDrainComplete s
  | .strandDrainEnd strand => Sys2Proof.Machine.execStrandDrainEnd strand s
  | .keyActiveFlip owner index => Sys2Proof.Machine.execKeyActiveFlip owner index s
  | .persistRebuild rec => Sys2Proof.Machine.execPersistRebuild rec s
  | .hbmUncorrectableError owner index address => Sys2Proof.Machine.execHbmUncorrectableError owner index address s
  | .admCfgEnable fn value => Sys2Proof.Machine.execAdmCfgEnable fn value s
  | .admCfgDisable fn => Sys2Proof.Machine.execAdmCfgDisable fn s
  | .mbxRingManager value => Sys2Proof.Machine.execMbxRingManager value s
  | .mbxRingTenant strand value => Sys2Proof.Machine.execMbxRingTenant strand value s
  | .strCommWrite strand value => Sys2Proof.Machine.execStrCommWrite strand value s
  | .frmXstealWrite frame value => Sys2Proof.Machine.execFrmXstealWrite frame value s
  | .hdlWtWrite value => Sys2Proof.Machine.execHdlWtWrite value s
  | .shtReqWrite inst slot value cycle => Sys2Proof.Machine.execShtReqWrite inst slot value s cycle
  | .pwrCrlSetWrite value => Sys2Proof.Machine.execPwrCrlSetWrite value s
  | .rngCfgWrite value => Sys2Proof.Machine.execRngCfgWrite value s
  | .plyCfgWrite value => Sys2Proof.Machine.execPlyCfgWrite value s
  | .glbLockSet value => Sys2Proof.Machine.execGlbLockSet value s
  | .ptcBootLowRead => Sys2Proof.Machine.execPtcBootLowRead s
  | .mcsWinData0Read => Sys2Proof.Machine.execMcsWinData0Read s
  | .trcRdData0Read => Sys2Proof.Machine.execTrcRdData0Read s
  | .rcCounterRead bar fn offset size sameCycle => Sys2Proof.Machine.execRcCounterRead bar fn offset size sameCycle s
  | .registerWrite bar fn offset size value cycle => Sys2Proof.Machine.execRegisterWrite bar fn offset size value s cycle
  | .dgeDataWrite slot size writer tag value abort => Sys2Proof.Machine.execDgeDataWrite slot size writer tag value s abort
  | .dgeLastWrite slot value => Sys2Proof.Machine.execDgeLastWrite slot value s
  | .dgeCtlAbort slot value => Sys2Proof.Machine.execDgeCtlAbort slot value s
  | .dgeCtxCfgWrite slot value => Sys2Proof.Machine.execDgeCtxCfgWrite slot value s
  | .digestBlockDone slot comparatorsDisagree => Sys2Proof.Machine.execDigestBlockDone slot comparatorsDisagree s
  | .capQuery job => Sys2Proof.Machine.execCapQuery job s
  | .ringCreate job => Sys2Proof.Machine.execRingCreate job s
  | .ringDestroy job => Sys2Proof.Machine.execRingDestroy job s
  | .irqSet job => Sys2Proof.Machine.execIrqSet job s
  | .attest job => Sys2Proof.Machine.execAttest job s
  | .strandEnable job => Sys2Proof.Machine.execStrandEnable job s
  | .strandDisable job => Sys2Proof.Machine.execStrandDisable job s
  | .strandQuota job => Sys2Proof.Machine.execStrandQuota job s
  | .dlogStart job => Sys2Proof.Machine.execDlogStart job s
  | .dlogSwap job => Sys2Proof.Machine.execDlogSwap job s
  | .dlogStop job => Sys2Proof.Machine.execDlogStop job s
  | .strandSave job => Sys2Proof.Machine.execStrandSave job s
  | .strandRestore job => Sys2Proof.Machine.execStrandRestore job s
  | .drain job hwChange => Sys2Proof.Machine.execDrain job s hwChange
  | .resume job hwChange => Sys2Proof.Machine.execResume job s hwChange
  | .powerDownPrep job hwChange => Sys2Proof.Machine.execPowerDownPrep job s hwChange
  | .deviceReset job hwChange => Sys2Proof.Machine.execDeviceReset job s hwChange
  | .rawEnter job hwChange => Sys2Proof.Machine.execRawEnter job s hwChange
  | .rawRead job => Sys2Proof.Machine.execRawRead job s
  | .rawExit job hwChange => Sys2Proof.Machine.execRawExit job s hwChange
  | .imageLoad job failedReadback spoils hwChange => Sys2Proof.Machine.execImageLoad job failedReadback spoils s hwChange
  | .spoolStatus job => Sys2Proof.Machine.execSpoolStatus job s
  | .spoolPair job => Sys2Proof.Machine.execSpoolPair job s
  | .spoolOpen job => Sys2Proof.Machine.execSpoolOpen job s
  | .spoolClose job => Sys2Proof.Machine.execSpoolClose job s
  | .spoolRespool job => Sys2Proof.Machine.execSpoolRespool job s
  | .traceCtrl job => Sys2Proof.Machine.execTraceCtrl job s
  | .tamperCfg job => Sys2Proof.Machine.execTamperCfg job s
  | .tamperLog job => Sys2Proof.Machine.execTamperLog job s
  | .tamperRelease job => Sys2Proof.Machine.execTamperRelease job s
  | .lcTransition job phase readback hwChange => Sys2Proof.Machine.execLcTransition job phase readback s hwChange
  | .keyGenerate job => Sys2Proof.Machine.execKeyGenerate job s
  | .keyLoadPublic job => Sys2Proof.Machine.execKeyLoadPublic job s
  | .keyUnwrap job => Sys2Proof.Machine.execKeyUnwrap job s
  | .keyWrap job => Sys2Proof.Machine.execKeyWrap job s
  | .keyImport job => Sys2Proof.Machine.execKeyImport job s
  | .keyExport job => Sys2Proof.Machine.execKeyExport job s
  | .keyReplace job => Sys2Proof.Machine.execKeyReplace job s
  | .keyDestroy job => Sys2Proof.Machine.execKeyDestroy job s
  | .keyPublic job => Sys2Proof.Machine.execKeyPublic job s
  | .keyInfo job => Sys2Proof.Machine.execKeyInfo job s
  | .keyPolicy job => Sys2Proof.Machine.execKeyPolicy job s
  | .keyPurge job => Sys2Proof.Machine.execKeyPurge job s
  | .mlKemEncapsulate job => Sys2Proof.Machine.execMlKemEncapsulate job s
  | .mlKemDecapsulate job => Sys2Proof.Machine.execMlKemDecapsulate job s
  | .hqcEncapsulate job => Sys2Proof.Machine.execHqcEncapsulate job s
  | .hqcDecapsulate job => Sys2Proof.Machine.execHqcDecapsulate job s
  | .mcelieceEncapsulate job => Sys2Proof.Machine.execMcelieceEncapsulate job s
  | .mcelieceDecapsulate job => Sys2Proof.Machine.execMcelieceDecapsulate job s
  | .mlDsaSign job => Sys2Proof.Machine.execMlDsaSign job s
  | .mlDsaVerify job => Sys2Proof.Machine.execMlDsaVerify job s
  | .slhDsaSign job => Sys2Proof.Machine.execSlhDsaSign job s
  | .slhDsaVerify job => Sys2Proof.Machine.execSlhDsaVerify job s
  | .hssSign job => Sys2Proof.Machine.execHssSign job s
  | .hssVerify job => Sys2Proof.Machine.execHssVerify job s
  | .xmssSign job => Sys2Proof.Machine.execXmssSign job s
  | .xmssVerify job => Sys2Proof.Machine.execXmssVerify job s
  | .xmssMtSign job => Sys2Proof.Machine.execXmssMtSign job s
  | .xmssMtVerify job => Sys2Proof.Machine.execXmssMtVerify job s
  | .hybridEncapsulate job => Sys2Proof.Machine.execHybridEncapsulate job s
  | .hybridDecapsulate job => Sys2Proof.Machine.execHybridDecapsulate job s
  | .compositeSign job => Sys2Proof.Machine.execCompositeSign job s
  | .compositeVerify job => Sys2Proof.Machine.execCompositeVerify job s
  | .rsaEncrypt job => Sys2Proof.Machine.execRsaEncrypt job s
  | .rsaDecrypt job => Sys2Proof.Machine.execRsaDecrypt job s
  | .ecdhStored job => Sys2Proof.Machine.execEcdhStored job s
  | .ecdhEphemeral job => Sys2Proof.Machine.execEcdhEphemeral job s
  | .x25519X448Stored job => Sys2Proof.Machine.execX25519X448Stored job s
  | .x25519X448Ephemeral job => Sys2Proof.Machine.execX25519X448Ephemeral job s
  | .ffdheStored job => Sys2Proof.Machine.execFfdheStored job s
  | .ffdheEphemeral job => Sys2Proof.Machine.execFfdheEphemeral job s
  | .rsaSign job => Sys2Proof.Machine.execRsaSign job s
  | .rsaVerify job => Sys2Proof.Machine.execRsaVerify job s
  | .ecdsaSign job => Sys2Proof.Machine.execEcdsaSign job s
  | .ecdsaVerify job => Sys2Proof.Machine.execEcdsaVerify job s
  | .eddsaSign job => Sys2Proof.Machine.execEddsaSign job s
  | .eddsaVerify job => Sys2Proof.Machine.execEddsaVerify job s
  | .hash job => Sys2Proof.Machine.execHash job s
  | .hmacGenerate job => Sys2Proof.Machine.execHmacGenerate job s
  | .hmacVerify job => Sys2Proof.Machine.execHmacVerify job s
  | .kmacGenerate job => Sys2Proof.Machine.execKmacGenerate job s
  | .kmacVerify job => Sys2Proof.Machine.execKmacVerify job s
  | .aesCmacGenerate job => Sys2Proof.Machine.execAesCmacGenerate job s
  | .aesCmacVerify job => Sys2Proof.Machine.execAesCmacVerify job s
  | .aesEncrypt job => Sys2Proof.Machine.execAesEncrypt job s
  | .aesDecrypt job => Sys2Proof.Machine.execAesDecrypt job s
  | .chacha20Poly1305Encrypt job => Sys2Proof.Machine.execChacha20Poly1305Encrypt job s
  | .chacha20Poly1305Decrypt job => Sys2Proof.Machine.execChacha20Poly1305Decrypt job s
  | .tdeaEncrypt job => Sys2Proof.Machine.execTdeaEncrypt job s
  | .tdeaDecrypt job => Sys2Proof.Machine.execTdeaDecrypt job s
  | .modexp job => Sys2Proof.Machine.execModexp job s
  | .modmul job => Sys2Proof.Machine.execModmul job s
  | .modinv job => Sys2Proof.Machine.execModinv job s
  | .ecadd job => Sys2Proof.Machine.execEcadd job s
  | .ecmul job => Sys2Proof.Machine.execEcmul job s
  | .generate job => Sys2Proof.Machine.execGenerate job s
  | .reseed job => Sys2Proof.Machine.execReseed job s
  | .customJob job => Sys2Proof.Machine.execCustomJob job s
  | .microWord frame creel spindle => Sys2Proof.Machine.execMicroWord frame creel spindle s
  | .microCall frame creel spindle => Sys2Proof.Machine.execMicroCall frame creel spindle s
  | .microReturn frame creel spindle => Sys2Proof.Machine.execMicroReturn frame creel spindle s
  | .pieceStaged job => Sys2Proof.Machine.execPieceStaged job s
  | .hashBegin frame creel spindle => Sys2Proof.Machine.execHashBegin frame creel spindle s
  | .absorbKey frame creel spindle => Sys2Proof.Machine.execAbsorbKey frame creel spindle s
  | .absorbX frame creel spindle => Sys2Proof.Machine.execAbsorbX frame creel spindle s
  | .absorbInput frame creel spindle => Sys2Proof.Machine.execAbsorbInput frame creel spindle s
  | .absorbAux frame creel spindle => Sys2Proof.Machine.execAbsorbAux frame creel spindle s
  | .hashFinal frame creel spindle => Sys2Proof.Machine.execHashFinal frame creel spindle s
  | .maskedXor frame creel spindle => Sys2Proof.Machine.execMaskedXor frame creel spindle s
  | .unmaskOut frame creel spindle => Sys2Proof.Machine.execUnmaskOut frame creel spindle s
  | .appletCall job => Sys2Proof.Machine.execAppletCall job s
  | .callTake ctx => Sys2Proof.Machine.execCallTake ctx s
  | .contextSlice core => Sys2Proof.Machine.execContextSlice core s
  | .appletTimeLimit ctx => Sys2Proof.Machine.execAppletTimeLimit ctx s
  | .subjobCompletion job => Sys2Proof.Machine.execSubjobCompletion job s
  | .tgateArrival toTrusted => Sys2Proof.Machine.execTgateArrival toTrusted s
  | .vectorPowerDown core begins => Sys2Proof.Machine.execVectorPowerDown core s begins
  | .vectorWake core => Sys2Proof.Machine.execVectorWake core s
  | .exit core => Sys2Proof.Machine.execExit core s
  | .submit core => Sys2Proof.Machine.execSubmit core s
  | .wait core => Sys2Proof.Machine.execWait core s
  | .poll core => Sys2Proof.Machine.execPoll core s
  | .yield core => Sys2Proof.Machine.execYield core s
  | .time core => Sys2Proof.Machine.execTime core s
  | .random core => Sys2Proof.Machine.execRandom core s
  | .add core rd ra rb => Sys2Proof.Machine.execAdd core rd ra rb s
  | .sub core rd ra rb => Sys2Proof.Machine.execSub core rd ra rb s
  | .and core rd ra rb => Sys2Proof.Machine.execAnd core rd ra rb s
  | .or core rd ra rb => Sys2Proof.Machine.execOr core rd ra rb s
  | .xor core rd ra rb => Sys2Proof.Machine.execXor core rd ra rb s
  | .shl core rd ra rb => Sys2Proof.Machine.execShl core rd ra rb s
  | .shr core rd ra rb => Sys2Proof.Machine.execShr core rd ra rb s
  | .sar core rd ra rb => Sys2Proof.Machine.execSar core rd ra rb s
  | .mul core rd ra rb => Sys2Proof.Machine.execMul core rd ra rb s
  | .mulhu core rd ra rb => Sys2Proof.Machine.execMulhu core rd ra rb s
  | .cmp core rd ra rb => Sys2Proof.Machine.execCmp core rd ra rb s
  | .csel core cond rd ra rb => Sys2Proof.Machine.execCsel core cond rd ra rb s
  | .addi core rd ra imm => Sys2Proof.Machine.execAddi core rd ra imm s
  | .andi core rd ra imm => Sys2Proof.Machine.execAndi core rd ra imm s
  | .ori core rd ra imm => Sys2Proof.Machine.execOri core rd ra imm s
  | .xori core rd ra imm => Sys2Proof.Machine.execXori core rd ra imm s
  | .lui core rd ra imm => Sys2Proof.Machine.execLui core rd ra imm s
  | .cmpi core rd ra imm => Sys2Proof.Machine.execCmpi core rd ra imm s
  | .movi core rd ra imm => Sys2Proof.Machine.execMovi core rd ra imm s
  | .ld core rd ra imm => Sys2Proof.Machine.execLd core rd ra imm s
  | .st core rd ra imm => Sys2Proof.Machine.execSt core rd ra imm s
  | .ldb core rd ra imm => Sys2Proof.Machine.execLdb core rd ra imm s
  | .stb core rd ra imm => Sys2Proof.Machine.execStb core rd ra imm s
  | .mov core rd ra rb => Sys2Proof.Machine.execMov core rd ra rb s
  | .padd core rd ra rb => Sys2Proof.Machine.execPadd core rd ra rb s
  | .psub core rd ra rb => Sys2Proof.Machine.execPsub core rd ra rb s
  | .ptoi core rd ra rb => Sys2Proof.Machine.execPtoi core rd ra rb s
  | .mkptr core rd ra rb => Sys2Proof.Machine.execMkptr core rd ra rb s
  | .hadd core rd ra rb => Sys2Proof.Machine.execHadd core rd ra rb s
  | .vdmake core rd ra rb => Sys2Proof.Machine.execVdmake core rd ra rb s
  | .la core rd ra imm => Sys2Proof.Machine.execLa core rd ra imm s
  | .b core cond offset => Sys2Proof.Machine.execB core cond offset s
  | .call core offset => Sys2Proof.Machine.execCall core offset s
  | .ret core rest => Sys2Proof.Machine.execRet core rest s
  | .jr core rd ra rb => Sys2Proof.Machine.execJr core rd ra rb s
  | .callr core rd ra rb => Sys2Proof.Machine.execCallr core rd ra rb s
  | .dmai core rd ra rb outcome data => Sys2Proof.Machine.execDmai core rd ra rb outcome data s
  | .dmao core rd ra rb => Sys2Proof.Machine.execDmao core rd ra rb s
  | .csrr core rd ra csr => Sys2Proof.Machine.execCsrr core rd ra csr s
  | .csrw core rd ra csr => Sys2Proof.Machine.execCsrw core rd ra csr s
  | .nop core word => Sys2Proof.Machine.execNop core s word
  | .eret core => Sys2Proof.Machine.execEret core s
  | .tgsend core rd ra rb => Sys2Proof.Machine.execTgsend core rd ra rb s
  | .tgrecv core rd ra => Sys2Proof.Machine.execTgrecv core rd ra s
  | .kmint core rd ra rb => Sys2Proof.Machine.execKmint core rd ra rb s
  | .declass core rd ra => Sys2Proof.Machine.execDeclass core rd ra s
  | .strip core rd ra imm => Sys2Proof.Machine.execStrip core rd ra imm s
  | .vloop core rd ra imm => Sys2Proof.Machine.execVloop core rd ra imm s
  | .vld core op => Sys2Proof.Machine.execVld core op s
  | .vldp core op => Sys2Proof.Machine.execVldp core op s
  | .vst core op => Sys2Proof.Machine.execVst core op s
  | .vldx core op => Sys2Proof.Machine.execVldx core op s
  | .vldxp core op => Sys2Proof.Machine.execVldxp core op s
  | .vstx core op => Sys2Proof.Machine.execVstx core op s
  | .vadd core op => Sys2Proof.Machine.execVadd core op s
  | .vsub core op => Sys2Proof.Machine.execVsub core op s
  | .vand core op => Sys2Proof.Machine.execVand core op s
  | .vor core op => Sys2Proof.Machine.execVor core op s
  | .vxor core op => Sys2Proof.Machine.execVxor core op s
  | .vmul core op => Sys2Proof.Machine.execVmul core op s
  | .vwmulU core op => Sys2Proof.Machine.execVwmulU core op s
  | .vwmulS core op => Sys2Proof.Machine.execVwmulS core op s
  | .vdot4U core op => Sys2Proof.Machine.execVdot4U core op s
  | .vdot4S core op => Sys2Proof.Machine.execVdot4S core op s
  | .vdot2U core op => Sys2Proof.Machine.execVdot2U core op s
  | .vdot2S core op => Sys2Proof.Machine.execVdot2S core op s
  | .vcmpeq core op => Sys2Proof.Machine.execVcmpeq core op s
  | .vcmpltu core op => Sys2Proof.Machine.execVcmpltu core op s
  | .vfill core op => Sys2Proof.Machine.execVfill core op s
  | .vext core op => Sys2Proof.Machine.execVext core op s
  | .vsum core op => Sys2Proof.Machine.execVsum core op s
  | .noiseSample src outs edges => Sys2Proof.Machine.execNoiseSample src outs edges s
  | .sourceStartupPass src => Sys2Proof.Machine.execSourceStartupPass src s
  | .conditionedBlock => Sys2Proof.Machine.execConditionedBlock s
  | .frameBufferRefill frame => Sys2Proof.Machine.execFrameBufferRefill frame s
  | .maskGeneratorReseed frame creel => Sys2Proof.Machine.execMaskGeneratorReseed frame creel s
  | .tamperEvent group => Sys2Proof.Machine.execTamperEvent group s
  | .vigilSample ticks active => Sys2Proof.Machine.execVigilSample ticks active s
  | .tempSample detA detB => Sys2Proof.Machine.execTempSample detA detB s
  | .shadowMismatch offset => Sys2Proof.Machine.execShadowMismatch offset s
  | .stateCodeInvalid machine code => Sys2Proof.Machine.execStateCodeInvalid machine code s
  | .cellRemoval => Sys2Proof.Machine.execCellRemoval s
  | .thermTrip => Sys2Proof.Machine.execThermTrip s
  | .spoolPresEdge port high => Sys2Proof.Machine.execSpoolPresEdge port high s
  | .spoolInsert port => Sys2Proof.Machine.execSpoolInsert port s
  | .spoolRemove port => Sys2Proof.Machine.execSpoolRemove port s
  | .spoolProbeResult port report => Sys2Proof.Machine.execSpoolProbeResult port report s
  | .hello port genuine signatureOk payload signature frame => Sys2Proof.Machine.execHello port genuine signatureOk s payload signature frame
  | .finish port tagOk report tag frame => Sys2Proof.Machine.execFinish port tagOk report s tag frame
  | .pair port result report frame => Sys2Proof.Machine.execPair port result report s frame
  | .status port report frame => Sys2Proof.Machine.execStatus port report s frame
  | .read port recno tagOk body result frame => Sys2Proof.Machine.execRead port recno tagOk body s result frame
  | .write port result frame => Sys2Proof.Machine.execWrite port result s frame
  | .commit port result commitNo frame => Sys2Proof.Machine.execCommit port result commitNo s frame
  | .list port records cursor frame => Sys2Proof.Machine.execList port records cursor s frame
  | .release port result frame => Sys2Proof.Machine.execRelease port result s frame
  | .close port result frame => Sys2Proof.Machine.execClose port result s frame
  | .spoolLinkTimeout port => Sys2Proof.Machine.execSpoolLinkTimeout port s
  | .plyTraining port refclk neighbour ring lanes session => Sys2Proof.Machine.execPlyTraining port refclk neighbour ring lanes session s
  | .evPly port msg => Sys2Proof.Machine.execEvPly port msg s
  | .plyHeartbeatMiss port => Sys2Proof.Machine.execPlyHeartbeatMiss port s
  | .plyLinkDown port => Sys2Proof.Machine.execPlyLinkDown port s
  | .shuttleRequest inst slot ctx now jobLst bound job => Sys2Proof.Machine.execShuttleRequest inst slot ctx now jobLst bound s job
  | .shuttleRelease inst lane now => Sys2Proof.Machine.execShuttleRelease inst lane now s
  | .holdCut inst lane now => Sys2Proof.Machine.execHoldCut inst lane now s
  | .starvation inst slot ctx now => Sys2Proof.Machine.execStarvation inst slot ctx now s
  | .emergencyPreempt inst now lane => Sys2Proof.Machine.execEmergencyPreempt inst now s lane
  | .ident => Sys2Proof.Machine.execIdent s
  | .state => Sys2Proof.Machine.execState s
  | .temp => Sys2Proof.Machine.execTemp s
  | .power => Sys2Proof.Machine.execPower s
  | .alert => Sys2Proof.Machine.execAlert s
  | .cell => Sys2Proof.Machine.execCell s
  | .extest => Sys2Proof.Machine.execExtest s
  | .idcode => Sys2Proof.Machine.execIdcode s
  | .samplePreload => Sys2Proof.Machine.execSamplePreload s
  | .extestPulse => Sys2Proof.Machine.execExtestPulse s
  | .extestTrain => Sys2Proof.Machine.execExtestTrain s
  | .bypass => Sys2Proof.Machine.execBypass s
  | .tapReset => Sys2Proof.Machine.execTapReset s
  | .debugOpen path => Sys2Proof.Machine.execDebugOpen path s
  | .tamperSourceClear src => Sys2Proof.Machine.execTamperSourceClear src s
  | .stagingBankRelease job => Sys2Proof.Machine.execStagingBankRelease job s
  | .smbusTimeout => Sys2Proof.Machine.execSmbusTimeout s
  | .factoryOtpProgram field => Sys2Proof.Machine.execFactoryOtpProgram field s
  | .factoryTestMode mode => Sys2Proof.Machine.execFactoryTestMode mode s
  | .jtagDebugAccess core action => Sys2Proof.Machine.execJtagDebugAccess core action s
  | .atsInvalidation carriedOut => Sys2Proof.Machine.execAtsInvalidation carriedOut s
  | .doeRequest linkStream selective => Sys2Proof.Machine.execDoeRequest linkStream selective s
  | .hbmCorrectedError => Sys2Proof.Machine.execHbmCorrectedError s
  | .coreMemoryUncorrectable core address => Sys2Proof.Machine.execCoreMemoryUncorrectable core address s

end Sys2Proof.Machine
end

