-- ==== Sys2Proof/Safety.lean ====
section
/-! DEFINITION. What a safe state is, and the words the statements use about jobs. -/

namespace Sys2Proof.Machine

/-- GLB_MODE reports one of the twelve codes, the one its conditions call for (R32, R34). -/
def State.Settled (s : State) : Prop := s.glb.mode = s.modeNow

/-- Job `j` has ended without output and waits for its seal: its status, and the length word 7 reports (R60, R61). -/
def State.Ended (s : State) (j major detail len : Nat) : Prop :=
  ∃ y, s.job? j = some y ∧ y.stage = .s6 ∧ y.major = major ∧ y.detail = detail ∧ y.resLen = len ∧
    y.result = []

/-- Job `j` has ended with status OK and these bytes as its output (R60, R71). -/
def State.EndedWith (s : State) (j : Nat) (out : Bytes) : Prop :=
  ∃ y, s.job? j = some y ∧ y.stage = .s6 ∧ y.major = 0 ∧ y.detail = 0 ∧ y.result = out ∧ y.resLen = out.length

/-- The computation of job `j` has ended: its status, and the length of its result (R71, R204). -/
def State.Computed (s : State) (j major detail len : Nat) : Prop :=
  ∃ y, s.job? j = some y ∧ y.stage = .ended ∧ y.major = major ∧ y.detail = detail ∧ y.result.length = len

/-- A command has created the key of `slot` that `made` holds, and `out` is its output: with PERSIST the record is on its way to the
spool and the output waits for its commit, else the job has ended (R117, R291). -/
def State.MadeKey (made t : State) (j slot : Nat) (out : Bytes) : Prop :=
  t.key? slot = made.key? slot ∧ ∀ k, made.key? slot = some k →
    if k.policy.flag polPersist then ∃ y, t.job? j = some y ∧ y.phase = 2 ∧ y.result = out else t.EndedWith j out

/-- A part of a command that needs `n` has its units now: it needs none, or in the frame that R233 chooses one is idle (R135). -/
def State.UnitsReady (s : State) (x : Job) (n : FirmNeed) : Prop :=
  n.spindle = false ∧ n.carder = false ∨
    ∃ f, ((List.range 4).map (fun i => (s.homeOf x + i) % 4)).find? (s.firmFrame n) = some f ∧ s.firmUnits n f ≠ []

/-- The tamper log has one more record than before, of one source and with this DETAIL; 512 are kept (R449). -/
def State.LogsOne (s t : State) (source : Nat) (detail : W32) : Prop :=
  ∃ r, t.vigil.log = (s.vigil.log ++ [r]).drop (s.vigil.log.length + 1 - 512) ∧ r.source = BitVec.ofNat 8 source ∧
    r.seq = s.vigil.logSeq ∧ r.detail = detail ∧ t.vigil.logSeq = s.vigil.logSeq + 1

/-! ## Resets (Table 2.6) -/

/-- `t` is the device held in a reset of this cause that keeps power: rings, jobs and VF Enable are gone; OTP, vigil RAM, RNG_PERS and,
unless the contents of HBM are lost, the key table are kept. -/
def State.KeptByReset (s t : State) (cause : BitVec 4) : Prop :=
  t.glb.phase = .held ∧ t.glb.nextCause = cause ∧ t.rings = [] ∧ t.jobs = [] ∧ t.host.numVfs = 0 ∧ t.otp = s.otp ∧
    t.vigil = s.vigil ∧ t.rng.pers = s.rng.pers ∧ (s.hbm.lost = false → t.kst = s.kst.warm)

/-- The link of `s` and the PF's BARs and Command register are in `t` as they were (R44). -/
def State.LinkStays (s t : State) : Prop :=
  t.host.width = s.host.width ∧ t.host.speed = s.host.speed ∧ t.host.bar0 = s.host.bar0 ∧ t.host.bar2 = s.host.bar2 ∧
    t.host.command = s.host.command

/-! ## Crixa cores (chapter 13) -/

/-- A core executes its next instruction now: it runs, it stands at no debug breakpoint, its load slot is empty, its call is not
cancelled, and an applet's pc lies in the code region (R363, R365, R378). -/
def State.Executes (s : State) (n : Nat) : Prop :=
  s.coreRuns n = true ∧ s.atBreak n = false ∧ (s.core n).r.slot = none ∧ (∀ k, (s.core n).ctx = some k → (s.ctx k).cancelled = false) ∧
    ((s.core n).r.applet = true → inCode (s.core n).r.pc = true)

/-- A core has run one instruction: its registers, the cycles its call's context counts, and nothing else but the words of
memory stored to. -/
def State.Ran (s t : State) (n cycles : Nat) (r : CRegs) (stored : List CWhere) : Prop :=
  (t.core n).r = r ∧ (∀ k, (s.core n).ctx = some k → (t.ctx k).cycles = (s.ctx k).cycles + cycles) ∧
    (∀ w, w ∉ stored → t.cword w = s.cword w) ∧ (∀ m, m ≠ n → (t.core m).r = (s.core m).r) ∧ t.jobs = s.jobs ∧
    t.kst = s.kst ∧ t.rings = s.rings ∧ t.host = s.host

/-- Supervisor code of a core has taken a trap (R365). -/
def State.Trapped (s t : State) (n code tval : Nat) : Prop :=
  (t.core n).r = { (s.core n).r with
    epc := (s.core n).r.pc, cause := code, tval := BitVec.ofNat 64 tval, inTrap := true, pc := Config.trapHandler n } ∧
    (t.core n).traps = satInc (s.core n).traps ∧ ∀ w, t.cword w = s.cword w

end Sys2Proof.Machine
end

