-- ==== Sys2Proof/Certificates/Slice0/Obligations.lean ====
section
/-! DEFINITION. The statements for the provers. Each formalises rules of spec/ or says what the model does with a command; the
words "answers a next state" stand for `exec … = .next t`. -/

open Sys2Proof Sys2Proof.Machine

/-! ## The block -/

/-- A step with a command at the front of the queue is `exec` of it on the state with the queue's rest; and every command completes:
for each of the 336 constructors of `Instr`, whatever its operands and whatever the state, `exec` answers a next state. What that
state is, the statements of each command's family say. -/
def Obligations.StepRunsFrontCommand : Prop :=
  (∀ (c : Instr) (rest : List Instr) (s : State),
    step { s with pending := c :: rest } = exec c { s with pending := rest }) ∧
  ∀ (c : Instr) (s : State), ∃ t, exec c s = .next t

/-- With nothing waiting a microsecond passes (log 1): PTC_BOOT counts while the device measures time and the whole state stays
while it does not; with the trace buffer off, the commands of the delay-list entries that have expired join the queue, and nothing
else does but the entries that fired early and the time-outs of warm keys. -/
def Obligations.EmptyQueuePassesAMicrosecond : Prop :=
  ∀ s : State, s.pending = [] →
    (s.ticking = false → step s = .next s.settle) ∧
    (s.ticking = true → ∃ t, step s = .next t ∧ t.glb.ptcBoot = s.glb.ptcBoot + 1 ∧ t.otp = s.otp ∧ t.pins = s.pins ∧
      (s.trc.enable = false → s.trc.mirQ = [] →
        (∀ l e, l < 8 → e ∈ s.dl l → e.at_ ≤ t.now → (∀ p q, e.cmd ≠ .cappingInterval p q) → e.cmd ∈ t.pending) ∧
        (∀ c ∈ t.pending, c ∈ s.hdl.early ∨
          (∃ l e, l < 8 ∧ e ∈ s.dl l ∧ e.at_ ≤ t.now ∧ (c = e.cmd ∨ ∃ p q, c = .cappingInterval p q)) ∨
          ∃ f k u, c = .warmKeyTimeout f k u)))

/-- After reset: KINDLE's code in GLB_MODE, no ring, no job, no key, no function number enabled, nothing mapped, and the register
values Appendix A gives. -/
def Obligations.ResetLeaves : Prop :=
  State.reset.glb.mode = 0x33 ∧ State.reset.glb.lock = false ∧ State.reset.rings = [] ∧ State.reset.jobs = [] ∧
    State.reset.kst.keys = [] ∧ State.reset.host.numVfs = 0 ∧ State.reset.hdl.wt = 0x08040201 ∧
    State.reset.hdl.wf = 0x03E80001 ∧ State.reset.cap.set = 0x19 ∧ State.reset.spl.cfg = 0x00C80001 ∧
    State.reset.ply.cfg = 3 ∧ (State.reset.frame 2).xsteal = 0x00640100 ∧ (State.reset.creel 3 10).ctl = 0x00640002 ∧
    (State.reset.shuttle 7).starve = 0x00100000 ∧ State.reset.pending = []

/-- GLB_MODE's invariant: the register reports one of the twelve codes of Table 2.1, the one the conditions in force call for. -/
def Obligations.EveryStepReportsItsMode : Prop :=
  ∀ s t : State, step s = .next t → t.Settled ∧ t.glb.mode ∈ modeCodes

/-- The state after reset has the invariant of `EveryStepReportsItsMode`. -/
def Obligations.ResetReportsItsMode : Prop :=
  State.reset.Settled ∧ State.reset.glb.mode ∈ modeCodes

/-- R34: of several conditions the first of the list gives the code; PREV takes the code reported before a change. -/
def Obligations.ModeOrder : Prop :=
  ∀ s : State,
    (s.glb.phase = .vigil → s.modeNow = 0x0F) ∧
    (s.glb.phase ≠ .vigil → s.glb.zeroized = true → s.modeNow = 0xC3) ∧
    (s.glb.phase ≠ .vigil → s.glb.zeroized = false → s.glb.halted = true → s.modeNow = 0xAA) ∧
    (s.glb.phase = .kindle → s.glb.zeroized = false → s.glb.halted = false → s.modeNow = 0x33) ∧
    (s.glb.phase = .gather ∨ s.glb.phase = .running → s.glb.zeroized = false → s.glb.halted = false →
      (s.glb.debug = true → s.modeNow = 0xA5) ∧
      (s.glb.debug = false → s.glb.phase = .gather →
        s.modeNow = if s.glb.unseeded then 0x55 else 0x3C) ∧
      (s.glb.debug = false → s.glb.phase = .running →
        (s.glb.raw = true → s.modeNow = 0x99) ∧
        (s.glb.raw = false → s.glb.update = true → s.modeNow = 0x96) ∧
        (s.glb.raw = false → s.glb.update = false →
          (s.glb.drain ≠ .none → s.modeNow = 0x69) ∧
          (s.glb.drain = .none →
            s.modeNow = if s.glb.unseeded then 0x55 else if s.capped then 0x66 else 0x5A)))) ∧
    (s.modeNow ≠ s.glb.mode → s.settle.glb.mode = s.modeNow ∧ s.settle.glb.prev = s.glb.mode) ∧
    (s.modeNow = s.glb.mode → s.settle = s)

/-! ## Power, reset and power-up -/

/-- Resets of Table 2.6. A power-on reset loses the key table; every reset that keeps power (PERST_N, which PWR_OK low counts as,
GLB_RESET with its key, FLR of the PF) keeps what `KeptByReset` says and records its cause; PERST_N takes the link down, a device
reset leaves it up with the PF's BARs and Command register. Another value in GLB_RESET does nothing. When main power goes the device
is in VIGIL; what OTP was being programmed with may be cut short, and otherwise OTP is as it was. -/
def Obligations.ResetCommands : Prop :=
  ∀ s : State,
    (s.pins.mainPower = false → ∃ t, exec .powerOn s = .next t ∧
      t.pins.mainPower = true ∧ t.pins.perst = true ∧ t.glb.phase = .held ∧ t.glb.nextCause = 0 ∧ t.kst.keys = [] ∧
      t.jobs = [] ∧ t.rings = [] ∧ t.otp = s.otp ∧ t.vigil = s.vigil) ∧
    (s.pins.mainPower = true → s.glb.tripped = true → ∃ t, exec .pwrOkLow s = .next t ∧
      t.pins.pwrOk = false ∧ t.pins.perst = true ∧ t.glb.phase = .held ∧ t.glb.nextCause = 0 ∧ t.kst.keys = [] ∧
      t.otp = s.otp ∧ t.vigil = s.vigil) ∧
    (s.pins.mainPower = true → s.glb.tripped = false → s.glb.phase ≠ .held → ∃ t, exec .pwrOkLow s = .next t ∧
      t.pins.pwrOk = false ∧ t.pins.perst = true ∧ t.host.width = 0 ∧ s.KeptByReset t 1) ∧
    (s.pins.mainPower = true → s.glb.phase ≠ .held → ∃ t, exec .perstNAssert s = .next t ∧
      t.pins.perst = true ∧ t.host.width = 0 ∧ s.KeptByReset t 1) ∧
    (s.pins.mainPower = true → s.glb.phase = .held → s.glb.tripped = false → ∀ c, c ∈ [Instr.perstNAssert, .pwrOkLow] →
      ∃ t, exec c s = .next t ∧ t.pins.perst = true ∧ t.pins.pwrOk = (if c = .pwrOkLow then false else s.pins.pwrOk) ∧
        t.host.width = 0 ∧ t.glb.phase = .held ∧ t.kst = s.kst ∧ t.otp = s.otp ∧ t.vigil = s.vigil ∧
        t.glb.nextCause = (if s.glb.nextCause = 0 then 0 else 1)) ∧
    (s.barsOpen = true →
      (∃ t, exec (.glbResetWrite 0x9528) s = .next t ∧ s.LinkStays t ∧ s.KeptByReset t 2) ∧
      (∀ v : W32, v ≠ 0x9528 → exec (.glbResetWrite v) s = .next s.settle) ∧
      (∃ t, exec .pfFlr s = .next t ∧ s.LinkStays t ∧ s.KeptByReset t 3)) ∧
    (s.pins.mainPower = true → ∃ t, exec .mainPowerLoss s = .next t ∧
      t.glb.mode = 0x0F ∧ t.glb.phase = .vigil ∧ t.pins.mainPower = false ∧ t.pins.onCell = s.pins.cell ∧
      t.kst.keys = [] ∧ t.jobs = [] ∧ t.rings = [] ∧ t.otp = s.cutOtp.otp ∧
      (s.lcs.run = none → s.glb.phase ≠ .gather → s.jobs = [] → t.otp = s.otp) ∧
      (s.pins.cell = true → t.vigil = s.vigil))

/-- Power-up and the conditions that end it: release of PERST_N runs KINDLE to the start of GATHER or into HALTED; GATHER that has
not seeded the generators 40 ms after their start is UNSEEDED and goes on; seeded, the device serves; an uncorrectable error in
control state halts with cause 2; PTC_BOOT goes on from the other source. -/
def Obligations.PowerUpCommands : Prop :=
  ∀ s : State,
    (∀ env, s.pins.mainPower = true → s.glb.phase = .held → s.glb.tripped = false →
      ∃ t, exec (.perstNRelease env) s = .next t ∧ t.glb.cause = s.glb.nextCause ∧
        (t.glb.halted = true ∧ t.glb.haltCause = 3 ∨
          t.glb.halted = false ∧ t.glb.phase = .gather ∧ t.glb.step = 8) ∧
        (env.fail = 1 → t.glb.halted = true)) ∧
    (s.live = true → s.glb.phase = .gather → s.rng.state = 0 →
      (s.rng.startAt + 40000 ≤ s.now →
        exec .gatherTimeout s = .next ({ s with glb := { s.glb with unseeded := true } } : State).settle) ∧
      (s.now < s.rng.startAt + 40000 → exec .gatherTimeout s = .next s.settle)) ∧
    (∀ env, s.live = true → s.glb.phase = .gather → s.rng.state = 1 → s.glb.ringsOpen = false → s.otp.drs0.kind = 1 →
      (s.gatherDraws env = true → s.serves 4 = true) →
      ∃ t, exec (.gatherComplete env) s = .next t ∧ t.glb.phase = .running ∧ t.glb.step = 12 ∧ t.glb.unseeded = false) ∧
    (s.awake = true → s.glb.halted = false → ∃ t, exec .failStop s = .next t ∧
      t.glb.halted = true ∧ t.glb.haltCause = 2 ∧ t.jobs = [] ∧ t.glb.ptcBoot = s.glb.ptcBoot ∧ t.vigil = s.vigil ∧
      t.otp = s.otp ∧ (s.glb.zeroized = false → t.glb.mode = 0xAA)) ∧
    (∀ p, s.awake = true → exec (.refclkLoss p) s = .next ({ s with
      pins := { s.pins with refclk := p }
      glb := { s.glb with osc := !p, oscUsed := s.glb.oscUsed || !p } } : State).settle) ∧
    (s.ticking = true → s.tmp.loaded = true → ∃ t, exec .ptcLifeCheckpoint s = .next t ∧
      t.vigil = { s.vigil with life := s.glb.ptcLife, lifeOk := true } ∧ t.glb.ptcLife = s.glb.ptcLife ∧ t.otp = s.otp)

/-! ## Rings -/

/-- R63 and R67: with a and b the distances of the old and the new TAIL from DONE, a doorbell write with a < b ≤ ring size sets TAIL
and nothing else of the state, one with b = a has no effect, and one outside these bounds is the structural fault 0x0B, which halts
the function; one to a ring that is missing or being destroyed, to one of a halted function and one before rings are accepted (R67),
to a mirror ring (log 76) and one of 4 bytes (R62) is ignored and counted in STR_DB_DROP; an access of another size is an
Unsupported Request (R8). -/
def Obligations.DoorbellWrites : Prop :=
  (∀ (s : State) (f r size : Nat) (v : W64), s.barsOpen = true → s.fnThere f = true → r < ringLimit f →
    (size ≠ 4 → size ≠ 8 → exec (.doorbellWrite f r size v) s = .next s.unsupported.settle) ∧
    (size = 4 ∨ size = 8 → s.ring? f r = none → exec (.doorbellWrite f r size v) s = .next
      (s.setPage f { s.page f with dbDrop := satInc (s.page f).dbDrop }).settle)) ∧
  ∀ (s : State) (f r : Nat) (g : Ring) (v : W64), s.barsOpen = true → s.fnThere f = true → r < ringLimit f →
    s.ring? f r = some g →
    (s.glb.ringsOpen = true → g.destroying = false → g.mirror = false → (s.page f).halted = false →
      (g.tail - g.done).toNat < (v.setWidth 32 - g.done).toNat → (v.setWidth 32 - g.done).toNat ≤ 2 ^ g.log2 →
      exec (.doorbellWrite f r 8 v) s = .next
        (s.setRing f r { g with tail := v.setWidth 32, bells := g.bells ++ [(v.setWidth 32, s.glb.ptcBoot)] }).settle) ∧
    (s.glb.ringsOpen = true → g.destroying = false → g.mirror = false → (s.page f).halted = false →
      ((v.setWidth 32 - g.done).toNat = (g.tail - g.done).toNat → exec (.doorbellWrite f r 8 v) s = .next s.settle) ∧
      ((v.setWidth 32 - g.done).toNat < (g.tail - g.done).toNat ∨
          (v.setWidth 32 - g.done).toNat ≠ (g.tail - g.done).toNat ∧ 2 ^ g.log2 < (v.setWidth 32 - g.done).toNat →
        (f = 0 → s.glb.halted = false) → ∃ t, exec (.doorbellWrite f r 8 v) s = .next t ∧ (t.page f).halted = true ∧
          (fld (s.page f).fault.toNat 0 8 = 0 → fld (t.page f).fault.toNat 0 8 = 0x0B))) ∧
    (∀ size, size = 4 ∨ size = 8 →
      size ≠ 8 ∨ g.destroying = true ∨ g.mirror = true ∨ (s.page f).halted = true ∨ s.glb.ringsOpen = false →
      exec (.doorbellWrite f r size v) s = .next
        (s.setPage f { s.page f with dbDrop := satInc (s.page f).dbDrop }).settle)

/-- Doorbells keep the ring within its bounds: from any state in which no more entries are outstanding than the ring holds, a
doorbell write leaves a ring of which the same is true, whatever value is written. -/
def Obligations.DoorbellKeepsRingBounds : Prop :=
  ∀ (s t : State) (f r size : Nat) (v : W64) (g : Ring), s.ring? f r = some g → (g.tail - g.done).toNat ≤ 2 ^ g.log2 →
    exec (.doorbellWrite f r size v) s = .next t →
    ∀ g', t.ring? f r = some g' → (g'.tail - g'.done).toNat ≤ 2 ^ g'.log2 ∧ g'.log2 = g.log2 ∧ g'.base = g.base

/-- From a ring to a job: S1, at the ring's turn, reads the next covered entry, 64 bytes at BASE plus 64 times its slot; a chain
of one entry that returns becomes a token of its class, held down to the ring's CEIL; the frame that dispatches takes it off the
ready tokens, unless an event token of the frame waits (R329); S2 makes the job of it, at S3. -/
def Obligations.EntriesBecomeJobs : Prop :=
  ∀ (s : State) (f r : Nat) (g : Ring), s.ring? f r = some g →
    (s.mayFetch f r = true → g.destroying = false → g.mirror = false → g.fetched ≠ g.tail → s.ringHeld f r g < 64 →
      s.allHeld < 8192 → s.fetchTurn f r = true →
      ∃ t, exec (.entryFetch f r) s = .next t ∧
        t.rings = (s.setRing f r { g with fetched := g.fetched + 1, reading := g.reading ++ [g.fetched.toNat] }).rings ∧
        t.host = (s.send (.readReq f (g.base.toNat + 64 * (g.fetched.toNat % 2 ^ g.log2)) 64)).host ∧ t.jobs = s.jobs) ∧
    (∀ c e, g.reading = [c] → g.held = [] → e.length = 8 → fld (ew e 0) 0 3 = 7 →
      ∃ t tok, exec (.entryReadCompletion f r .ok e) s = .next t ∧ t.hdl.ready = s.hdl.ready ++ [tok] ∧
        tok.fn = f ∧ tok.ring = r ∧ tok.start = c ∧ tok.entries = [e] ∧ tok.cls = min (fld (ew e 0) 8 2) g.ceil ∧
        t.jobs = s.jobs ∧ t.fns = s.fns) ∧
    (∀ o e, o ≠ ReadOutcome.ok → o ≠ ReadOutcome.short → g.reading ≠ [] → (f = 0 → s.glb.halted = false) →
      ∃ t, exec (.entryReadCompletion f r o e) s = .next t ∧
      (t.page f).halted = true ∧ (fld (s.page f).fault.toNat 0 8 = 0 → fld (t.page f).fault.toNat 0 8 = 0x0C)) ∧
    (∀ k c x q tok, s.live = true → k < 4 → s.eventWaits k = false → s.chooseClass k = some (c, x) →
      nextAfter 64 (x.rrPtr.getD c 63) (fun q => (s.tokensOf k c).any (fun t => queueOf t.fn = q)) = some q →
      (s.tokensOf k c).find? (fun t => queueOf t.fn = q) = some tok → x.parseLen + tok.entries.length ≤ 64 →
      ∃ t, exec (.dispatch k) s = .next t ∧ (t.frame k).parse = x.parse ++ [tok] ∧ t.jobs = s.jobs ∧
        t.hdl.ready = s.hdl.ready.erase tok) ∧
    (∀ k, s.eventWaits k = true → exec (.dispatch k) s = .next s.settle) ∧
    (∀ k tok rest, s.live = true → k < 4 → (s.frame k).parse = tok :: rest → chainFault tok.entries = none →
      ∃ t, exec (.parse k) s = .next t ∧ t.job? s.nextJob = some (s.jobOf tok) ∧ t.nextJob = s.nextJob + 1 ∧
        (s.jobOf tok).stage = .s3 ∧ (t.frame k).parse = rest ∧ t.rings = s.rings)

/-- A frame's round serves only a class that holds tokens of the frame, and choosing takes nothing off the parse buffer. -/
def Obligations.DispatchServesWaitingClass : Prop :=
  ∀ (s : State) (k c : Nat) (x : Frame), s.chooseClass k = some (c, x) →
    s.tokensOf k c ≠ [] ∧ x.parse = (s.frame k).parse

/-- Interrupts of a ring and of a vector: a timer that fires sends the ring's message, or sets the PBA bit of a masked vector, and
the pending count returns to 0; clearing a mask sends the message that waited; IRQ_SET replaces VEC, CNT and TMO. -/
def Obligations.InterruptCommands : Prop :=
  ∀ s : State,
    (∀ f r g, s.ring? f r = some g → 0 < g.pendIrq → g.timer = true →
      (s.dl 3).any (fun e => e.cmd = .coalesceTimeout f r && decide (s.now < e.at_)) = false →
      ∃ t, exec (.coalesceTimeout f r) s = .next t ∧ t.ring? f r = some { g with pendIrq := 0, timer := false } ∧
        (s.masked f g.vec = false → t.host.out = s.host.out ++ [.msix f g.vec] ∧ t.host.pba = s.host.pba) ∧
        (s.masked f g.vec = true → t.host.out = s.host.out ∧ t.host.pba.getD (vecNo f g.vec) false = true)) ∧
    (∀ f v, s.barsOpen = true → s.fnThere f = true → v < vecLimit f →
      ∃ t, exec (.vectorUnmask f v) s = .next t ∧ t.masked f v = false ∧ t.host.pba.getD (vecNo f v) false = false ∧
        t.host.out = s.host.out ++ (if s.host.pba.getD (vecNo f v) false then [.msix f v] else []) ∧ t.rings = s.rings) ∧
    (∀ j x g, s.cmdJob j 0xF004 = some x →
      fld x.param 0 8 < ringLimit x.fn → (irqFields (leAt x.block 0 8)).vec < vecLimit x.fn → fld x.param 0 8 ≠ 0 →
      0 < (irqFields (leAt x.block 0 8)).cnt → (irqFields (leAt x.block 0 8)).cnt ≤ 256 →
      s.ring? x.fn (fld x.param 0 8) = some g → g.destroying = false → g.pendIrq = 0 →
      ∃ t, exec (.irqSet j) s = .next t ∧ t.EndedWith j [] ∧
        t.ring? x.fn (fld x.param 0 8) = some { g with
          vec := (irqFields (leAt x.block 0 8)).vec, cnt := (irqFields (leAt x.block 0 8)).cnt
          tmo := (irqFields (leAt x.block 0 8)).tmo })

/-- Rings come and go: ADM_CFG with ENABLE creates ring 0 from ADM_BASE, or is refused with ERR; clearing ENABLE starts its
teardown, which ends once no job of the ring is left; RING_CREATE makes the ring its block spells, refused for a size outside
4 to 16 with INPUT 0x0102 and, for a ring that is still being destroyed, with BUSY 0x0101 and no effect (R101; the checks before it
passing); RING_DESTROY starts the teardown of the ring it names, and one that does not exist is CONFLICT 0x0102 (R101). -/
def Obligations.RingLifetimeCommands : Prop :=
  ∀ s : State,
    (∀ (f : Nat) (v : W32), s.barsOpen = true → s.fnThere f = true → bitOf v.toNat 31 = true → (s.page f).admOn = false →
      s.ring? f 0 = none → s.glb.ringsOpen = true → s.ogOk f (fld v.toNat 16 12) = true → (s.strand f).state ≠ .disabled →
      (4 ≤ fld v.toNat 0 5 → fld v.toNat 0 5 ≤ 16 → ∃ t g, exec (.admCfgEnable f v) s = .next t ∧ t.ring? f 0 = some g ∧
        (t.page f).admOn = true ∧ g.base = (s.page f).admBase ∧ g.log2 = fld v.toNat 0 5 ∧ g.ogrp = fld v.toNat 16 12 ∧
        g.tail = 0 ∧ g.done = 0 ∧ t.jobs = s.jobs) ∧
      (16 < fld v.toNat 0 5 → ∃ t, exec (.admCfgEnable f v) s = .next t ∧ bitOf (t.page f).admCfg.toNat 29 = true ∧
        t.rings = s.rings)) ∧
    (∀ f g, s.barsOpen = true → s.fnThere f = true → (s.page f).admOn = true → s.ring? f 0 = some g →
      ∃ t g', exec (.admCfgDisable f) s = .next t ∧ t.ring? f 0 = some g' ∧ g'.destroying = true ∧ t.otp = s.otp) ∧
    (∀ f r g, s.ring? f r = some g → g.destroying = true →
      (s.jobs.any (fun e => e.2.fn = f && e.2.ring = r && e.2.sub.isNone)) = false →
      ∃ t, exec (.ringTeardownEnd f r) s = .next t ∧ t.ring? f r = none) ∧
    (∀ j x, s.cmdJob j 0xF002 = some x →
      (s.ringCreateError x.fn x.block = none → ∃ t, exec (.ringCreate j) s = .next t ∧ t.EndedWith j [] ∧
        t.ring? x.fn (leAt x.block 8 1) = some (s.newRing x.fn x.block)) ∧
      (fld (leAt x.block 8 8) 0 8 ≠ 0 → fld (leAt x.block 8 8) 0 8 < ringLimit x.fn → 16 < fld (leAt x.block 8 8) 8 5 →
        ∃ t, exec (.ringCreate j) s = .next t ∧ t.Ended j 0x02 0x0102 0 ∧ t.rings = s.rings) ∧
      (∀ r g, r = leAt x.block 8 1 → s.ring? x.fn r = some g → g.destroying = true → r ≠ 0 → r < ringLimit x.fn →
        4 ≤ fld (leAt x.block 8 8) 8 5 → fld (leAt x.block 8 8) 8 5 ≤ 16 → leAt x.block 0 8 % 4096 = 0 →
        s.ogOk x.fn (fld (leAt x.block 8 8) 20 12) = true → (irqFields (leAt x.block 16 8)).vec < vecLimit x.fn →
        0 < (irqFields (leAt x.block 16 8)).cnt → (irqFields (leAt x.block 16 8)).cnt ≤ 256 →
        fld (leAt x.block 8 8) 18 2 = 0 ∨ fld (leAt x.block 8 8) 18 2 = 1 ∧ x.fn = 0 →
        ∃ t, exec (.ringCreate j) s = .next t ∧ t.Ended j 0x0F 0x0101 0 ∧ t.rings = s.rings ∧ t.kst = s.kst ∧
          t.otp = s.otp)) ∧
    (∀ j x, s.cmdJob j 0xF003 = some x → fld x.param 0 8 ≠ 0 → fld x.param 0 8 < ringLimit x.destroyFn →
      s.ring? x.destroyFn (fld x.param 0 8) = none →
      ∃ t, exec (.ringDestroy j) s = .next t ∧ t.Ended j 0x0B 0x0102 0 ∧ t.rings = s.rings) ∧
    (∀ j x g, s.cmdJob j 0xF003 = some x → fld x.param 0 8 ≠ 0 → fld x.param 0 8 < ringLimit x.destroyFn →
      s.ring? x.destroyFn (fld x.param 0 8) = some g → g.destroying = false →
      ∃ t g', exec (.ringDestroy j) s = .next t ∧ t.ring? x.destroyFn (fld x.param 0 8) = some g' ∧ g'.destroying = true ∧
        t.otp = s.otp ∧ t.vigil = s.vigil)

/-- CAP_QUERY answers 64 bytes, of which the first eight are GLB_ID 0x1F3C_9528 and GLB_STEP 0x11; TRACE_CTRL sets what its
block says; a mirror entry with one record is written with its second half zero. -/
def Obligations.QueryAndTraceCommands : Prop :=
  ∀ s : State,
    (∀ j x, s.cmdJob j 0xF001 = some x → 64 ≤ x.outCap → ∃ t out, exec (.capQuery j) s = .next t ∧ t.EndedWith j out ∧
      out.length = 64 ∧ out.take 8 = [0x28, 0x95, 0x3C, 0x1F, 0x11, 0x00, 0x00, 0x00] ∧ t.rings = s.rings ∧
      t.strands = s.strands) ∧
    (∀ j x, s.cmdJob j 0xF501 = some x → fld (leAt x.block 0 8) 32 32 < 32 → bitOf (leAt x.block 0 8) 1 = false →
      bitOf (leAt x.block 0 8) 2 = false → ∃ t, exec (.traceCtrl j) s = .next t ∧ t.EndedWith j [] ∧
        t.trc.enable = bitOf (leAt x.block 0 8) 0 ∧ t.trc.port = false ∧ t.trc.mirror = false ∧
        t.trc.mask.toNat = fld (leAt x.block 0 8) 32 32) ∧
    (∀ j x, s.cmdJob j 0xF501 = some x → 32 ≤ fld (leAt x.block 0 8) 32 32 → ∃ t, exec (.traceCtrl j) s = .next t ∧
      t.Ended j 0x02 0x0004 0 ∧ t.trc = s.trc) ∧
    (∀ a g, s.trc.mirQ = [a] → s.ring? 0 s.trc.mirrorRing = some g → a.length = 4 → g.cnt = 1 → s.masked 0 g.vec = true →
      ∃ t, exec .mirrorEntryTimeout s = .next t ∧ t.trc.mirQ = [] ∧ t.host.out = s.host.out ++
        [.write 0 (g.base.toNat + 64 * (g.done.toNat % 2 ^ g.log2))
          ((a.map (fun w => leBytes 8 w.toNat)).flatten ++ zeros 32)])

/-! ## The pipeline S3 to S7 -/

/-- S3, at a job's turn: `admitStep` ends a job that a check refuses with the status the checks give and no result, hands a command
of class F that is within its deadline to the firmware with its words as they came, and deals a job of another class that names no
key to the bottom of the deque that R232 and R233 choose; `appletCall` puts an APPLET call at the back of the call queue. -/
def Obligations.AdmissionCommands : Prop :=
  ∀ (s : State) (j : Nat) (x : Job), s.job? j = some x → s.live = true → x.stage = .s3 → x.checked = false →
    x.fetching = false → s.isNext j x = true →
    (∀ m d r, x.opClass ≠ 10 → s.verdict j x = .refuse m d r →
      ∃ t, exec (.admitStep j .decide) s = .next t ∧ t.Ended j m d r ∧ t.pins = s.pins ∧ t.otp = s.otp) ∧
    (x.opClass = 15 → s.lateNow x = false → s.verdict j x = .go none →
      ∃ t y, exec (.admitStep j .decide) s = .next t ∧ t.job? j = some y ∧ y.stage = .firmware ∧ y.checked = true ∧
        y.words = x.words) ∧
    (∀ f c, x.opClass < 15 → x.opClass ≠ 5 → x.opClass ≠ 10 → s.verdict j x = .go none →
      s.dealTarget { x with key := none } = .creel f c → c < 11 →
      ∃ t y, exec (.admitStep j .decide) s = .next t ∧ t.job? j = some y ∧ y.stage = .deque f c ∧ y.dealtAt = s.now ∧
        (t.creel f c).deque = j :: (s.creel f c).deque) ∧
    (x.opClass = 10 → s.verdict j x = .go none →
      ∃ t y, exec (.appletCall j) s = .next t ∧ t.job? j = some y ∧ y.stage = .called ∧ t.crx.callQ = s.crx.callQ ++ [j])

/-- S4. `nextJob`: an idle unit marks the job of its own deque that it will take and nothing else changes; without one it takes the
top of the deque that R237 names in its frame, then in another, and without one of these nothing changes. `stageInClaim`: the job
holds all of its claim at once, its buffers being read, or none of it; past its deadline it ends with DEADLINE 1.
`dmaReadCompletion`: a buffer that arrives whole is staged, a short one and one that is not answered in time end the job with DMA.
`stagingBankRelease`: a borrowed bank returns. -/
def Obligations.ClaimAndStageCommands : Prop :=
  ∀ s : State,
    (∀ f c u j, s.live = true → f < 4 → c < 11 → u ≤ 12 → s.idle f c u = true → s.ownPick f c u = some j →
      exec (.nextJob f c u) s = .next (s.modJob j (fun x => { x with thief := some (f, c, u) })).settle) ∧
    (∀ f c u, s.live = true → f < 4 → c < 11 → u ≤ 12 → s.idle f c u = true → s.ownPick f c u = none →
      (∀ v, s.nearVictim f c u = some v → exec (.nextJob f c u) s = .next (s.takeTop f v f c u).settle) ∧
      (∀ g v, s.nearVictim f c u = none → s.farPick f c u = some (g, v) →
        exec (.nextJob f c u) s = .next (s.takeTop g v f c u).settle) ∧
      (s.nearVictim f c u = none → s.farPick f c u = none → exec (.nextJob f c u) s = .next s.settle)) ∧
    (∀ j x f c, s.job? j = some x → x.stage = .deque f c → s.live = true →
      (s.lateNow x = true → ∀ rivals, ∃ t, exec (.stageInClaim j rivals) s = .next t ∧ t.Ended j 0x05 1 0) ∧
      (∀ u s' rivals, s.lateNow x = false → s.claimUnit j x f c = some u → s.claim j f c u = some s' →
        s.firstAdmitted (j :: rivals.filter (s.contends x f c u)) = some j →
        exec (.stageInClaim j rivals) s = .next (s'.requestBuffers x).settle ∧
        ∃ y, s'.job? j = some y ∧ y.stage = .s4 ∧ y.place = some (f, c)) ∧
      (∀ u rivals, s.lateNow x = false → s.claimUnit j x f c = some u → s.claim j f c u = none →
        exec (.stageInClaim j rivals) s = .next (s.setJob j { x with
          thief := none, since := if x.since = 0 then s.now + 1 else x.since }).settle)) ∧
    (∀ j x (data : Bytes), s.job? j = some x → x.stage = .s4 → x.input = none → x.inLen ≠ 0 →
      (data.length = x.inLen → ∀ e,
        exec (.dmaReadCompletion j .input .ok e data) s = .next (s.setJob j { x with input := some data }).settle) ∧
      (data.length ≠ x.inLen → ∃ t, exec (.dmaReadCompletion j .input .ok 0 data) s = .next t ∧ t.Ended j 0x06 1 0) ∧
      (∀ e, e ≠ 0 → ∃ t, exec (.dmaReadCompletion j .input .timeout e data) s = .next t ∧ t.Ended j 0x06 6 0 ∧
        t.host.err = setBit s.host.err 2 true)) ∧
    (∀ j x (data : Bytes), s.job? j = some x → x.stage = .s4 → x.aux = none → x.auxLen ≠ 0 → ∀ e,
      (data.length = x.auxLen →
        exec (.dmaReadCompletion j .auxiliary .ok e data) s = .next (s.setJob j { x with aux := some data }).settle) ∧
      (data.length ≠ x.auxLen → ∃ t, exec (.dmaReadCompletion j .auxiliary .ok e data) s = .next t ∧ t.Ended j 0x06 3 0)) ∧
    (∀ j x f c u, s.job? j = some x → x.stage = .s5 → x.place = some (f, c) → x.bank = some u →
      exec (.stagingBankRelease j) s = .next
        ((s.setUnit f c u { s.unit f c u with lent := none }).setJob j { x with bank := none }).settle)

/-- S5: a job past its deadline at compute start ends with DEADLINE 2; one that passes its checks computes; of the attempts of a
fan-out the lowest accepted one wins; a finished job whose frame has room enters S6 with its status and result, and waits where it
has none; a raw job of an applet goes back to its core without S6 (R204). An EdDSA signature that still has its second hashing
pass to make is left to R208. -/
def Obligations.ComputeCommands : Prop :=
  ∀ s : State,
    (∀ j x, s.job? j = some x → s.live = true → x.stage = .s4 → x.checked = true → x.staged = true →
      (s.lateNow x = true → ∃ t, exec (.computeStart j) s = .next t ∧ t.Ended j 0x05 2 0) ∧
      (s.lateNow x = false → x.key = none → drawsOf x none = 0 → x.opClass ≠ 9 → opCheck x none = none → assignsIndex x = false →
        s.bankLent x = false → (hashes x = false ∨ opUnit x = .digest ∧ (s.laneOf 3 j).isSome) →
        ∃ t y, exec (.computeStart j) s = .next t ∧ t.job? j = some y ∧ y.stage = .s5 ∧ y.place = x.place ∧
          y.fFanout = decide (1 < x.spns.length) ∧ y.major = x.major)) ∧
    (∀ j x u a g, s.job? j = some x → x.stage = .s5 → x.winner = none →
      x.fan = [{ spn := u, attempt := some a, accepted := false }] →
      (a = acceptedAttempt x → ∃ t y, exec (.fanoutAttemptEnd j u g) s = .next t ∧ t.job? j = some y ∧ y.winner = some u) ∧
      (a < acceptedAttempt x → x.nextAttempt < 1000 → ∃ t y, exec (.fanoutAttemptEnd j u g) s = .next t ∧
        t.job? j = some y ∧ y.winner = none ∧ y.nextAttempt = x.nextAttempt + 1 ∧
        y.fan = [{ spn := u, attempt := some x.nextAttempt, accepted := false }])) ∧
    (∀ j x, s.job? j = some x → x.stage = .ended → s.live = true →
      ¬ (x.fam = 0x2A ∧ x.opOp = 1 ∧ x.major = 0 ∧ x.hashed = 1) →
      (x.opClass = 7 → x.sub.isSome → ∃ t y, exec (.evDone j false) s = .next t ∧ t.job? j = some y ∧ y.stage = .s7wait ∧
        y.major = x.major ∧ y.detail = x.detail ∧ y.result = x.result) ∧
      (¬ (x.opClass = 7 ∧ x.sub.isSome) → s.inS6 (s.sealFrame x) < 32 → s.retireUsed (s.sealFrame x) + x.result.length ≤ 2 ^ 26 →
        ∃ t y, exec (.evDone j false) s = .next t ∧ t.job? j = some y ∧ y.stage = .s6 ∧ y.major = x.major ∧
          y.detail = x.detail ∧ y.result = x.result) ∧
      (∀ b, ¬ (x.opClass = 7 ∧ x.sub.isSome) → 32 ≤ s.inS6 (s.sealFrame x) → ∃ t y, exec (.evDone j b) s = .next t ∧
        t.job? j = some y ∧ y.stage = .ended))

/-- S6 and S7: a result longer than the host's buffer ends as INPUT 0x0003 with the size it needs; an ORDER job whose turn has not
come is held; the head's word 0 is written only after the acknowledgement of word 7; a ring write that fails is structural fault
0x0D and the job is gone.
While more than one write of a step is unacknowledged, an acknowledgement issues nothing: no write of a later step goes out
before every write of an earlier one is acknowledged. A bit of the dirty log is written when its word has been read. -/
def Obligations.SealAndRetireCommands : Prop :=
  (∀ (s : State) (j : Nat) (x : Job), s.job? j = some x →
    (x.stage = .s6 → (x.admitted = none ∨ x.gen = (s.strand x.fn).gen) → x.selfVerify = false → x.major = 0 →
      streams x = false →
      (x.outCap < x.result.length → ∃ t y, exec (.seal j false false) s = .next t ∧ t.job? j = some y ∧ y.stage = .s7wait ∧
        y.major = 2 ∧ y.detail = 3 ∧ y.resLen = x.result.length ∧ y.result = []) ∧
      (x.result.length ≤ x.outCap → ∃ t y, exec (.seal j false false) s = .next t ∧ t.job? j = some y ∧ y.stage = .s7wait ∧
        y.major = 0 ∧ y.resLen = x.result.length ∧ y.result = x.result)) ∧
    (x.stage = .s7wait → x.sub = none → (x.admitted = none ∨ x.gen = (s.strand x.fn).gen) → s.myTurn x = false →
      ∃ t y, exec (.retire j) s = .next t ∧ t.job? j = some y ∧ y.stage = .held ∧ y.fHeld = true) ∧
    (x.stage = .s7wait → x.sub = none → (x.admitted = none ∨ x.gen = (s.strand x.fn).gen) → s.myTurn x = true →
      s.inS7 (s.sealFrame x) < 64 → s.releasedWaits (s.sealFrame x) j = false → streams x = false → x.early = true →
      x.result = [] → x.n = 1 →
      ∃ t y, exec (.retire j) s = .next t ∧ t.job? j = some y ∧ y.stage = .s7 4 ∧ y.due = [.entry 0] ∧
        t.host.out = s.host.out ++ [.write x.fn (s.slotAddr x x.start + 56) (leBytes 8 (completionWord7 x).toNat)] ∧
        t.rings = s.rings) ∧
    (x.stage = .s7 4 → x.due = [.entry 0] →
      ∃ t y, exec (.hostWriteAck j .ok 0) s = .next t ∧ t.job? j = some y ∧ y.stage = .s7 5 ∧ y.due = [.entry 0] ∧
        t.host.out = s.host.out ++
          [.write x.fn (s.slotAddr x x.start) (leBytes 8 (completionWord x (x.n = 1) true).toNat)] ∧ t.rings = s.rings) ∧
    (∀ k i which g, x.stage = .s7 k → x.due[which]? = some (.entry i) → s.ring? x.fn x.ring = some g →
      g.destroying = false → (x.fn = 0 → s.glb.halted = false) →
      ∃ t, exec (.hostWriteAck j .error which) s = .next t ∧ t.job? j = none ∧ (t.page x.fn).halted = true ∧
        (fld (s.page x.fn).fault.toNat 0 8 = 0 → fld (t.page x.fn).fault.toNat 0 8 = 0x0D) ∧
        t.host.cntDmaErr = satInc s.host.cntDmaErr) ∧
    (∀ k which, x.stage = .s7 k → which < x.due.length → 1 < x.due.length → (∀ d ∈ x.due, d.isBit = false) →
      ∃ t y, exec (.hostWriteAck j .ok which) s = .next t ∧ t.job? j = some y ∧ y.stage = .s7 k ∧
        y.due = x.due.eraseIdx which ∧ t.host.out = s.host.out) ∧
    (∀ a m, x.stage = .s7 2 → x.due = [.bitRead a m] →
      ∃ t y, exec (.hostWriteAck j .ok 0) s = .next t ∧ t.job? j = some y ∧ y.stage = .s7 2 ∧ y.due = [.bitWrite a m true] ∧
        t.host.out = s.host.out ++ [.dlogOr a m]))

/-! ## Waits, machine checks, power -/

/-- `deadlineExpiry`: a job that waits at S3 past its deadline ends, with RNG_UNAVAILABLE where it waits for randomness, with the
SPOOL status of the port where it waits for an index commit, with DEADLINE 1 elsewhere, and so does a command that waits for a
drain; before the deadline nothing changes. `xstealWindow` sets a frame's budget again, and `frmXstealWrite` at once with the new
value. `waitForScan` with no long-blocked job leaves jobs and deques; where one lies on a cycle, the youngest job of the cycle goes
back to S3 with RETRIED, its stamp and its admission kept. `warmKeyTimeout` wipes a warm key idle for WARM_TMO µs and leaves one
that is not due. -/
def Obligations.WaitCommands : Prop :=
  ∀ s : State,
    (∀ j x, s.job? j = some x → s.lateNow x = true →
      (∀ w, w ∈ [Wait.inflight, .token, .spoolKey, .cache, .tgate, .header] → x.stage = .waiting w →
        ∃ t, exec (.deadlineExpiry j) s = .next t ∧ t.Ended j 0x05 1 0) ∧
      (x.stage = .firmware → x.phase = 1 → s.glb.drainWaiters.contains j = false →
        ∃ t, exec (.deadlineExpiry j) s = .next t ∧ t.Ended j 0x05 1 0) ∧
      (x.stage = .waiting .index → ∃ t d, exec (.deadlineExpiry j) s = .next t ∧ t.Ended j 0x0A d 0 ∧
        (s.primaryOpen = false → d = 0x0141) ∧ (s.primaryOpen = true → s.primaryWritable = false → d = 0x0142)) ∧
      (x.stage = .waiting .randomness → ∃ t, exec (.deadlineExpiry j) s = .next t ∧
        t.Ended j 0x04 (if s.glb.seededThisBoot then 0x0A01 else 0x0A02) 0)) ∧
    (∀ j x, s.job? j = some x → s.lateNow x = false → exec (.deadlineExpiry j) s = .next s.settle) ∧
    (∀ f, f < 4 → ∃ t, exec (.xstealWindow f) s = .next t ∧
      t.frame f = { s.frame f with budget := fld (s.frame f).xsteal.toNat 0 16 } ∧ t.jobs = s.jobs) ∧
    (∀ f (v : W32), f < 4 → s.barsOpen = true → ∃ t, exec (.frmXstealWrite f v) s = .next t ∧
      t.frame f = { s.frame f with xsteal := v, budget := fld v.toNat 0 16 } ∧ t.jobs = s.jobs) ∧
    (s.scanned = [] → ∃ t, exec .waitForScan s = .next t ∧ t.jobs = s.jobs ∧ t.creels = s.creels) ∧
    (∀ v w n x, s.scanned = [v] → s.youngest (s.cycleOf v) = some w → s.job? w = some x → n = (s.cycleOf v).length →
      (s.rollback w n).youngest ((s.rollback w n).cycleOf v) = none → ∃ t y, exec .waitForScan s = .next t ∧
      t.job? w = some y ∧ y.stage = .s3 ∧ y.fRetried = true ∧ y.stamp = x.stamp ∧ y.admitted = x.admitted ∧ y.spns = []) ∧
    (∀ f c u, u < 12 → (s.unit f c u).job = none → (s.unit f c u).warm ≠ none →
      ((s.unit f c u).idleAt + fld (s.creel f c).ctl.toNat 16 16 ≤ s.now →
        exec (.warmKeyTimeout f c u) s = .next (s.setUnit f c u { s.unit f c u with warm := none }).settle) ∧
      (s.now < (s.unit f c u).idleAt + fld (s.creel f c).ctl.toNat 16 16 →
        exec (.warmKeyTimeout f c u) s = .next s.settle))

/-- Machine checks: the unit enters recovery, the counters and the creel's record say so, a job that meets its first is dealt again
and one that meets its second ends with INTEGRITY 0x0401; a routine takes one beyond its watchdog bound; recovery ends; checks older
than an hour no longer count. Power: while the package draws more than the cap every creel's clock falls by 50 MHz, not below 0.80
GHz; gating takes a spindle a step down to 4 while the condition holds and gives one back a step once it has been clear; a creel
moves one step of 50 MHz toward the set point, and UNMET ends once every clock is above 0.80 GHz; PWR_CRL_SET's field is [4:0]. -/
def Obligations.MachineCheckAndPowerCommands : Prop :=
  (∀ s : State,
    (∀ f c u cause, s.live = true → f < 4 → c < 11 → causeSuits u cause = true → cause ≠ 2 →
      (s.unit f c u).recovering = none → (s.unit f c u).job = none →
      ∃ t, exec (.machineCheck f c u cause) s = .next t ∧ (t.unit f c u).recovering = some cause ∧
        (t.unit f c u).warm = none ∧ (t.frame f).cntMchk = satInc (s.frame f).cntMchk ∧
        (t.creel f c).mchkCause = BitVec.ofNat 4 cause ∧ t.jobs = s.jobs ∧
        (3 ≤ (recent s.now (s.unit f c u).mchks).length + 1 → (t.unit f c u).retired = true)) ∧
    (∀ f c u cause j x, s.live = true → f < 4 → c < 11 → causeSuits u cause = true → cause ≠ 2 →
      (s.unit f c u).recovering = none → (s.unit f c u).job = some j → s.job? j = some x → x.mchk = 1 →
      ∃ t, exec (.machineCheck f c u cause) s = .next t ∧ t.Ended j 0x09 0x0401 0) ∧
    (∀ f c u cause j x, s.live = true → f < 4 → c < 11 → causeSuits u cause = true → cause ≠ 2 →
      (s.unit f c u).recovering = none → (s.unit f c u).job = some j → s.job? j = some x → x.mchk = 0 →
      ∃ t y g d, exec (.machineCheck f c u cause) s = .next t ∧ t.job? j = some y ∧ y.stage = .deque g d ∧ y.mchk = 1 ∧
        y.fRetried = true ∧ y.spns = [] ∧ (t.unit f c u).recovering = some cause) ∧
    (∀ f c u j x, s.live = true → u < 12 → (s.unit f c u).job = some j → s.job? j = some x → x.opClass = 9 →
      x.stage = .s5 → ∀ e, s.customEntry x = some e →
      (x.watchdogBound e < (s.unit f c u).micro.cycles → ∃ t, exec (.watchdogExpiry f c u) s = .next t ∧
        (t.unit f c u).recovering = some 4) ∧
      ((s.unit f c u).micro.cycles ≤ x.watchdogBound e → (s.unit f c u).micro.wantPiece = false →
        (s.unit f c u).micro.stalled = false →
        exec (.watchdogExpiry f c u) s = .next s.settle)) ∧
    (∀ f c u n, (s.unit f c u).recovering = some n → n % 16 ≠ 2 →
      exec (.mchkRecoveryEnd f c u) s = .next (s.setUnit f c u { s.unit f c u with recovering := none }).settle) ∧
    (∃ t, exec .mchkWindowSweep s = .next t ∧ (∀ e ∈ t.units, ∀ m ∈ e.2.mchks, s.now < m + 3600000000) ∧
      (∀ f c u, (t.unit f c u).retired = (s.unit f c u).retired))) ∧
  (∀ s : State,
    (∀ p junction, s.live = true → s.capDw ≠ 0 → s.capDw < p →
      ∃ t, exec (.cappingInterval p junction) s = .next t ∧ t.cap.pkgDw = p % 65536 ∧
        (∀ k, k < 44 → (t.creels.getD k {}).freq = max 16 ((s.creels.getD k {}).freq - 1)) ∧
        (∀ k, (t.creels.getD k {}).deque = (s.creels.getD k {}).deque) ∧ t.jobs = s.jobs) ∧
    (s.cap.gated = true → s.cap.above = true → exec .gateStep s = .next
      ({ s with cap := { s.cap with gateN := max 4 (s.cap.gateN - 1) } } : State).settle) ∧
    (s.cap.gated = true → s.cap.above = false → 10 ≤ s.cap.gateClear → s.cap.gateN ≤ 10 → exec .gateStep s = .next
      ({ s with cap := { s.cap with gateN := s.cap.gateN + 1 } } : State).settle) ∧
    (∀ f c, s.live = true → f < 4 → c < 11 →
      (s.setPoint < (s.creel f c).freq → exec (.dvfsStep f c) s = .next
        (s.setCreel f c { s.creel f c with freq := (s.creel f c).freq - 1 }).settle) ∧
      ((s.creel f c).freq < s.setPoint → s.cap.lowered = false → ∃ t, exec (.dvfsStep f c) s = .next t ∧
        t.creels = (s.setCreel f c { s.creel f c with freq := (s.creel f c).freq + 1 }).creels ∧
        t.cap.unmet = (s.cap.unmet && (List.range 44).any (fun k => decide ((t.creels.getD k {}).freq ≤ 16))) ∧
        t.jobs = s.jobs ∧ t.units = s.units)) ∧
    (∀ v : W32, s.barsOpen = true → exec (.pwrCrlSetWrite v) s = .next
      ({ s with cap := { s.cap with set := v &&& 0x1F } } : State).settle))

/-! ## Keys -/

/-- A creation takes a free slot of its owner, neither quarantined nor claimed by a rebuild, and changes no other key but that the
material of an evictable one may leave the table: the new object has a fresh uid, the material and type given, no use counted, and
a policy whose window has been made absolute. -/
def Obligations.CreationTakesFreeSlot : Prop :=
  ∀ (s s' : State) (f slot : Nat) (k : KeyObj), s.createKey f k = .ok (s', slot) →
    s.key? slot = none ∧ slot / 262144 = f ∧ slot % 262144 ≠ 0 ∧ s.kst.quarantine.get? slot = none ∧
      s.kst.claimed.get? slot = none ∧
      (∃ y, s'.key? slot = some y ∧ y.mat = k.mat ∧ y.type = k.type ∧ y.uses = k.uses ∧ y.uid = s.kst.nextUid ∧
        y.policy = k.policy.absolute s.glb.ptcLife.toNat) ∧
      (∀ i, i ≠ slot → (s'.key? i).map (fun y => (y.uid, y.type, y.mat, y.policy, y.uses)) =
        (s.key? i).map (fun y => (y.uid, y.type, y.mat, y.policy, y.uses))) ∧
      s'.kst.nextUid = s.kst.nextUid + 1 ∧ s'.kst.epoch = s.kst.epoch ∧ s'.jobs = s.jobs

/-- KEY_GENERATE, KEY_LOAD_PUBLIC, KEY_UNWRAP and KEY_IMPORT, where their checks pass and a spindle or carder that their part needs
is idle, create the key in a free slot; their output, written at once or, for a key with PERSIST, once its record is committed, is
the handle, for KEY_GENERATE with four zero bytes and the public key. A bad KEY_GENERATE block ends with its error, too short an
output buffer with 0x02/3 and the length needed; a key that fails its pairwise test gives KEY 0x010B; a blob or package whose
first word is not "AK1B" or "AK1I" gives INPUT 1. -/
def Obligations.KeyCreationCommands : Prop :=
  ∀ (s s' : State) (j slot : Nat) (x : Job),
    (∀ (u : State) (mat pub : Bytes), s.cmdJob j 0x5001 = some x → x.phase = 0 → genBlockErr x = none →
      keyCmdOut x none ≤ x.outCap →
      s.UnitsReady x (genNeed x (genType x) (policyOf x.block).mask) →
      u = s.generateOn j x (genType x) (genParam x) (policyOf x.block).mask id →
      mat = newMaterial (genType x) (genParam x) x.rnd → pub = pubOf (genType x) (genParam x) mat →
      (pctOk (genType x) mat pub = true →
        u.createKey x.fn
          { mkKey (genType x) (genParam x) (policyOf x.block) mat pub with
            tree := if stateful (genType x) then some 0 else none } = .ok (s', slot) →
        8 + pub.length ≤ x.outCap →
        ∃ t, exec (.keyGenerate j) s = .next t ∧ s'.MadeKey t j slot (leBytes 4 (s'.handleOf slot) ++ zeros 4 ++ pub)) ∧
      (pctOk (genType x) mat pub = false → ∃ t, exec (.keyGenerate j) s = .next t ∧ t.Ended j 0x03 0x010B 0)) ∧
    (s.cmdJob j 0x5001 = some x → x.phase = 0 →
      (∀ e, genBlockErr x = some e → ∃ t, exec (.keyGenerate j) s = .next t ∧ t.Ended j e.1 e.2 0) ∧
      (genBlockErr x = none → x.outCap < keyCmdOut x none →
        ∃ t, exec (.keyGenerate j) s = .next t ∧ t.Ended j 0x02 3 (keyCmdOut x none))) ∧
    (s.cmdJob j 0x5002 = some x → x.phase = 0 → 4 ≤ x.outCap →
      pubKeyErr (fld x.param 0 8) x.block = none → ¬(baseType (fld x.param 0 8) = 0x40 ∧ lmsM (hssPubLms x.block) = 24) →
      policyClean x.auxData = true →
      (policyOf x.auxData).refused (fld x.param 0 8) ((pubParam (fld x.param 0 8) x.block).getD 0 0) = false →
      s.createKey x.fn (mkKey (fld x.param 0 8) (pubParam (fld x.param 0 8) x.block) (policyOf x.auxData) x.block x.block) =
        .ok (s', slot) →
      ∃ t, exec (.keyLoadPublic j) s = .next t ∧ s'.MadeKey t j slot (leBytes 4 (s'.handleOf slot))) ∧
    (∀ kslot k t p pol mat, s.cmdJob j 0x5003 = some x → x.phase = 0 → x.key = some (kslot, k) →
      k.windowErr s.glb.ptcLife.toNat = none →
      4 ≤ x.outCap → openBlob x.block k.mat (isDwk x.handle) = .ok (t, p, pol, mat) → entryOk t mat = true →
      s.UnitsReady x (if (regenType t).isSome then { mask := pol.mask } else .seal) →
      ((s.unwrapOn j x t mat.length pol.mask id).spendUse j).createKey x.fn (mkKey t p pol mat (pubOf t p mat)) =
        .ok (s', slot) →
      ∃ u, exec (.keyUnwrap j) s = .next u ∧ s'.MadeKey u j slot (leBytes 4 (s'.handleOf slot))) ∧
    (∀ kslot k, s.cmdJob j 0x5003 = some x → x.phase = 0 → x.key = some (kslot, k) →
      k.windowErr s.glb.ptcLife.toNat = none → leAt x.block 0 4 ≠ 0x42314B41 →
      ∃ u, exec (.keyUnwrap j) s = .next u ∧ u.Ended j 0x02 1 0) ∧
    (∀ kslot k m p, s.cmdJob j 0x5005 = some x → x.phase = 0 → x.key = some (kslot, k) → 4 ≤ x.outCap →
      k.windowErr s.glb.ptcLife.toNat = none →
      0x30 ≤ x.block.length → leAt x.block 0 4 = 0x31494B41 → leAt x.block 4 1 = 1 → leAt x.block 6 2 = 0 →
      leAt x.block 0x0C 4 = (if k.type = 0x11 then 1088 else 1568) →
      x.block.length = 0x30 + leAt x.block 0x0C 4 + 8 * ceilDiv (leAt x.block 8 4) 8 + 8 →
      lenAllowed (leAt x.block 5 1) (leAt x.block 8 4) = true →
      aeadOpen 2 (kwpKey (mlkemShared k.type k.mat (slice x.block 0x30 (leAt x.block 0x0C 4))) x.block) [] []
        (x.block.drop (0x30 + leAt x.block 0x0C 4)) 8 = some m →
      formParam (leAt x.block 5 1) (m.take (leAt x.block 8 4)) = some p → policyClean (slice x.block 0x10 32) = true →
      (policyOf (slice x.block 0x10 32)).refused (leAt x.block 5 1) (p.getD 0 0) = false →
      entryOk (leAt x.block 5 1) (m.take (leAt x.block 8 4)) = true →
      s.UnitsReady x { mask := k.policy.mask, warm := if k.sizes.cached ≤ 16384 then some (kslot, k.uid) else none } →
      ((s.onUnits j x { mask := k.policy.mask, warm := if k.sizes.cached ≤ 16384 then some (kslot, k.uid) else none }
        (fun s => (atOrder k.policy.mask (decapsCycles k.type) + s.freeNum.1, s.freeNum.2)) id).spendUse j).createKey x.fn
        (mkKey (leAt x.block 5 1) p (policyOf (slice x.block 0x10 32)) (m.take (leAt x.block 8 4))
          (pubOf (leAt x.block 5 1) p (m.take (leAt x.block 8 4)))) = .ok (s', slot) →
      ∃ u, exec (.keyImport j) s = .next u ∧ s'.MadeKey u j slot (leBytes 4 (s'.handleOf slot))) ∧
    (∀ kslot k, s.cmdJob j 0x5005 = some x → x.phase = 0 → x.key = some (kslot, k) → leAt x.block 0 4 ≠ 0x31494B41 →
      ∃ u, exec (.keyImport j) s = .next u ∧ u.Ended j 0x02 1 0)

/-- Commands on a key: KEY_PUBLIC answers its public key, KEY_INFO its header entry and PTC_LIFE, both leaving the key store but
for the reserved use, which is returned; KEY_POLICY replaces the policy by a clean and narrower one and refuses any other with KEY
0x0109; KEY_DESTROY of a key without PERSIST and not under replacement frees the slot and raises its EPOCH; KEY_PURGE is refused of a
function that is not enabled (INPUT 0x0107) and of a strand that is not disabled (CONFLICT 0x0103). -/
def Obligations.KeyCommands : Prop :=
  ∀ (s : State) (j slot : Nat) (x : Job) (k : KeyObj), x.key = some (slot, k) →
    (s.cmdJob j 0x5009 = some x → k.pub.length ≤ x.outCap → ∃ t, exec (.keyPublic j) s = .next t ∧ t.EndedWith j k.pub ∧
      t.kst = (s.unreserve j).kst ∧ t.rings = s.rings) ∧
    (s.cmdJob j 0x500A = some x → s.key? slot = some k → 128 ≤ x.outCap → ∃ t out, exec (.keyInfo j) s = .next t ∧
      t.EndedWith j out ∧ out = s.headerBytes slot k ++ leBytes 16 s.glb.ptcLife.toNat ∧
      t.kst = (s.unreserve j).kst) ∧
    (s.cmdJob j 0x500B = some x → s.key? slot = some k → policyClean x.block = true →
      (policyOf x.block).refused k.type (k.param.getD 0 0) = false →
      ((policyOf x.block).narrows k.policy = true → ∃ t, exec (.keyPolicy j) s = .next t ∧ t.EndedWith j [] ∧
        t.key? slot = ((s.setKey slot { k with policy := policyOf x.block }).unreserve j).key? slot) ∧
      ((policyOf x.block).narrows k.policy = false → ∃ t, exec (.keyPolicy j) s = .next t ∧ t.Ended j 0x03 0x0109 0)) ∧
    (s.cmdJob j 0x5008 = some x → x.phase = 0 → s.key? slot = some k → k.policy.flag polPersist = false → k.repl = none →
      ∃ t, exec (.keyDestroy j) s = .next t ∧ t.EndedWith j [] ∧ t.key? slot = none ∧
        t.kst.epoch.getD slot 0 = s.kst.epoch.getD slot 0 + 1) ∧
    (s.cmdJob j 0x500B = some x → s.key? slot = some k →
      (policyClean x.block = false ∨ (policyOf x.block).refused k.type (k.param.getD 0 0) = true) →
      ∃ t, exec (.keyPolicy j) s = .next t ∧ t.Ended j 0x03 0x0109 0) ∧
    (s.cmdJob j 0x500C = some x → x.phase = 0 → s.vfEnabled (fld x.param 0 10) = false →
      ∃ t, exec (.keyPurge j) s = .next t ∧ t.Ended j 0x02 0x0107 0) ∧
    (s.cmdJob j 0x500C = some x → x.phase = 0 → s.vfEnabled (fld x.param 0 10) = true →
      (s.strand (fld x.param 0 10)).state ≠ .disabled → ∃ t, exec (.keyPurge j) s = .next t ∧ t.Ended j 0x0B 0x0103 0)

/-- KEY_PURGE of a disabled strand with no PERSIST key, and none that a rebuild still owes: no key of the strand is left and none
of its slots is quarantined. -/
def Obligations.PurgeLeavesNoKey : Prop :=
  ∀ (s : State) (j : Nat) (x : Job), s.cmdJob j 0x500C = some x → x.phase = 0 → s.vfEnabled (fld x.param 0 10) = true →
    (s.strand (fld x.param 0 10)).state = .disabled →
    (∀ e ∈ s.kst.keys, e.1 / 262144 = fld x.param 0 10 → e.2.policy.flag polPersist = false) →
    (∀ e ∈ s.kst.claimed, e.1 / 262144 ≠ fld x.param 0 10) →
    ∃ t, exec (.keyPurge j) s = .next t ∧ t.EndedWith j [] ∧
      ∀ slot, slot / 262144 = fld x.param 0 10 → t.key? slot = none ∧ t.kst.quarantine.getD slot false = false

/-- KEY_WRAP refuses with KEY 0x010D a stateful key, one with MAX_USES and, but under the DWK, one without EXPORT; with 0x0112 once
2^32 wraps are counted; else, with the wrapping key at hand, its output is the device blob under the vector drawn for the job; a
wrapping key on the spool is asked for first, and one not on it gives SPOOL 0x0141. KEY_EXPORT refuses with 0x010D a key without
EXPORT and with 0x010E a category-5 key to an ML-KEM-768 receiver; to a good receiver's key it answers the package of its length. -/
def Obligations.KeyExportCommands : Prop :=
  ∀ (s : State) (j slot wslot : Nat) (x : Job) (k w : KeyObj), x.key = some (slot, k) →
    (s.cmdJob j 0x5004 = some x → s.kekAt x.fn x.param 4 = .ok (wslot, w) →
      (stateful k.type = true → ∃ t, exec (.keyWrap j) s = .next t ∧ t.Ended j 0x03 0x010D 0) ∧
      (k.policy.maxUses ≠ 0 → ∃ t, exec (.keyWrap j) s = .next t ∧ t.Ended j 0x03 0x010D 0) ∧
      (isDwk x.param = false → k.policy.flag polExport = false → ∃ t, exec (.keyWrap j) s = .next t ∧ t.Ended j 0x03 0x010D 0) ∧
      (stateful k.type = false → k.policy.maxUses = 0 →
        (isDwk x.param = true ∨ k.policy.flag polExport = true) →
        (2 ^ 32 ≤ s.wrapsOf x.fn w (isDwk x.param) → ∃ t, exec (.keyWrap j) s = .next t ∧ t.Ended j 0x03 0x0112 0) ∧
        (s.wrapsOf x.fn w (isDwk x.param) < 2 ^ 32 → k.windowErr s.glb.ptcLife.toNat = none →
          ((isDwk x.param = true ∨ w.atHand = true) → (blobOf k w.mat x.rnd (isDwk x.param)).length ≤ x.outCap →
            ∃ t, exec (.keyWrap j) s = .next t ∧ t.EndedWith j (blobOf k w.mat x.rnd (isDwk x.param))) ∧
          (isDwk x.param = false → w.atHand = false →
            (s.spoolHas w = false → ∃ t, exec (.keyWrap j) s = .next t ∧ t.Ended j 0x0A 0x0141 0) ∧
            (s.spoolHas w = true → ∃ t y, exec (.keyWrap j) s = .next t ∧ t.job? j = some y ∧ y.phase = 1))))) ∧
    (s.cmdJob j 0x5006 = some x → k.policy.flag polExport = false →
      ∃ t, exec (.keyExport j) s = .next t ∧ t.Ended j 0x03 0x010D 0) ∧
    (s.cmdJob j 0x5006 = some x → k.policy.flag polExport = true → x.inLen = 1184 → k.category5 = true →
      ∃ t, exec (.keyExport j) s = .next t ∧ t.Ended j 0x03 0x010E 0) ∧
    (∀ rt c, s.cmdJob j 0x5006 = some x → k.policy.flag polExport = true →
      (x.inLen = 1184 ∧ rt = 0x11 ∧ c = 1088 ∧ k.category5 = false ∨ x.inLen = 1568 ∧ rt = 0x12 ∧ c = 1568) →
      pubKeyErr rt x.block = none →
      k.windowErr s.glb.ptcLife.toNat = none → s.UnitsReady x {} → 0x30 + c + 8 * ceilDiv k.mat.length 8 + 8 ≤ x.outCap →
      ∃ t out, exec (.keyExport j) s = .next t ∧ t.EndedWith j out ∧ out.take 8 =
        [0x41, 0x4B, 0x49, 0x31, 1, BitVec.ofNat 8 k.type, 0, 0] ∧
        out.length = 0x30 + c + 8 * ceilDiv k.mat.length 8 + 8)

/-- Replacement (Table 5.10). KEY_REPLACE of a symmetric key without PERSIST or MIRROR that generates in place leaves the key in use
and a verified shadow of the new material beside it, whether t0 was done at its admission or is done now; the KEY is gone: KEY 0x0103;
another replacement is under way: BUSY 0x0141. At the flip the shadow is the key, its use counter 0 and its half the other one. -/
def Obligations.KeyReplacementCommands : Prop :=
  ∀ (s : State) (slot : Nat) (k : KeyObj), s.key? slot = some k →
    (∀ j x, s.cmdJob j 0x5007 = some x → x.key = some (slot, k) → x.param = 0 → k.repl = none → k.type < 0x10 →
      x.auxLen = 0 → k.policy.flag polPersist = false → k.policy.flag polMirror = false →
      k.windowErr s.glb.ptcLife.toNat = none → s.entriesOf x.fn + k.run ≤ s.entryQuota x.fn →
      (s.makeRoom [k.run] s.kst.keys.length).2.isSome →
      entryOk k.type (newMaterial k.type k.param x.rnd) = true →
      ∃ t y r, exec (.keyReplace j) s = .next t ∧ t.key? slot = some y ∧ y.mat = k.mat ∧ y.active = k.active ∧
        (x.reserved = false → y.uses = k.uses) ∧ y.repl = some r ∧ r.step = 5 ∧ r.job = j ∧
        r.mat = newMaterial k.type k.param x.rnd) ∧
    (∀ j x k0 r0, s.cmdJob j 0x5007 = some x → x.key = some (slot, k0) → k0.uid = k.uid → k.repl = some r0 →
      (r0.job ≠ j → ∃ t, exec (.keyReplace j) s = .next t ∧ t.Ended j 0x0F 0x0141 0) ∧
      (r0.job = j → r0.step = 0 → x.param = 0 → k.type < 0x10 → x.auxLen = 0 → k.policy.flag polPersist = false →
        k0.policy.flag polMirror = false → ({ k with policy := k0.policy } : KeyObj).windowErr s.glb.ptcLife.toNat = none →
        entryOk k.type (newMaterial k.type k.param x.rnd) = true →
        ∃ t y r, exec (.keyReplace j) s = .next t ∧ t.key? slot = some y ∧ y.mat = k.mat ∧ y.active = k.active ∧
          (x.reserved = false → y.uses = k.uses) ∧ y.repl = some r ∧ r.step = 5 ∧ r.job = j ∧
          r.mat = newMaterial k.type k.param x.rnd)) ∧
    (∀ j x k0, s.cmdJob j 0x5007 = some x → x.key = some (slot, k0) → k0.uid ≠ k.uid →
      ∃ t, exec (.keyReplace j) s = .next t ∧ t.Ended j 0x03 0x0103 0) ∧
    (∀ r owner index, slot = keySlot owner index → k.repl = some r → r.step = 5 →
      (∀ e ∈ s.kst.keys, e.1 = slot → e.2 = k) →
      ∃ t y, exec (.keyActiveFlip owner index) s = .next t ∧ t.key? slot = some y ∧ y.mat = r.mat ∧ y.pub = r.pub ∧
        y.active = !k.active ∧ y.uses = 0 ∧ y.uid = k.uid ∧ y.policy = k.policy)

/-- Events of the key store. keyFetchComplete: a symmetric key fetched from HBM lets its job go on at S3 with KEY_FETCHED, and an ML-KEM
key whose embedded hash fails ends it with INTEGRITY 0x0201. keyExpiry: NOT_AFTER reached marks the key expired.
hbmUncorrectableError counts and makes the key UNUSABLE; hbmCorrectedError counts. persistRebuild: a record gives a PERSIST key its
claimed slot back with the recorded EPOCH, its material still on the spool, UNUSABLE where the record's tag fails; the end of the
records frees the slots still claimed. -/
def Obligations.KeyStoreEvents : Prop :=
  (∀ (s : State) (owner index : Nat) (k : KeyObj), s.key? (keySlot owner index) = some k →
    (∀ j x b, s.job? j = some x → x.key = some (keySlot owner index, k) → x.key2 = none → x.fetching = false →
      x.stage = .waiting .cache → k.inTable = true →
      (k.type < 0x10 → ∃ t y, exec (.keyFetchComplete j b) s = .next t ∧ t.job? j = some y ∧ y.stage = .s3 ∧
        y.fKeyFetched = true ∧ t.kst.cntMissHbm = satInc s.kst.cntMissHbm) ∧
      (0x10 ≤ k.type → k.type ≤ 0x12 → ∃ t, exec (.keyFetchComplete j false) s = .next t ∧ t.Ended j 0x09 0x0201 0)) ∧
    (k.policy.notAfter ≠ 0xFFFFFFFF → k.policy.notAfter ≤ s.glb.ptcLife.toNat →
      ∃ t, exec (.keyExpiry owner index) s = .next t ∧ t.key? (keySlot owner index) = some { k with expired := true } ∧
        t.jobs = s.jobs) ∧
    (∀ a, ∃ t, exec (.hbmUncorrectableError owner index a) s = .next t ∧ t.hbm.unc = satInc s.hbm.unc ∧
      ∃ y, t.key? (keySlot owner index) = some y ∧ y.uid = k.uid ∧ y.unusable = true)) ∧
  (∀ s : State,
    (∀ r : KeyRecord, s.kst.rebuild = true → (s.kst.claimed.get? (keySlot r.id.owner r.index)).isSome →
      ∃ t y, exec (.persistRebuild (some r)) s = .next t ∧ t.key? (keySlot r.id.owner r.index) = some y ∧ y.mat = r.form ∧
        y.inTable = false ∧ y.spoolRec = some (r.id.recno, r.id.version) ∧ y.unusable = !r.tagOk ∧
        t.kst.epoch.getD (keySlot r.id.owner r.index) 0 = BitVec.ofNat 4 r.epoch) ∧
    (s.hbm.trained = true → exec .hbmCorrectedError s = .next
      ({ s with hbm := { s.hbm with cor := satInc s.hbm.cor } } : State).settle) ∧
    (s.kst.rebuild = true → exec (.persistRebuild none) s = .next
      ({ s with kst := { s.kst with rebuild := false, claimed := [] } } : State).settle))

/-! ## Strands -/

/-- States of a strand (R303, R304), its commands the manager's: STRAND_ENABLE takes a disabled strand to ENABLED at the next
generation with a full bucket and a stopped one to ENABLED at the generation it has, leaves an enabled one and is refused of a
draining one; STRAND_DISABLE begins a drain of an enabled strand, takes a stopped one to DISABLED without its rings, leaves a draining
one and is refused of a disabled one; the drain ends in STOPPED once nothing of the strand is in the device, not before. -/
def Obligations.StrandStateCommands : Prop :=
  ∀ (s : State) (j : Nat) (x : Job), x.fn = 0 → s.vfEnabled x.strandNo = true →
    (s.cmdJob j 0xF101 = some x → (s.strand x.strandNo).state = .disabled → s.aliases x.strandNo = false → 8 ≤ x.outCap →
      ∃ t, exec (.strandEnable j) s = .next t ∧ (t.strand x.strandNo).state = .enabled ∧
        (t.strand x.strandNo).gen = (s.strand x.strandNo).gen + 1 ∧
        (t.strand x.strandNo).level = (s.strand x.strandNo).quota.burst * 2 ^ 20 ∧
        t.EndedWith j (leBytes 8 ((s.strand x.strandNo).gen + 1).toNat)) ∧
    (s.cmdJob j 0xF101 = some x → (s.strand x.strandNo).state = .stopped → 8 ≤ x.outCap →
      ∃ t, exec (.strandEnable j) s = .next t ∧ (t.strand x.strandNo).state = .enabled ∧
        (t.strand x.strandNo).gen = (s.strand x.strandNo).gen ∧ t.kst = s.kst ∧ t.rings = s.rings ∧
        t.EndedWith j (leBytes 8 (s.strand x.strandNo).gen.toNat)) ∧
    (s.cmdJob j 0xF101 = some x → (s.strand x.strandNo).state = .draining →
      ∃ t, exec (.strandEnable j) s = .next t ∧ t.Ended j 0x0F 0x0102 0 ∧ t.strands = s.strands) ∧
    (s.cmdJob j 0xF101 = some x → (s.strand x.strandNo).state = .enabled → 8 ≤ x.outCap →
      ∃ t, exec (.strandEnable j) s = .next t ∧ t.EndedWith j (leBytes 8 (s.strand x.strandNo).gen.toNat) ∧
        t.strands = s.strands) ∧
    (s.cmdJob j 0xF102 = some x → (s.strand x.strandNo).state = .enabled →
      ∃ t, exec (.strandDisable j) s = .next t ∧ (t.strand x.strandNo).state = .draining ∧ t.EndedWith j [] ∧
        t.kst = s.kst ∧ t.rings = s.rings) ∧
    (s.cmdJob j 0xF102 = some x → (s.strand x.strandNo).state = .draining →
      ∃ t, exec (.strandDisable j) s = .next t ∧ t.EndedWith j [] ∧ t.strands = s.strands) ∧
    (s.cmdJob j 0xF102 = some x → (s.strand x.strandNo).state = .stopped →
      ∃ t, exec (.strandDisable j) s = .next t ∧ (t.strand x.strandNo).state = .disabled ∧ t.EndedWith j [] ∧
        ∀ r, r < 256 → t.ring? x.strandNo r = none) ∧
    (s.cmdJob j 0xF102 = some x → (s.strand x.strandNo).state = .disabled →
      ∃ t, exec (.strandDisable j) s = .next t ∧ t.Ended j 0x0B 0x0103 0 ∧ t.strands = s.strands) ∧
    ((s.strand x.strandNo).state = .draining → s.strandBusy x.strandNo = false →
      ∃ t, exec (.strandDrainEnd x.strandNo) s = .next t ∧ (t.strand x.strandNo).state = .stopped ∧
        (t.strand x.strandNo).gen = (s.strand x.strandNo).gen ∧ t.kst = s.kst) ∧
    (s.strandBusy x.strandNo = true → exec (.strandDrainEnd x.strandNo) s = .next s.settle)

/-- vfFlr, FLR of a strand with no save or restore of it under way: an enabled one stays ENABLED, its page reset and its rings gone;
of a disabled one only the page is reset; OTP and vigil RAM stay. vfEnableClear leaves every strand above the new number
DISABLED. -/
def Obligations.StrandResets : Prop :=
  ∀ s : State, s.barsOpen = true →
    (∀ f, s.vfEnabled f = true → (s.strand f).state = .enabled → s.transfers f = [] →
      ∃ t, exec (.vfFlr f) s = .next t ∧ (t.strand f).state = .enabled ∧ (t.page f).halted = false ∧ (t.page f).fault = 0 ∧
        (t.page f).late = 0 ∧ (∀ r, r < 256 → t.ring? f r = none) ∧ t.otp = s.otp ∧ t.vigil = s.vigil) ∧
    (∀ f, s.vfEnabled f = true → (s.strand f).state = .disabled → s.transfers f = [] →
      exec (.vfFlr f) s = .next (s.resetPage f).settle) ∧
    (∀ n, n ≤ 1023 → ∃ t, exec (.vfEnableClear n) s = .next t ∧ t.host.numVfs = n ∧
      ∀ f, n < f → f ≤ s.host.numVfs → (t.strand f).state = .disabled)

/-- Quotas, buckets and the dirty log (R105, R106, R308, R321). strandQuota: a quota that no check refuses replaces the old one, the
others end with the check's error, INPUT 0x0108 for a field out of range. bucketRefill adds RATE / 10^6 tokens in 2^20ths up to
BURST; without a RATE nothing changes. dlogStart sets the window and both bitmaps; an unaligned word or a window above 2^40 bytes is
INPUT 0x0109. dlogSwap turns logging to the other bitmap and answers the number of the closed one, waiting while a bit of that one is
still to be written; dlogStop ends logging, waiting for both bitmaps; with no log on both are CONFLICT 0x0108. -/
def Obligations.QuotaAndDirtyLogCommands : Prop :=
  (∀ (s : State) (j : Nat) (x : Job),
    (s.cmdJob j 0xF103 = some x → x.fn = 0 → s.vfEnabled x.strandNo = true →
      (s.quotaErr x.strandNo x.block = none → ∃ t, exec (.strandQuota j) s = .next t ∧ t.EndedWith j [] ∧
        (t.strand x.strandNo).quota = quotaOf x.block ∧ (t.strand x.strandNo).gen = (s.strand x.strandNo).gen ∧
        ((quotaOf x.block).burst < (s.strand x.strandNo).quota.burst →
          (t.strand x.strandNo).level ≤ (quotaOf x.block).burst * 2 ^ 20)) ∧
      ((quotaOf x.block).inRange x.block = false → s.quotaErr x.strandNo x.block = some (0x02, 0x0108)) ∧
      (∀ e, s.quotaErr x.strandNo x.block = some e → ∃ t, exec (.strandQuota j) s = .next t ∧ t.Ended j e.1 e.2 0 ∧
        t.strands = s.strands)) ∧
    (∀ f, s.live = true → (s.strand f).quota.rate ≠ 0 →
      ∃ t, exec (.bucketRefill f) s = .next t ∧
        (t.strand f).level = max (s.strand f).level
          (min ((s.strand f).quota.burst * 2 ^ 20) ((s.strand f).level + (s.strand f).quota.rate * 2 ^ 20 / 1000000)) ∧
        (t.strand f).quota = (s.strand f).quota ∧ t.jobs = s.jobs) ∧
    (∀ f, (s.strand f).quota.rate = 0 → exec (.bucketRefill f) s = .next s.settle)) ∧
  (∀ (s : State) (j : Nat) (x : Job), x.fn = 0 → s.vfEnabled x.strandNo = true →
    (s.cmdJob j 0xF104 = some x →
      (leAt x.block 0 8 % 4096 = 0 → leAt x.block 8 8 % 4096 = 0 → leAt x.block 8 8 ≤ 2 ^ 40 → leAt x.block 16 8 % 4096 = 0 →
        leAt x.block 24 8 % 4096 = 0 → ∃ t, exec (.dlogStart j) s = .next t ∧ t.EndedWith j [] ∧
          t.strand x.strandNo = { s.strand x.strandNo with
            dlogOn := true, dlogBuf := false, dlogBase := leAt x.block 0 8, dlogLen := leAt x.block 8 8
            dlogA := leAt x.block 16 8, dlogB := leAt x.block 24 8 }) ∧
      ((leAt x.block 0 8 % 4096 ≠ 0 ∨ leAt x.block 8 8 % 4096 ≠ 0 ∨ 2 ^ 40 < leAt x.block 8 8 ∨ leAt x.block 16 8 % 4096 ≠ 0 ∨
        leAt x.block 24 8 % 4096 ≠ 0) → ∃ t, exec (.dlogStart j) s = .next t ∧ t.Ended j 0x02 0x0109 0 ∧ t.strands = s.strands)) ∧
    (s.cmdJob j 0xF105 = some x → 8 ≤ x.outCap →
      (x.phase = 0 → (s.strand x.strandNo).dlogOn = true → ∃ t, exec (.dlogSwap j) s = .next t ∧
        (t.strand x.strandNo).dlogBuf = !(s.strand x.strandNo).dlogBuf ∧
        (s.dlogDue x.strandNo (s.strand x.strandNo).dlogBuf = false →
          t.EndedWith j (leBytes 8 (b2n (s.strand x.strandNo).dlogBuf))) ∧
        (s.dlogDue x.strandNo (s.strand x.strandNo).dlogBuf = true →
          ∃ y, t.job? j = some y ∧ y.stage = .firmware ∧ y.phase = 2 ∧ y.note = b2n (s.strand x.strandNo).dlogBuf)) ∧
      (x.phase = 2 → s.dlogDue x.strandNo (x.note = 1) = false → ∃ t, exec (.dlogSwap j) s = .next t ∧
        t.EndedWith j (leBytes 8 (b2n (x.note = 1))) ∧ t.strands = s.strands) ∧
      (x.phase = 0 → (s.strand x.strandNo).dlogOn = false → ∃ t, exec (.dlogSwap j) s = .next t ∧ t.Ended j 0x0B 0x0108 0)) ∧
    (s.cmdJob j 0xF106 = some x → x.phase = 0 →
      ((s.strand x.strandNo).dlogOn = true → ∃ t, exec (.dlogStop j) s = .next t ∧ (t.strand x.strandNo).dlogOn = false ∧
        (s.dlogDue x.strandNo false = false → s.dlogDue x.strandNo true = false → t.EndedWith j [])) ∧
      ((s.strand x.strandNo).dlogOn = false → ∃ t, exec (.dlogStop j) s = .next t ∧ t.Ended j 0x0B 0x0108 0)) ∧
    (s.cmdJob j 0xF106 = some x → x.phase = 2 → s.dlogDue x.strandNo false = false → s.dlogDue x.strandNo true = false →
      ∃ t, exec (.dlogStop j) s = .next t ∧ t.EndedWith j [] ∧ t.strands = s.strands))

/-- Comm pages and mailboxes (R317 to R319). strCommWrite: setting EN fixes the page and writes N_HEAD zero at its offset 0xC00, and
another ADDR is then ignored. hostWriteAck: once the record of the one notice out is acknowledged, N_HEAD is written, then
MBX_STS.NOTICE is set and the strand's vector signalled. mbxRingManager and mbxRingTenant set the receiver's bit and signal its vector,
and do nothing while the bit is set. -/
def Obligations.MailboxCommands : Prop :=
  ∀ s : State, s.barsOpen = true →
    (∀ f (v : W64), 1 ≤ f → f ≤ 1023 → bitOf (s.strand f).comm.toNat 0 = false → v.toNat % 2 = 1 →
      ∃ t, exec (.strCommWrite f v) s = .next t ∧ (t.strand f).comm.toNat = v.toNat / 4096 * 4096 + 1 ∧
        (t.strand f).nHead = 0 ∧ t.host.out = s.host.out ++ [.write 0 (v.toNat / 4096 * 4096 + 0xC00) (zeros 8)]) ∧
    (∀ f (v : W64), 1 ≤ f → f ≤ 1023 → bitOf (s.strand f).comm.toNat 0 = true →
      v.toNat / 4096 ≠ (s.strand f).comm.toNat / 4096 → exec (.strCommWrite f v) s = .next s.settle) ∧
    (∀ f h, s.job? 0 = none → s.host.notices = [{ fn := f, head := h }] → (s.strand f).state ≠ .disabled →
      s.masked f 0 = false → bitOf (s.strand f).mbx.toNat 8 = false →
      ∃ t, exec (.hostWriteAck 0 .ok 0) s = .next t ∧ t.host.notices = [] ∧ (t.page f).mbxSts.getLsbD 1 = true ∧
        t.host.out = s.host.out ++
          [.write 0 ((s.strand f).comm.toNat / 4096 * 4096 + 0xC00) (leBytes 8 h.toNat), .msix f 0]) ∧
    (∀ v : W32, 1 ≤ fld v.toNat 0 10 →
      ((s.page (fld v.toNat 0 10)).mbxSts.getLsbD 0 = false → s.masked (fld v.toNat 0 10) 0 = false →
        ∃ t, exec (.mbxRingManager v) s = .next t ∧ (t.page (fld v.toNat 0 10)).mbxSts.getLsbD 0 = true ∧
          t.host.out = s.host.out ++ [.msix (fld v.toNat 0 10) 0]) ∧
      ((s.page (fld v.toNat 0 10)).mbxSts.getLsbD 0 = true → exec (.mbxRingManager v) s = .next s.settle)) ∧
    (∀ f (v : W32), s.vfEnabled f = true → v.getLsbD 0 = true →
      (s.mbxPend.getD f false = false → ∃ t, exec (.mbxRingTenant f v) s = .next t ∧ t.mbxPend.getD f false = true ∧
        (s.masked 0 (fld (s.strand f).mbx.toNat 0 8) = false →
          t.host.out = s.host.out ++ [.msix 0 (fld (s.strand f).mbx.toNat 0 8)])) ∧
      (s.mbxPend.getD f false = true → exec (.mbxRingTenant f v) s = .next s.settle))

/-- Saving and restoring a strand (R107, R323 to R326). strandSave by the host route answers a stopped strand as one blob sealed under
the key named, and its stateful keys sign no more once the blob's write-back begins; by the ply route the blob is sent and they sign
no more at once. strandRestore of a blob that passes its checks, with no PERSIST or stateful key in it, leaves the strand STOPPED at
the next generation with a key of the blob in its slot; one that fails a check ends with its error. A strand in another state, or one
with keys to restore into, is CONFLICT 0x0103; the ply route with no ply is ABORTED 0x0102. -/
def Obligations.StrandTransferCommands : Prop :=
  ∀ (s : State) (j : Nat) (x : Job), x.fn = 0 → s.vfEnabled x.strandNo = true →
    (s.cmdJob j 0xF107 = some x → x.phase < 2 →
      ((s.strand x.strandNo).state ≠ .stopped → ∃ t, exec (.strandSave j) s = .next t ∧ t.Ended j 0x0B 0x0103 0) ∧
      (∀ slot k, (s.strand x.strandNo).state = .stopped → bitOf x.param 12 = false → s.transferKek x 4 = .ok (slot, k) →
        s.wrapsOf x.fn k false < 2 ^ 32 → k.atHand = true → (∀ e ∈ s.keysOf x.strandNo, e.2.atHand = true) →
        80 + (s.strandBody x.strandNo).length < 2 ^ 32 → 80 + (s.strandBody x.strandNo).length ≤ x.outCap →
        ∃ t, exec (.strandSave j) s = .next t ∧
          t.EndedWith j (s.strandBlob x.strandNo false k.mat (kcvOf 0x07 k.mat) x.rnd)) ∧
      ((s.strand x.strandNo).state = .stopped → bitOf x.param 12 = true →
        (s.plyUp = false → ∃ t, exec (.strandSave j) s = .next t ∧ t.Ended j 0x07 0x0102 0) ∧
        (s.plyUp = true → x.phase = 1 → (∀ e ∈ s.keysOf x.strandNo, e.2.atHand = true) →
          ∃ t y, exec (.strandSave j) s = .next t ∧ t.job? j = some y ∧ y.phase = 2 ∧ t.ply.out = s.ply.out ++
              [.strandBlob x.strandNo (fld x.param 13 3) (s.strandBlob x.strandNo true [] [] x.rnd)] ∧
            (∀ i k, t.key? i = some k → i / 262144 = x.strandNo → stateful k.type = true → pubOnly k.type = false →
              k.savedAway = true ∧ k.next = k.ceil)))) ∧
    (s.job? j = some x → x.opcode = 0xF107 → x.stage = .s7wait → x.sub = none →
      (x.admitted = none ∨ x.gen = (s.strand x.fn).gen) → s.myTurn x = true → s.inS7 (s.sealFrame x) < 64 →
      s.releasedWaits (s.sealFrame x) j = false → x.outWrites ≠ [] →
      ∃ t, exec (.retire j) s = .next t ∧ ∀ i k, t.key? i = some k → i / 262144 = x.strandNo → stateful k.type = true →
        pubOnly k.type = false → k.savedAway = true ∧ k.next = k.ceil) ∧
    (s.cmdJob j 0xF108 = some x → x.phase ≠ 2 →
      ((s.strand x.strandNo).state ≠ .disabled → ∃ t, exec (.strandRestore j) s = .next t ∧ t.Ended j 0x0B 0x0103 0) ∧
      (s.keysOf x.strandNo ≠ [] → ∃ t, exec (.strandRestore j) s = .next t ∧ t.Ended j 0x0B 0x0103 0) ∧
      (∀ slot k body keys, (s.strand x.strandNo).state = .disabled → s.keysOf x.strandNo = [] → bitOf x.param 12 = false →
        s.transferKek x 5 = .ok (slot, k) → k.atHand = true → openStrand x.block k.mat (kcvOf 0x07 k.mat) false = some body →
        savedKeys (leAt x.block 0x14 4) (body.drop (16 + 40 * leAt x.block 0x10 2)) = some keys →
        (∀ e, (s.useKek slot k.uid).restoreErr x.strandNo (x.block.take 64) (savedRings (leAt x.block 0x10 2) body) keys = some e →
          ∃ t, exec (.strandRestore j) s = .next t ∧ t.Ended j e.1 e.2 0) ∧
        ((s.useKek slot k.uid).restoreErr x.strandNo (x.block.take 64) (savedRings (leAt x.block 0x10 2) body) keys = none →
          (∀ v ∈ keys, v.key.policy.flag polPersist = false ∧ stateful v.key.type = false) →
          ∃ t, exec (.strandRestore j) s = .next t ∧ t.EndedWith j [] ∧ (t.strand x.strandNo).state = .stopped ∧
            (t.strand x.strandNo).gen = (s.strand x.strandNo).gen + 1 ∧
            ∀ v, keys = [v] → ∃ y, t.key? (keySlot x.strandNo v.index) = some y ∧ y.type = v.key.type ∧ y.mat = v.key.mat ∧
              y.policy = v.key.policy ∧ y.uses = v.key.uses)))

/-! ## The manager's commands on modes, and the life cycle -/

/-- Drains and resets. A DRAIN or RESUME that starts in the cycle of a change of mode by the hardware ends with BUSY 0x0104 and no
effect (R35). DRAIN enters DRAIN, RESUME ends the drain of DRAIN and of POWER_DOWN_PREP and no other; `drainComplete` completes the one
command that waits for the drain, and where RAW_ENTER began it, RAW begins with the instances and the reservoir wiped.
POWER_DOWN_PREP begins a drain and, once both checkpoints are written, answers PTC_LIFE, BOOTS and the ports written. DEVICE_RESET
asks for the reset that follows its completion, and refuses any PARAM but 0x9528. RAW_ENTER needs its life-cycle access; RAW_EXIT
restarts the entropy island in GATHER, and outside RAW has no effect. -/
def Obligations.ModeCommands : Prop :=
  ∀ (s : State) (j : Nat) (x : Job),
    (s.cmdJob j 0xF201 = some x → x.phase = 0 → ∃ t, exec (.drain j true) s = .next t ∧ t.Ended j 0x0F 0x0104 0 ∧
      t.glb.drain = s.glb.drain ∧ t.rings = s.rings) ∧
    (s.cmdJob j 0xF202 = some x → x.phase = 0 → ∃ t, exec (.resume j true) s = .next t ∧ t.Ended j 0x0F 0x0104 0 ∧
      t.glb.drain = s.glb.drain) ∧
    (s.cmdJob j 0xF201 = some x → x.phase = 0 → s.glb.drain = .none → s.glb.drainWaiters = [] →
      ∃ t, exec (.drain j false) s = .next t ∧ t.glb.drain = .standalone ∧ t.glb.phase = s.glb.phase ∧ t.otp = s.otp) ∧
    (s.cmdJob j 0xF202 = some x → (s.glb.drain = .standalone ∨ s.glb.drain = .powerDown) →
      ∃ t, exec (.resume j false) s = .next t ∧ t.glb.drain = .none ∧ t.EndedWith j [] ∧ t.rings = s.rings) ∧
    (s.cmdJob j 0xF202 = some x → s.glb.drain ≠ .standalone → s.glb.drain ≠ .powerDown →
      ∃ t, exec (.resume j false) s = .next t ∧ t.glb.drain = s.glb.drain ∧ t.EndedWith j []) ∧
    (s.cmdJob j 0xF203 = some x →
      (x.outCap < 16 → ∃ t, exec (.powerDownPrep j false) s = .next t ∧ t.Ended j 0x02 3 16) ∧
      (16 ≤ x.outCap → x.phase = 0 → s.glb.drain = .none → s.drained = false →
        ∃ t y, exec (.powerDownPrep j false) s = .next t ∧ t.glb.drain = .powerDown ∧ t.job? j = some y ∧ y.phase = 1) ∧
      (16 ≤ x.outCap → x.phase = 2 →
        s.jobs.find? (fun e => e.2.stage = .firmware && e.2.opcode = 0xF203 && e.2.phase = 2) = some (j, x) →
        s.workPending .ckpt = false → s.workPending .boots = false →
        ∃ t, exec (.powerDownPrep j false) s = .next t ∧
          t.EndedWith j (leBytes 4 s.glb.ptcLife.toNat ++ leBytes 4 s.glb.boots.toNat ++ leBytes 8 (s.ckptPorts x)))) ∧
    (s.cmdJob j 0xF204 = some x →
      (x.param = 0x9528 → ∃ t, exec (.deviceReset j false) s = .next t ∧ t.EndedWith j [] ∧ t.glb.resetDue = true ∧
        t.glb.resetJob = some j ∧ t.rings = s.rings) ∧
      (x.param ≠ 0x9528 → ∃ t, exec (.deviceReset j false) s = .next t ∧ t.Ended j 0x02 4 0 ∧ t.glb.resetDue = s.glb.resetDue)) ∧
    (s.cmdJob j 0xF205 = some x →
      (s.lcs.access.getLsbD 6 = false → ∃ t, exec (.rawEnter j false) s = .next t ∧ t.Ended j 0x0B 0x0104 0) ∧
      (s.lcs.access.getLsbD 6 = true → x.phase = 0 → s.glb.drain = .none → s.glb.drainWaiters = [] →
        ∃ t, exec (.rawEnter j false) s = .next t ∧ (t.glb.drain = .raw ∨ (t.glb.raw = true ∧ t.rng.state = 4)))) ∧
    (s.cmdJob j 0xF207 = some x → s.glb.raw = true →
      ∃ t, exec (.rawExit j false) s = .next t ∧ t.EndedWith j [] ∧ t.glb.raw = false ∧ t.glb.phase = .gather ∧ t.rng.state = 0 ∧
        t.rng.resBits = 0) ∧
    (s.cmdJob j 0xF207 = some x → s.glb.raw = false →
      ∃ t, exec (.rawExit j false) s = .next t ∧ t.EndedWith j [] ∧ t.glb.phase = s.glb.phase ∧ t.rng.state = s.rng.state) ∧
    (s.job? j = some x → s.glb.drainWaiters = [j] → s.drained = true →
      (s.glb.drain = .standalone → x.opcode = 0xF201 → ∃ t, exec .drainComplete s = .next t ∧ t.EndedWith j [] ∧
        t.glb.drain = .standalone ∧ t.glb.drainWaiters = []) ∧
      (s.glb.drain = .raw → x.opcode = 0xF205 → ∃ t, exec .drainComplete s = .next t ∧ t.EndedWith j [] ∧
        t.glb.raw = true ∧ t.rng.state = 4 ∧ t.rng.insts = [] ∧ t.rng.resBits = 0))

/-- LC_TRANSITION (R428, R429): a check that fails ends it with its error and a wrong token is counted as well; one that passes
begins the drain towards a state that Table 16.1 lets follow. The intent byte is recorded with the state bytes as they were, or its
readback ends the command with INTEGRITY 0x0B02; the next state byte takes its code; DONE at 0xA5 ends the sequence, a reset to come. -/
def Obligations.LifeCycleCommands : Prop :=
  ∀ (s : State) (j : Nat) (x : Job), s.cmdJob j 0xF604 = some x →
    (∀ m d b, s.lcs.run = none → s.glb.resetDue = false → s.lcRefusal x.block = some (m, d) → m ≠ integrityErr →
      ∃ t, exec (.lcTransition j .token b false) s = .next t ∧ t.Ended j m d 0 ∧ t.otp = s.otp ∧ t.lcs = s.lcs) ∧
    (∀ b, s.lcs.run = none → s.glb.resetDue = false → s.lcRefusal x.block = some (integrityErr, 0x0103) →
      ∃ t, exec (.lcTransition j .token b false) s = .next t ∧ t.Ended j 0x09 0x0103 0 ∧ t.otp = s.otp ∧
        t.lcs.fails = satInc s.lcs.fails) ∧
    (∀ b, s.lcs.run = none → s.glb.resetDue = false → s.lcRefusal x.block = none →
      ∃ t, exec (.lcTransition j .token b false) s = .next t ∧ t.glb.drain = .lifeCycle ∧ t.otp = s.otp ∧
        ∃ k, t.lcs.run = some { job := j, target := k, at_ := 0 } ∧ lcReach s.otp.five s.lcs.ordinal k = true) ∧
    (∀ k, s.lcs.run = some { job := j, target := k, at_ := 1 } →
      ∃ t, exec (.lcTransition j .intent true false) s = .next t ∧ t.otp.intent.getD k 0 = lcCode s.otp.five k ∧
        t.otp.state = s.otp.state ∧ t.otp.done = s.otp.done ∧ t.lcs.pending = lcCode s.otp.five k ∧
        t.lcs.run = some { job := j, target := k, at_ := 2 }) ∧
    (∀ k, s.lcs.run = some { job := j, target := k, at_ := 1 } →
      ∃ t, exec (.lcTransition j .intent false false) s = .next t ∧ t.Ended j 0x09 0x0B02 0 ∧ t.otp = s.otp ∧ t.lcs.run = none) ∧
    (∀ k, s.lcs.run = some { job := j, target := k, at_ := 3 } → k = s.lcs.ordinal + 1 → k ≤ 4 →
      s.otp.state.getD k 0 ≠ lcCode s.otp.five k →
      ∃ t, exec (.lcTransition j .state true false) s = .next t ∧ t.otp.state.getD k 0 = lcCode s.otp.five k ∧
        t.otp.intent = s.otp.intent ∧ t.otp.done = s.otp.done ∧ t.lcs.run = some { job := j, target := k, at_ := 4 }) ∧
    (∀ k, s.lcs.run = some { job := j, target := k, at_ := 4 } →
      ∃ t, exec (.lcTransition j .done true false) s = .next t ∧ t.otp.done.getD k 0 = 0xA5 ∧ t.glb.resetDue = true ∧
        t.EndedWith j [] ∧ t.lcs.run = none)

/-- factoryOtpProgram: the scheme byte is programmed once, in ordinal 0, and in no other ordinal is anything. debugOpen: a path that
the life-cycle state opens enters DEBUG, the storage root gone, and one it closes changes nothing. factoryTestMode: a mode is chosen
in DEBUG where its own access bit is open; outside DEBUG nothing is. -/
def Obligations.FactoryAndDebugCommands : Prop :=
  ∀ s : State,
    (∀ v : Byte, s.pins.mainPower = true → s.lcs.state ≠ 0 → s.lcs.ordinal = 0 → s.lcs.pending = 0 → s.lcs.run = none →
      (s.otp.scheme = 0 → exec (.factoryOtpProgram (.scheme v)) s = .next
        ({ s with otp := { s.otp with scheme := v } } : State).settle) ∧
      (s.otp.scheme ≠ 0 → exec (.factoryOtpProgram (.scheme v)) s = .next s.settle)) ∧
    (∀ f, s.lcs.ordinal ≠ 0 → exec (.factoryOtpProgram f) s = .next s.settle) ∧
    (∀ p, s.awake = true → s.lcs.access.getLsbD (debugBit p) = true → ∃ t, exec (.debugOpen p) s = .next t ∧
      t.otp = s.otp ∧ (s.glb.debug = false → t.glb.debug = true ∧ t.glb.debugThisBoot = true ∧ t.glb.root = false) ∧
      (p = .jtag → t.tap.jtag = true) ∧ (p = .crixaG → t.tap.crxG = true) ∧ (p = .crixaT → t.tap.crxT = true)) ∧
    (∀ p, s.lcs.access.getLsbD (debugBit p) = false → exec (.debugOpen p) s = .next s.settle) ∧
    (∀ m, s.awake = true → s.glb.debug = true → s.lcs.access.getLsbD (factoryNo m - 1) = true →
      exec (.factoryTestMode m) s = .next ({ s with tap := { s.tap with factory := factoryNo m } } : State).settle) ∧
    (∀ m, s.glb.debug = false → exec (.factoryTestMode m) s = .next s.settle)

/-- Table 16.1's transitions only go forward: no ordinal is entered from itself or from a later one, in either scheme, and none
leads out of the last. -/
def Obligations.LifeCycleGoesForward : Prop :=
  ∀ (five : Bool) (m k : Nat), lcReach five m k = true →
    m < k ∧ k ≤ 4 ∧ lcCode five k ≠ 0 ∧ (five = true → m ≤ 1 → k ≠ 3) ∧ (five = false → k ≤ 3) ∧
      (lcErases five m = true → lcErases five k = true)

/-! ## Registers and the digest engine -/

/-- Registers with a row of their own: hdlWtWrite sets the weights of HDL_WT; shtReqWrite sets HOLD, LAT and CLASS of a shuttle
requester that is there (CLASS 0 for the emergency slot), its presence kept, and where none waits no grant changes; a write to an RWL
register (plyCfgWrite, rngCfgWrite, and CRX_CFG: R481) after glbLockSet is ignored with no error reported, and reads keep returning
the locked value (R11), and no glbLockSet clears the lock; ptcBootLowRead, mcsWinData0Read and trcRdData0Read answer the low word and
latch the rest. -/
def Obligations.RegisterRows : Prop :=
  ∀ s : State, s.barsOpen = true →
    (∀ v, exec (.hdlWtWrite v) s = .next ({ s with hdl := { s.hdl with wt := v } } : State).settle) ∧
    (∀ inst slot (v : W64), inst < 8 → slot < 16 → bitOf (s.shtReq inst slot) 2 = true →
      ∃ t w, exec (.shtReqWrite inst slot v {}) s = .next t ∧ (t.shuttle inst).req.get? slot = some w ∧
        w.toNat / 2 ^ 16 = v.toNat / 2 ^ 16 ∧ fld w.toNat 2 2 = fld (s.shtReq inst slot) 2 2 ∧
        fld w.toNat 0 2 = (if slot = shtEmerg inst then 0 else fld v.toNat 0 2) ∧
        ((s.shuttle inst).waiting = [] → (t.shuttle inst).grants = (s.shuttle inst).grants)) ∧
    (∀ v, (s.glb.lock = true → exec (.rngCfgWrite v) s = .next s.settle) ∧
      (s.glb.lock = false → 2 ≤ popCount 3 (v.toNat % 8) → exec (.rngCfgWrite v) s = .next s.settle) ∧
      (s.glb.lock = false → popCount 3 (v.toNat % 8) ≤ 1 → ∃ t, exec (.rngCfgWrite v) s = .next t ∧
        t.rng.cfg.toNat = v.toNat % 8 ∧ t.otp = s.otp)) ∧
    (∀ v, (s.glb.lock = true → exec (.plyCfgWrite v) s = .next s.settle) ∧
      (s.glb.lock = false → ∃ t, exec (.plyCfgWrite v) s = .next t ∧ t.ply.cfg = v &&& 0x1F ∧ t.otp = s.otp)) ∧
    (∀ v : W32, (v.getLsbD 0 = true → exec (.glbLockSet v) s = .next
        ({ s with glb := { s.glb with lock := true } } : State).settle) ∧
      (v.getLsbD 0 = false → exec (.glbLockSet v) s = .next s.settle)) ∧
    (∀ off (v : W64), off ∈ [0x080000, 0x090008, 0x400000] → s.glb.lock = true →
      exec (.registerWrite .bar2 0 off 4 v {}) s = .next ({ s with host := { s.host with ur := false } } : State).settle ∧
      ({ s with host := { s.host with ur := false } } : State).settle.regAt (locate .bar2 0 off) =
        s.regAt (locate .bar2 0 off)) ∧
    (∃ t, exec .ptcBootLowRead s = .next t ∧ t.host.lastRead.toNat = s.glb.ptcBoot.toNat % 2 ^ 32 ∧
      t.glb.ptcBootLatch.toNat = s.glb.ptcBoot.toNat / 2 ^ 32 ∧ t.glb.ptcBoot = s.glb.ptcBoot ∧ t.jobs = s.jobs) ∧
    (∃ t, exec .mcsWinData0Read s = .next t ∧ t.host.lastRead = BitVec.ofNat 64 s.winWord ∧
      t.mcs.latch = BitVec.ofNat 192 s.winWord ∧ t.jobs = s.jobs) ∧
    (∃ t, exec .trcRdData0Read s = .next t ∧ t.trc.latch = s.trc.buf.getD (fld s.trc.rdIdx.toNat 0 13) [0, 0, 0, 0] ∧
      t.host.lastRead = ((t.trc.latch[0]?).getD 0) ∧ t.trc.buf = s.trc.buf)

/-- R480: an 8-byte read of a register of type RC answers its value and leaves it 0; what a counter of that register counts in the
cycle of the read, it counts on from 0 (R9). -/
def Obligations.CounterReadsClear : Prop :=
  ∀ (s : State) (bar : Bar) (fn offset : Nat) (cs : List Nat), s.barsOpen = true → s.accessOk bar fn offset 8 = true →
    rcCounters (locate bar fn offset) = some cs →
    (∃ t, exec (.rcCounterRead bar fn offset 8 []) s = .next t ∧
      t.host.lastRead = BitVec.ofNat 64 (s.regAt (locate bar fn offset)) ∧ t.regAt (locate bar fn offset) = 0 ∧
      t.jobs = s.jobs ∧ t.rings = s.rings ∧ t.otp = s.otp ∧ t.vigil = s.vigil) ∧
    (cs = [0] → ∃ t, exec (.rcCounterRead bar fn offset 8 [0]) s = .next t ∧
      t.host.lastRead = BitVec.ofNat 64 (s.regAt (locate bar fn offset)) ∧ t.regAt (locate bar fn offset) = 1)

/-- R8 and R479: an access that is misaligned, of another size or outside the windows is answered as an Unsupported Request and has
no effect; a write to an address that is assigned to no register has none either. PWR_CAP takes bits [16:0] of what is written, and
CRX_CFG what R481 allows. Of the writers of one cycle the first in precedence is the one whose write takes effect (R10); a bit that
hardware sets in the cycle of its clearing stays 1 (R9). The addresses the spec works out in R480 lead where it says. -/
def Obligations.RegisterWrites : Prop :=
  (locate .bar2 0 0x01A4000 = .creel 2 8 0 ∧ locate .bar2 0 0x0053140 = .sht 3 0x140 ∧
    locate .bar2 0 0x0020148 = .str 5 0x08 ∧ locate .bar2 0 0x00A12E0 = .slot 50 0xE0 ∧
    locate .bar2 0 0x00B8008 = .shadow (.tmp 0x08) ∧ (∀ n < 256, locate .bar0 0 (0x10000 + 0x40 * n) = .bell 0 n)) ∧
  ∀ s : State, s.barsOpen = true →
    (∀ bar fn offset size v c, bar ≠ .config → s.accessOk bar fn offset size = false →
      exec (.registerWrite bar fn offset size v c) s = .next ({ s with host := { s.host with ur := true } } : State).settle ∧
      ∀ b : List Nat, exec (.rcCounterRead bar fn offset size b) s = .next
        ({ s with host := { s.host with ur := true } } : State).settle) ∧
    (∀ bar fn offset size v c, s.accessOk bar fn offset size = true → locate bar fn offset = .reserved →
      exec (.registerWrite bar fn offset size v c) s = .next ({ s with host := { s.host with ur := false } } : State).settle) ∧
    (∀ (v w x : W64) (c : Cycle), (c, x) ∈ [({}, v), ({ rivals := [(.trusted, w)] }, w), ({ rivals := [(.strand, w)] }, v),
        ({ writer := .strand, rivals := [(.manager, w)] }, w), ({ writer := .trusted, rivals := [(.manager, w)] }, v)] →
      exec (.registerWrite .bar2 0 0x0D0008 4 v c) s = .next ({ s with
        host := { s.host with ur := false }
        cap := { s.cap with cap := BitVec.ofNat 32 x.toNat &&& 0x1FFFF } } : State).settle) ∧
    (∀ v w : W64, exec (.registerWrite .bar2 0 0x010008 4 v { sets := w }) s = .next ({ s with host := { s.host with
        ur := false, err := (s.host.err &&& ~~~(BitVec.ofNat 4 v.toNat)) ||| BitVec.ofNat 4 w.toNat } } : State).settle) ∧
    (∀ v : W64, s.glb.lock = true → exec (.registerWrite .bar2 0 0x400000 4 v {}) s = .next
      ({ s with host := { s.host with ur := false } } : State).settle)

/-- The digest engine's register slots (chapter 15). dgeDataWrite: 8 bytes of INT data join the message of a slot that absorbs, with a
free word in its FIFO and no length declared; data written in the cycle of an abort is discarded (R421); a manager's write of another
size than 4 or 8 bytes is an Unsupported Request (R8). dgeLastWrite adds up to 8 bytes and begins FINISH. dgeCtlAbort wipes the message
with ERR ABORTED, where no store stalls. dgeCtxCfgWrite: a configuration is taken by an idle slot and counted as misuse inside a
message. digestBlockDone, where a lane serves the slot (R409): a full block is absorbed, and a core's stalled store then joins the
message; the end of the message stands in OUT. -/
def Obligations.DigestCommands : Prop :=
  ∀ (s : State) (n : Nat), 48 ≤ n → n < 64 →
    (∀ size v b, s.barsOpen = true → size ≠ 4 → size ≠ 8 → exec (.dgeDataWrite n size .manager .int v b) s = .next
      ({ s with host := { s.host with ur := true } } : State).settle) ∧
    (∀ v, s.barsOpen = true → dgeOwns .manager n = true → exec (.dgeDataWrite n 8 .manager .int v true) s = .next s.settle) ∧
    (∀ v, s.barsOpen = true → dgeOwns .manager n = true → (s.dslot n).state = 1 → (s.dslot n).freeWords ≠ 0 →
      (s.dslot n).len = BitVec.allOnes 64 → (s.dslot n).msg.length + 8 < 2 ^ 61 →
      ∃ t, exec (.dgeDataWrite n 8 .manager .int v false) s = .next t ∧ (t.dslot n).msg = (s.dslot n).msg ++ leBytes 8 v.toNat ∧
        (t.dslot n).state = 1 ∧ t.jobs = s.jobs) ∧
    (∀ (k : Nat), k ≤ 8 → (s.dslot n).state = 1 → (s.dslot n).len = BitVec.allOnes 64 → (s.dslot n).lastData.tag = .int →
      (s.dslot n).msg.length + 8 < 2 ^ 61 →
      ∃ t, exec (.dgeLastWrite n (BitVec.ofNat 32 k)) s = .next t ∧ (t.dslot n).state = 2 ∧
        (t.dslot n).msg = (s.dslot n).msg ++ (leBytes 8 (s.dslot n).lastData.val.toNat).take k) ∧
    ((s.dslot n).state = 1 ∨ (s.dslot n).state = 2 → (s.dslot n).held = [] → ∃ t, exec (.dgeCtlAbort n 1) s = .next t ∧
      (t.dslot n).state = 0 ∧
      (t.dslot n).err = 6 ∧ (t.dslot n).msg = [] ∧ (t.dslot n).out = []) ∧
    (∀ v, dgeCfgClean v = true →
      ((s.dslot n).state = 0 → exec (.dgeCtxCfgWrite n v) s = .next
        (s.setDslot n { s.dslot n with cfg := v }).settle) ∧
      ((s.dslot n).state = 1 → ∃ t, exec (.dgeCtxCfgWrite n v) s = .next t ∧ t.dslot n = s.dslot n ∧
        t.dge.cntMisuse = satInc s.dge.cntMisuse)) ∧
    (∀ b, (s.dslot n).state = 1 ∨ (s.dslot n).state = 2 → (s.regLane n).isSome = true → (s.dslot n).fullBlock = true →
      (s.dslot n).held = [] → ∃ t, exec (.digestBlockDone n b) s = .next t ∧
        (t.dslot n).absorbed = (s.dslot n).absorbed + (s.dslot n).block ∧
        (t.dslot n).msg = (s.dslot n).msg) ∧
    (∀ b v, (s.dslot n).state = 1 → (s.regLane n).isSome = true → (s.dslot n).fullBlock = true →
      (s.dslot n).held = [{ tag := .int, val := v }] → (s.dslot n).len = BitVec.allOnes 64 →
      ceilDiv ((s.dslot n).msg.length - (s.dslot n).absorbed - (s.dslot n).block) 8 < 32 → (s.dslot n).msg.length + 8 < 2 ^ 61 →
      ∃ t, exec (.digestBlockDone n b) s = .next t ∧ (t.dslot n).absorbed = (s.dslot n).absorbed + (s.dslot n).block ∧
        (t.dslot n).msg = (s.dslot n).msg ++ leBytes 8 v.toNat ∧ (t.dslot n).held = []) ∧
    ((s.dslot n).state = 2 → (s.dslot n).compares = false → (s.regLane n).isSome = true → (s.dslot n).fullBlock = false →
      ∃ t, exec (.digestBlockDone n false) s = .next t ∧
        (t.dslot n).state = 3 ∧ (t.dslot n).out = (s.dslot n).digest ∧ (t.dslot n).msgs = (s.dslot n).msgs + 1)

/-! ## Entropy, tamper -/

/-- The noise sources (R388, R389, R397, R400, Table 14.1). noiseSample: a sample that completes the repetition count of an active
source fails it, with its bit of RNG_EVT; one that fails no test joins the accumulation. sourceStartupPass: a source joins after 1,024
passing samples, with their bits; sourceRestore: a failed one that has passed for 1 s is healthy again, unless a test of it fails in
that tick. Conditioner, instances and buffers (R390 to R395): conditionedBlock takes 320 bits of credit and adds its 256 bits to a
reservoir of 768, of which an instance not yet there takes 384; drbgReseedRequest asks when a reseed is due, drbgReseed takes 256 bits
for the instance; frameBufferRefill adds 4 KiB, maskGeneratorReseed takes 32 bytes. Jobs (R402, R404): generate answers OUT_CAP bytes
and counts its requests, reseed reseeds instance H, a reseed that cannot be had by the deadline ends with 0x0A01; rawRead refuses what
Table 14.6 excludes, else gathers its bits and answers them packed. -/
def Obligations.EntropyCommands : Prop :=
  (∀ s : State, s.live = true →
    (∀ bits rest, blockOf 32000 s.rng.acc = some (bits, rest) →
      (s.rng.state ≠ 0 → s.rng.state ≠ 4 → ∃ t, exec .conditionedBlock s = .next t ∧
        t.rng.res = (s.rng.res ++ conditioned bits).take 96 ∧ t.rng.acc = rest ∧ t.rng.insts = s.rng.insts) ∧
      (∀ i, s.rng.state = 0 → 2 ≤ s.healthy → s.rng.instantiated = i → i < 6 → s.rng.res.length = 16 →
        ∃ t, exec .conditionedBlock s = .next t ∧ t.rng.res = [] ∧ t.rng.instantiated = i + 1 ∧ t.inst i = {
          seeded := true, seededAt := s.now
          state := drbgInstantiate ((s.rng.res ++ conditioned bits).take 32) ((s.rng.res ++ conditioned bits).drop 32)
            (s.persBytes i) })) ∧
    (blockOf 32000 s.rng.acc = none → exec .conditionedBlock s = .next s.settle) ∧
    (∀ i, i < 6 → (s.inst i).seeded = true → (s.now < (s.inst i).seededAt + 500000 → 2 ^ 19 ≤ (s.inst i).reqs) →
      exec (.drbgReseedRequest i) s = .next (s.setInst i { s.inst i with asked := true }).settle) ∧
    (∀ i, i < 6 → s.rng.state ≠ 4 → s.wantsReseed i = true → s.mayReseed i = true →
      ∃ t h, exec (.drbgReseed i) s = .next t ∧ h.length = 32 ∧ (t.inst i).seeded = true ∧ (t.inst i).seededAt = s.now ∧
        (i ≠ 4 → t.inst i = {
          seeded := true, seededAt := s.now, state := drbgReseed (s.inst i).state (s.rng.res.take 32) h }) ∧
        t.rng.res = s.rng.res.drop 32 ∧ (∀ k, k ≠ i → k ≠ 4 → t.inst k = s.inst k)) ∧
    (∀ f, f < 4 → s.serves f = true → (s.frameBuf f).length + 4096 ≤ 16384 → ∃ t, exec (.frameBufferRefill f) s = .next t ∧
      t.frameBuf f = s.frameBuf f ++ (s.generate f 4096 []).1 ∧ (t.inst f).reqs = (s.inst f).reqs + 1 ∧
      ∀ g, g ≠ f → t.frameBuf g = s.frameBuf g) ∧
    (∀ f c, f < 4 → c < 11 → s.rngRuns = true → 32 ≤ (s.frameBuf f).length → (s.creel f c).maskAt + 10000 ≤ s.now →
      ∃ t, exec (.maskGeneratorReseed f c) s = .next t ∧ t.frameBuf f = (s.frameBuf f).drop 32 ∧
        t.creel f c = { s.creel f c with
          maskSeed := (s.frameBuf f).take 32, maskForced := false, maskHeld := false, maskAt := s.now }) ∧
    (∀ j x, s.running j 0x61 1 = some x → s.rngTurn j x = true → x.phase = 0 →
      (bitOf x.param 0 = false → s.serves 5 = true → (s.inst 5).reqs + ceilDiv x.outCap 65536 ≤ 2 ^ 20 →
        ∃ t y, exec (.generate j) s = .next t ∧ t.job? j = some y ∧ y.stage = .ended ∧ y.major = 0 ∧
          y.result.length = x.outCap ∧ (t.inst 5).reqs = (s.inst 5).reqs + ceilDiv x.outCap 65536) ∧
      (bitOf x.param 0 = true → s.rngRuns = true → s.mayReseed 5 = true → 0 < x.outCap → x.outCap ≤ 65536 →
        ∃ t y, exec (.generate j) s = .next t ∧ t.job? j = some y ∧ y.stage = .ended ∧ y.major = 0 ∧
          y.result.length = x.outCap ∧ (t.inst 5).reqs = 1 ∧ t.rng.res = s.rng.res.drop 32)) ∧
    (∀ j x, s.running j 0x61 2 = some x →
      (s.rngTurn j x = true → s.rngRuns = true → s.mayReseed 5 = true →
        ∃ t y h, exec (.reseed j) s = .next t ∧ t.job? j = some y ∧ y.stage = .ended ∧ y.major = 0 ∧ y.result = [] ∧
          h.length = 32 ∧ t.inst 5 = {
            seeded := true, seededAt := s.now, state := drbgReseed (s.inst 5).state (s.rng.res.take 32) (h ++ x.auxData) } ∧
          t.rng.res = s.rng.res.drop 32) ∧
      (s.rngRuns = false → s.lateNow x = true →
        ∃ t y, exec (.reseed j) s = .next t ∧ t.job? j = some y ∧ y.stage = .ended ∧ y.major = 0x04 ∧ y.detail = 0x0A01 ∧
          y.result = [] ∧ t.rng = s.rng)) ∧
    (∀ j x, s.cmdJob j 0xF206 = some x → x.phase = 0 →
      (16 ≤ x.param → ∃ t, exec (.rawRead j) s = .next t ∧ t.Ended j 0x02 4 0) ∧
      (x.param < 16 → (rawSel x).1 = 3 ∨ (rawSel x).2 = 3 → ∃ t, exec (.rawRead j) s = .next t ∧ t.Ended j 0x02 0x0A02 0) ∧
      (x.param < 16 → (rawSel x).1 < 3 → (rawSel x).2 < 3 → x.outCap < 17 ∨ 1048592 < x.outCap →
        ∃ t, exec (.rawRead j) s = .next t ∧ t.Ended j 0x02 0x0A01 0) ∧
      (x.param < 16 → (rawSel x).1 < 3 → (rawSel x).2 < 3 → 17 ≤ x.outCap → x.outCap ≤ 1048592 →
        ∃ t y, exec (.rawRead j) s = .next t ∧ t.job? j = some y ∧ y.stage = .firmware ∧ y.phase = 2)) ∧
    (∀ j x, s.cmdJob j 0xF206 = some x → x.phase = 2 → 17 ≤ x.outCap → x.result.length = 8 * (x.outCap - 16) →
      ∃ t y, exec (.rawRead j) s = .next t ∧ t.job? j = some y ∧ y.stage = .s6 ∧ y.major = 0 ∧
        y.result.length = x.outCap ∧ y.result.drop 16 = packBits (x.outCap - 16) x.result.reverse)) ∧
  (∀ s : State, s.live = true → s.rng.state ≠ 4 →
    (∀ n c outs edges, (n, c) ∈ [(0, 35), (1, 61), (2, 33)] → (s.src n).state = 1 →
      (s.src n).last = some ((s.src n).rawBit outs) → (s.src n).run + 1 = c → ∃ t, exec (.noiseSample n outs edges) s = .next t ∧
        (t.src n).state = 2 ∧
        t.rng.evt.getLsbD n = true ∧ (t.src n).rctFails = satAdd (s.src n).rctFails 1) ∧
    (∀ n outs edges, n < 3 → (s.src n).state = 1 →
      ((s.src n).sample n outs edges).1.any = false → ∃ t, exec (.noiseSample n outs edges) s = .next t ∧
        t.rng.acc = s.rng.acc ++ [(n, (s.src n).sr.getLsbD 63)] ∧ (t.src n).state = 1 ∧ t.rng.evt = s.rng.evt ∧
        t.host = s.host) ∧
    (∀ n, n < 3 → (s.src n).state = 0 → 1024 ≤ (s.src n).startPass →
      ∃ t, exec (.sourceStartupPass n) s = .next t ∧ (t.src n).state = 1 ∧
        t.rng.acc = s.rng.acc ++ (s.src n).white.reverse.map (fun b => (n, b))) ∧
    (∀ n, n < 3 → (s.src n).state = 2 → (s.src n).okSince + 1000000 ≤ s.now →
      (s.failingNow = [] → ∃ t, exec (.sourceRestore n []) s = .next t ∧ (t.src n).state = 1 ∧
        t.rng.evt.getLsbD (4 + n) = true) ∧
      (n ∈ s.failingNow → ∃ t, exec (.sourceRestore n []) s = .next t ∧ (t.src n).state = 2 ∧ (t.src n).okSince = s.now) ∧
      ∃ t, exec (.sourceRestore n [n]) s = .next t ∧ (t.src n).state = 2 ∧ (t.src n).okSince = s.now) ∧
    (∀ n, n < 3 → (s.src n).state = 2 → s.now < (s.src n).okSince + 1000000 → s.failingNow = [] →
      exec (.sourceRestore n []) s = .next s.settle))

/-- Tamper events with compatibility counting off (R436, R441 to R444). tamperEvent: a watched source fires once while active; its event
is logged, a response of ALARM or more sets its bit of TMP_EVT, FREEZE freezes and ZEROIZE erases the epoch nonce. shadowMismatch
fires with the offset; stateCodeInvalid with a code outside its table; cellRemoval with main power, and without it vigil RAM is lost;
thermTrip stops the clocks. tamperSourceClear lets a source fire again. vigilSample: light fires on one sample, a mesh loop or
enclosure input on the second. tempSample: the readings stand in the registers, one in range logs nothing, one below fires TEMP_LOW. -/
def Obligations.TamperEvents : Prop :=
  ∀ s : State, s.vigil.countEn = false →
    (s.pins.mainPower = true → s.tmp.loaded = true → s.inVigil = false →
      (∀ e : TamperEv, srcKnown e.source = true → s.watched e.source = true → s.fused e.source = false →
        s.srcActive e.source = false → ∃ t, exec (.tamperEvent [e]) s = .next t ∧ t.srcActive e.source = true ∧
          s.LogsOne t e.source (if srcCount e.source then 1 else if srcDetail e.source then e.detail else 0) ∧
          (1 ≤ (s.tmpEntry e.source).resp.toNat → t.tmp.evt.getLsbD e.source = true) ∧
          ((s.tmpEntry e.source).resp = 2 → t.glb.frozen = true ∧ t.vigil.freeze = true) ∧
          ((s.tmpEntry e.source).resp = 3 → t.glb.zeroized = true ∧ t.vigil.nonce = none ∧ t.pins.tamperOut = true)) ∧
      (∀ e : TamperEv, e.source ≠ 20 → e.source ≠ 21 → s.srcActive e.source = true → exec (.tamperEvent [e]) s = .next s.settle) ∧
      (∀ off, s.fused 22 = false → s.srcActive 22 = false → ∃ t, exec (.shadowMismatch off) s = .next t ∧
        s.LogsOne t 22 off) ∧
      (∀ m (c : BitVec 8), m < 4 → s.fused 23 = false → s.srcActive 23 = false →
        ((machineCodes m).contains c = false → ∃ t, exec (.stateCodeInvalid m c) s = .next t ∧
          s.LogsOne t 23 (BitVec.ofNat 32 (c.toNat + 256 * m))) ∧
        ((machineCodes m).contains c = true → exec (.stateCodeInvalid m c) s = .next s.settle)) ∧
      (s.fused 20 = false → s.srcActive 20 = false → ∃ t, exec .cellRemoval s = .next t ∧ t.pins.cell = false ∧
        s.LogsOne t 20 0) ∧
      exec .thermTrip s = .next ({ s with
        pins := { s.pins with thermTrip := true }
        glb := { s.glb with tripped := true } } : State).settle) ∧
    (s.pins.mainPower = false → ∃ t, exec .cellRemoval s = .next t ∧ t.vigil = {} ∧ t.glb.root = false ∧ t.otp = s.otp) ∧
    (∀ n, srcKnown n = true → ∃ t, exec (.tamperSourceClear n) s = .next t ∧ t.srcActive n = false ∧
      (∀ m, m ≠ n → t.srcActive m = s.srcActive m) ∧ t.vigil.log = s.vigil.log ∧ t.tmp.evt = s.tmp.evt) ∧
    (s.inVigil = true → s.pins.cell = true → s.vigil.valid = true →
      (∀ k, ∃ t, exec (.vigilSample k []) s = .next t ∧ t.vigil.ticks = s.vigil.ticks + k ∧ t.vigil.log = s.vigil.log) ∧
      (∀ k, s.fused 6 = false → s.srcActive 6 = false → ∃ t, exec (.vigilSample k [6]) s = .next t ∧ t.srcActive 6 = true ∧
        s.LogsOne t 6 1 ∧ ((s.tmpEntry 6).resp = 3 → t.vigil.nonce = none ∧ t.vigil.zeroized = true)) ∧
      (∀ n k, n ∈ [8, 9, 10, 11, 12, 13, 14, 15] → s.tmp.wrong.getD n 0 = 0 → ∃ t,
        exec (.vigilSample k [n]) s = .next t ∧ t.vigil.log = s.vigil.log ∧ t.tmp.wrong.getD n 0 = 1) ∧
      (∀ n k, n ∈ [8, 9, 10, 11, 12, 13, 14, 15] → s.tmp.wrong.getD n 0 = 1 → s.fused n = false → s.srcActive n = false →
        ∃ t, exec (.vigilSample k [n]) s = .next t ∧ t.srcActive n = true ∧ s.LogsOne t n 1)) ∧
    (∀ a b : Int, s.vigilOn = true → s.vigil.valid = true →
      (∃ t, exec (.tempSample a b) s = .next t ∧ t.tmp.detA = a ∧ t.tmp.detB = b) ∧
      (s.vigil.tLow * 10 ≤ a → s.vigil.tLow * 10 ≤ b → a ≤ s.vigil.tHigh * 10 → b ≤ s.vigil.tHigh * 10 →
        (a - b).natAbs ≤ 100 → ∃ t, exec (.tempSample a b) s = .next t ∧ t.vigil.log = s.vigil.log ∧ t.tmp.disagree = 0) ∧
      ((s.pins.mainPower = true → s.tmp.loaded = true) → a < s.vigil.tLow * 10 → s.fused 1 = false → s.srcActive 1 = false →
        ∃ t, exec (.tempSample a b) s = .next t ∧
        t.srcActive 1 = true))

/-- TAMPER_CFG, TAMPER_LOG and TAMPER_RELEASE (R440, R450, R451): a block that passes its checks is in force and one that fails
ends with the status of its first failing check; the log needs room for a record; the release clears the FREEZE latch, FROZEN and
TMP_EVT, so that ALARM_N is released, and is refused with CONFLICT 0x0C01 and nothing cleared while a source whose configured
response is FREEZE or stronger is active (R451). ATTEST answers 5,549 bytes that begin with the report's magic, version and
length, or the size it needs. -/
def Obligations.TrustedFirmwareCommands : Prop :=
  (∀ (s : State) (j : Nat) (x : Job),
    (s.cmdJob j 0xF601 = some x →
      (∀ e, s.tamperCfgError x.block = some e → ∃ t, exec (.tamperCfg j) s = .next t ∧ t.Ended j e.1 e.2 0 ∧
        t.vigil = s.vigil ∧ t.otp = s.otp) ∧
      (s.tamperCfgError x.block = none → ∃ t, exec (.tamperCfg j) s = .next t ∧ t.EndedWith j [] ∧
        t.vigil.tLow = (BitVec.ofNat 8 (leAt x.block 4 1)).toInt ∧ t.vigil.tHigh = (BitVec.ofNat 8 (leAt x.block 5 1)).toInt ∧
        (∀ n, srcKnown n = true → (t.tmpEntry n).resp.toNat = fld (cfgEntry x.block n) 0 2 ∧
          srcFloor n ≤ (t.tmpEntry n).resp.toNat) ∧ t.vigil.log = s.vigil.log ∧ t.vigil.nonce = s.vigil.nonce)) ∧
    (s.cmdJob j 0xF602 = some x →
      (x.outCap < 48 → ∃ t, exec (.tamperLog j) s = .next t ∧ t.Ended j 0x02 0x0003 48) ∧
      (48 ≤ x.outCap → ∃ t, exec (.tamperLog j) s = .next t ∧ t.EndedWith j (s.tamperLog (fld x.param 0 16) x.outCap) ∧
        t.vigil = s.vigil)) ∧
    (s.cmdJob j 0xF603 = some x →
      (s.freezeActive = true → ∃ t, exec (.tamperRelease j) s = .next t ∧ t.Ended j 0x0B 0x0C01 0 ∧ t.vigil = s.vigil ∧
        t.tmp = s.tmp ∧ t.glb.frozen = s.glb.frozen ∧ t.pins.alarm = s.pins.alarm) ∧
      (s.freezeActive = false → ∃ t, exec (.tamperRelease j) s = .next t ∧ t.EndedWith j [] ∧ t.vigil.freeze = false ∧
        t.glb.frozen = false ∧ t.tmp.evt = 0 ∧ t.pins.alarm = false ∧ t.vigil.log = s.vigil.log))) ∧
  (∀ (s : State) (j : Nat) (x : Job), s.cmdJob j 0xF005 = some x →
    (x.outCap < 5549 → ∃ t, exec (.attest j) s = .next t ∧ t.Ended j 0x02 3 5549) ∧
    (5549 ≤ x.outCap → ∃ t out, exec (.attest j) s = .next t ∧ t.EndedWith j out ∧ out.length = 5549 ∧
      out.take 8 = [0x41, 0x4B, 0x41, 0x54, 0x01, 0x00, 0xAD, 0x15] ∧ (out.drop 56).take 32 = padTo 32 x.block ∧
      t.kst = s.kst ∧ t.otp = s.otp))

/-! ## Images, key spool -/

/-- IMAGE_LOAD (R112, R266 to R272, R376): an unassigned type and an image above its limit are refused. Types 1 to 4 begin a drain
towards UPDATE, unless the hardware changes the mode in that cycle (BUSY 0x0104, no effect: R35); there the image is authenticated,
and one that fails a check ends with that check's status and the running version kept; then a firmware or vendor image gives its
version, and a customer image, where an integrator key is registered, is in force with its CVER. An applet image that passes its
checks takes effect at once, and one that fails leaves the image there is. -/
def Obligations.ImageCommands : Prop :=
  ∀ (s : State) (j : Nat) (x : Job) (failed : List Nat) (spoils : BitVec 2) (hw : Bool), s.cmdJob j 0xF301 = some x →
    (fld x.param 0 4 ∉ [1, 2, 3, 4, 5] → ∃ t, exec (.imageLoad j failed spoils hw) s = .next t ∧ t.Ended j 0x02 0x010B 0) ∧
    (∀ type limit, (type, limit) ∈ [(1, 8388608), (2, 262144), (3, 1048576), (4, 65536), (5, 4194304)] →
      fld x.param 0 4 = type →
      (limit < x.inLen → ∃ t, exec (.imageLoad j failed spoils hw) s = .next t ∧ t.Ended j 0x02 0x010C 0 ∧ t.mcs = s.mcs) ∧
      (x.inLen ≤ limit → type ≠ 5 → x.phase = 0 → ∃ t, exec (.imageLoad j failed spoils true) s = .next t ∧
        t.Ended j 0x0F 0x0104 0 ∧ t.mcs = s.mcs ∧ t.glb.drain = s.glb.drain) ∧
      (x.inLen ≤ limit → type ≠ 5 → x.phase = 0 → s.glb.drain = .none → s.drained = false →
        ∃ t y, exec (.imageLoad j failed spoils false) s = .next t ∧ t.glb.drain = .update ∧ t.job? j = some y ∧ y.phase = 1 ∧
          t.mcs = s.mcs) ∧
      (x.inLen ≤ limit → type ≠ 5 → x.phase = 2 →
        (∀ e, (if type = 4 then s.rtnErr x.block else s.firmwareErr type x.block) = some e →
          ∃ t, exec (.imageLoad j failed spoils hw) s = .next t ∧ t.Ended j e.1 e.2 0 ∧ t.mcs = s.mcs ∧ t.otp = s.otp ∧
            t.glb.update = false) ∧
        ((if type = 4 then s.rtnErr x.block else s.firmwareErr type x.block) = none →
          ∃ t y, exec (.imageLoad j failed spoils hw) s = .next t ∧ t.job? j = some y ∧ y.stage = .firmware ∧ y.phase = 3 ∧
            t.mcs.loading = decide (3 ≤ type)))) ∧
    (∀ type limit, (type, limit) ∈ [(1, 8388608), (2, 262144), (3, 1048576)] → fld x.param 0 4 = type → x.inLen ≤ limit →
      x.phase = 3 → ∃ t, exec (.imageLoad j failed spoils hw) s = .next t ∧ t.EndedWith j [] ∧ t.glb.update = false ∧
        (type = 1 → t.mcs.sfw = imageVersion 1 x.block) ∧ (type = 2 → t.mcs.tfwNext = some (imageVersion 2 x.block)) ∧
        (type = 3 → t.mcs.ver = imageVersion 3 x.block) ∧ t.otp = s.otp) ∧
    (fld x.param 0 4 = 4 → x.inLen ≤ 65536 → x.phase = 3 → s.ikeyDigest.isSome = true →
      ∃ t, exec (.imageLoad j failed spoils hw) s = .next t ∧ t.EndedWith j [] ∧ t.mcs.cust = some (rtnImage x.block) ∧
        t.mcs.cver = BitVec.ofNat 32 (leAt x.block 8 4) ∧ t.mcs.loading = false ∧ t.glb.update = false ∧ t.otp = s.otp) ∧
    (fld x.param 0 4 = 5 → x.inLen ≤ 4194304 →
      (∀ e, s.appletErr x.block = some e → ∃ t, exec (.imageLoad j failed spoils hw) s = .next t ∧ t.Ended j e.1 e.2 0 ∧
        t.crx = s.crx) ∧
      (s.appletErr x.block = none → ∃ t, exec (.imageLoad j failed spoils hw) s = .next t ∧ t.EndedWith j [] ∧
        t.crx.img = some (appletImage x.block) ∧ t.kst = s.kst))

/-- Events of a spool port (R52, R283, R291, R293, R297, R470). spoolPresEdge: the outputs follow the raw pin. spoolInsert: the port
begins probing. spoolRemove: the port is EMPTY, its session wiped. spoolProbeResult: the result is the port's state, and AUTO_OPEN
starts the handshake, whose first frame needs randomness. spoolLinkTimeout: the fourth in a row fails the port, an earlier one repeats
the frame. spoolCoalesceExpiry: coalesced records go out. spoolCheckpoint: a checkpoint waits on each spool that takes device records;
with none, nothing is written and SPOOL_CKPT_OFF reads 1. -/
def Obligations.SpoolPortEvents : Prop :=
  ∀ (s : State) (p : Port),
    (∀ high, s.pins.mainPower = true → (s.port p).flight = none →
      exec (.spoolPresEdge p high) s = .next (s.setPort p { s.port p with highZ := high }).settle) ∧
    (s.splUp = true → (s.port p).state = 0 → ∃ t, exec (.spoolInsert p) s = .next t ∧ (t.port p).state = 1 ∧
      (t.port p).pres = true ∧ t.spl.evt.getLsbD (8 * portNo p) = true ∧ t.port (otherPort p) = s.port (otherPort p)) ∧
    ((s.port p).state ≠ 0 → ∃ t, exec (.spoolRemove p) s = .next t ∧ (t.port p).state = 0 ∧ (t.port p).session = false ∧
      (t.port p).staged = [] ∧ (t.port p).flight = none ∧ t.spl.evt.getLsbD (1 + 8 * portNo p) = true) ∧
    (∀ r : SpoolReport, s.splUp = true → (s.port p).state = 1 → 2 ≤ r.outcome → r.outcome ≤ 5 →
      ∃ t, exec (.spoolProbeResult p r) s = .next t ∧ (t.port p).state = r.outcome ∧ (t.port p).serial = r.serial ∧
        (r.outcome = 5 → bitOf s.spl.cfg.toNat 0 = true → (t.port p).shake = 1 ∧
          (s.serves 4 = true → (t.port p).flight = some .hello))) ∧
    (∀ o, (s.port p).flight = some o → (s.port p).shake ≠ 1 → (s.port p).shake ≠ 2 →
      ((s.port p).errors < 3 → ∃ t, exec (.spoolLinkTimeout p) s = .next t ∧ (t.port p).errors = (s.port p).errors + 1 ∧
        (t.port p).out = (s.port p).out ++ [o] ∧ (t.port p).state = (s.port p).state ∧
        fld t.spl.cntErr.toNat (16 * portNo p) 16 = min (fld s.spl.cntErr.toNat (16 * portNo p) 16 + 1) 0xFFFF) ∧
      (3 ≤ (s.port p).errors → ∃ t, exec (.spoolLinkTimeout p) s = .next t ∧ (t.port p).state = 8 ∧
        (t.port p).session = false ∧ t.spl.evt.getLsbD (4 + 8 * portNo p) = true)) ∧
    (∀ w ws, (s.port p).session = true → (s.port p).coalesce = w :: ws → (s.port p).staged = [] → (s.port p).flight = none →
      (s.port p).wants = [] → (s.port p).inCommit = [] → s.serves 4 = true → ∃ t, exec (.spoolCoalesceExpiry p) s = .next t ∧
        (t.port p).coalesce = [] ∧
        (t.port p).flight = some (.write w) ∧ (t.port p).staged = ws) ∧
    (s.ticking = true → s.glb.lifeSrc ≠ 3 →
      ((∀ q, (s.port q).takesDevice = false) → ∃ t, exec .spoolCheckpoint s = .next t ∧ (11 ≤ s.glb.step → t.ckptOff = true) ∧
        t.spl = s.spl) ∧
      ((s.port p).takesDevice = true → fld s.spl.cfg.toNat 16 16 ≠ 0 → ∃ t, exec .spoolCheckpoint s = .next t ∧
        t.ckptOff = false ∧ SplWork.ckpt ∈ (t.port p).coalesce))

/-- Responses of a cartridge (R285 to R299), in frames that hold. hello: FINISH follows, or a chain that fails is INVALID, or a
signature that fails is a link error. finish: PAIR follows where it pairs, else the session opens the port; one whose commit number
is older than the primary's last is FAILED with its rollback bit. pair: the first cartridge paired is PRIMARY. status: the figures are
taken over. read: a fetched key is at hand, one whose record's tag fails is UNUSABLE, one not found ends the command that waits for
it. write: a record accepted is committed, one refused for space ends its command with SPOOL 0x0702. commit: an index reservation is
durable. list, release: re-spooling goes from the list to the first record to copy, and ends with the source erased. close: the port
is CLOSED. A frame that does not hold is a link error, and the exchange is repeated. -/
def Obligations.SpoolMessages : Prop :=
  ∀ (s : State) (p : Port) (fr : Option Bytes),
    ((s.port p).flight = some .hello → (s.port p).shake = 1 → (s.port p).frameHolds 1 fr = true →
      ∀ (a b : Bool) (payload sig : Bytes),
      (s.shakeOk p a b payload sig = (true, true) → ∃ t, exec (.hello p a b payload sig fr) s = .next t ∧
        (t.port p).shake = 2 ∧ (t.port p).flight = some .finish ∧ (t.port p).out = (s.port p).out ++ [.finish]) ∧
      ((s.shakeOk p a b payload sig).1 = false → ∃ t, exec (.hello p a b payload sig fr) s = .next t ∧ (t.port p).state = 4 ∧
        (t.port p).shake = 0 ∧ (t.port p).flight = none) ∧
      (s.shakeOk p a b payload sig = (true, false) → (s.port p).errors < 3 → s.serves 4 = true →
        ∃ t, exec (.hello p a b payload sig fr) s = .next t ∧ (t.port p).shake = 1 ∧
          (t.port p).errors = (s.port p).errors + 1 ∧ (t.port p).flight = some .hello ∧
          (t.port p).out = (s.port p).out ++ [.hello])) ∧
    (∀ r : SpoolReport, (s.port p).flight = some .finish → (s.port p).shake = 2 → (s.port p).frameHolds 2 fr = true →
      ((s.port p).pairing = true → ∃ t, exec (.finish p true r [] fr) s = .next t ∧ (t.port p).shake = 3 ∧
        (t.port p).flight = some .pair) ∧
      ((s.port p).errors < 3 → s.serves 4 = true → ∃ t, exec (.finish p false r [] fr) s = .next t ∧ (t.port p).shake = 1 ∧
        (t.port p).flight = some .hello ∧ (t.port p).errors = (s.port p).errors + 1) ∧
      ((s.port p).pairing = false → r.roleRec = 0 → ∃ t, exec (.finish p true r [] fr) s = .next t ∧ (t.port p).state = 6 ∧
        (t.port p).session = true ∧ (t.port p).role = 0 ∧ (t.port p).commitNo = r.commitNo ∧ t.vigil = s.vigil) ∧
      ((s.port p).pairing = false → r.roleRec = 1 → s.vigil.primSerial = some r.serial → s.vigil.primSwSeq = r.swSeq →
        r.commitNo < s.vigil.primCommit → ∃ t, exec (.finish p true r [] fr) s = .next t ∧ (t.port p).state = 8 ∧
          (t.port p).rb = true ∧ (t.port p).session = false ∧ t.vigil = s.vigil)) ∧
    (∀ r : SpoolReport, (s.port p).flight = some .pair → (s.port p).shake = 3 → (s.port p).frameHolds 3 fr = true →
      s.vigil.primSerial = none → s.primaryOpen = false → ∃ t, exec (.pair p .ok r fr) s = .next t ∧ (t.port p).state = 6 ∧
        (t.port p).role = 1 ∧ (t.port p).swSeq = 1 ∧ t.vigil.primSerial = some r.serial) ∧
    (∀ r : SpoolReport, (s.port p).flight = some .status → (s.port p).frameHolds (SplOut.status).cmd fr = true →
      ∃ t, exec (.status p r fr) s = .next t ∧ (t.port p).freeMib = r.freeMib ∧
        (t.port p).records = r.records ∧ (t.port p).used = r.used ∧ t.kst = s.kst) ∧
    (∀ n a b slot k, (s.port p).flight = some (.read n) → (s.port p).frameHolds (SplOut.read n).cmd fr = true →
      s.keyOfRec n = some (slot, k) → k.repl = none → s.spl.respool = none →
      (∀ m, s.openRecord (s.port p) a (s.readIdent n) b = some m → k.atHand = false →
        ∃ t y, exec (.read p n a b .ok fr) s = .next t ∧ t.key? slot = some y ∧ y.atHand = true ∧ y.uid = k.uid ∧
          y.mat = if k.mat ≠ [] then k.mat else m.drop 0x70) ∧
      (s.openRecord (s.port p) a (s.readIdent n) b = none → (∀ e ∈ s.kst.keys, e.1 = slot → e.2 = k) →
        ∃ t y, exec (.read p n a b .ok fr) s = .next t ∧ t.key? slot = some y ∧ y.unusable = true) ∧
      (∀ j x, s.jobsWhere (fun x => x.awaits slot k.uid) = [j] → s.job? j = some x → x.stage = .firmware →
        ∃ t, exec (.read p n a b .notFound fr) s = .next t ∧ t.Ended j 0x0A 0x0141 0)) ∧
    (∀ w, (s.port p).flight = some (.write w) → (s.port p).session = true → (s.port p).staged = [] → (s.port p).wants = [] →
      ((s.port p).frameHolds (SplOut.write w).cmd fr = true →
        (∃ t, exec (.write p .ok fr) s = .next t ∧ (t.port p).inCommit = (s.port p).inCommit ++ [w] ∧
          (t.port p).flight = some (.commit ((s.port p).inCommit ++ [w]))) ∧
        (∀ slot j x, w = .key slot j → s.job? j = some x → x.stage = .firmware → ∃ t, exec (.write p .full fr) s = .next t ∧
          t.Ended j 0x0A 0x0702 0 ∧ t.key? slot = none)) ∧
      (∀ a, (s.port p).frameHolds (SplOut.write w).cmd fr = false → (s.port p).errors < 3 → (s.port p).shake ≠ 1 →
        (s.port p).shake ≠ 2 → ∃ t, exec (.write p a fr) s = .next t ∧ (t.port p).flight = some (.write w) ∧
          (t.port p).errors = (s.port p).errors + 1 ∧ (t.port p).out = (s.port p).out ++ [.write w])) ∧
    (∀ slot ceil k n, (s.port p).flight = some (.commit [.index slot ceil]) → (s.port p).staged = [] → s.spl.respool = none →
      (s.port p).frameHolds (SplOut.commit [.index slot ceil]).cmd fr = true →
      (s.port (otherPort p)).works = [] → s.key? slot = some k → k.resvTo = some ceil →
      (∃ t y, exec (.commit p .ok n fr) s = .next t ∧
        t.key? slot = some y ∧ y.ceil = ceil ∧ y.resvTo = none ∧ (t.port p).commitNo = n) ∧
      ∃ t y, exec (.commit p .full n fr) s = .next t ∧ t.key? slot = some y ∧ y.ceil = k.ceil ∧ y.resvTo = none) ∧
    (∀ r rs cursor, s.spl.respool = some r → p = r.src → r.step = 0 → (s.port p).flight = some .list →
      (s.port p).frameHolds (SplOut.list).cmd fr = true →
      (∀ c l, cursor = 0 → (r.todo ++ rs).dropWhile (s.skipsCopy r) = c :: l → ∃ t, exec (.list p rs cursor fr) s = .next t ∧
        t.spl.respool = some { r with step := 1, cursor := 0, todo := c :: l } ∧
        (.read c.recno ∈ (t.port p).wants ∨ (t.port p).flight = some (.read c.recno))) ∧
      (cursor ≠ 0 → ∃ t, exec (.list p rs cursor fr) s = .next t ∧
        t.spl.respool = some { r with step := 0, cursor := cursor, todo := r.todo ++ rs } ∧
        (.list ∈ (t.port p).wants ∨ (t.port p).flight = some .list))) ∧
    (∀ r x, s.spl.respool = some r → p = r.src → r.step = 3 → (s.port p).flight = some .release → s.job? r.job = some x →
      (s.port p).frameHolds 9 fr = true →
      ∃ t, exec (.release p .ok fr) s = .next t ∧ (t.port p).state = 2 ∧ t.spl.respool = none ∧ t.EndedWith r.job [] ∧
        t.spl.evt.getLsbD 16 = true) ∧
    (∀ r, (s.port p).state = 7 → (s.port p).flight = some .close → (s.port p).frameHolds 10 fr = true →
      ∃ t, exec (.close p r fr) s = .next t ∧ (t.port p).state = 5 ∧ (t.port p).session = false ∧ (t.port p).flight = none ∧
        t.port (otherPort p) = s.port (otherPort p))

/-- The manager's spool commands (R113, R284, R287, R298, R300). SPOOL_STATUS answers the status block. SPOOL_PAIR starts the
handshake of an unpaired cartridge and is refused with none there, a foreign or invalid one, or one paired. SPOOL_OPEN starts that of a
closed port, probes a failed one and waits for one that closes. SPOOL_CLOSE begins the close of an open port and is refused
elsewhere. SPOOL_RESPOOL is refused where the roles of both ports allow nothing, makes a sole fresh spool PRIMARY in place, and begins
to list the primary's records for a fresh target with room. -/
def Obligations.SpoolCommands : Prop :=
  ∀ (s : State) (j : Nat) (x : Job),
    (s.cmdJob j 0xF401 = some x → (s.splStatus x.port).length ≤ x.outCap →
      ∃ t, exec (.spoolStatus j) s = .next t ∧ t.EndedWith j (s.splStatus x.port) ∧ t.spl = s.spl) ∧
    (s.cmdJob j 0xF402 = some x → (s.port x.port).job ≠ some j →
      ((s.port x.port).state = 0 → ∃ t, exec (.spoolPair j) s = .next t ∧ t.Ended j 0x0A 0x0101 0) ∧
      ((s.port x.port).state = 3 ∨ (s.port x.port).state = 4 → ∃ t, exec (.spoolPair j) s = .next t ∧
        t.Ended j 0x0A 0x0102 0) ∧
      ((s.port x.port).state = 2 → (s.port x.port).shake = 0 → ∃ t, exec (.spoolPair j) s = .next t ∧
        (t.port x.port).shake = 1 ∧ (t.port x.port).pairing = true ∧ (t.port x.port).job = some j ∧
        (s.serves 4 = true → (t.port x.port).flight = some .hello)) ∧
      (5 ≤ (s.port x.port).state → ∃ t, exec (.spoolPair j) s = .next t ∧ t.Ended j 0x0B 0x0107 0 ∧ t.spl = s.spl)) ∧
    (s.cmdJob j 0xF403 = some x → (s.port x.port).job ≠ some j →
      ((s.port x.port).state = 0 → ∃ t, exec (.spoolOpen j) s = .next t ∧ t.Ended j 0x0A 0x0101 0) ∧
      ((s.port x.port).state = 5 → (s.port x.port).shake = 0 → ∃ t, exec (.spoolOpen j) s = .next t ∧
        (t.port x.port).shake = 1 ∧ (t.port x.port).pairing = false ∧ (t.port x.port).job = some j) ∧
      ((s.port x.port).state = 7 → ∃ t y, exec (.spoolOpen j) s = .next t ∧ t.job? j = some y ∧ y.stage = .firmware ∧
        y.phase = 1 ∧ t.spl = s.spl) ∧
      ((s.port x.port).state = 8 → ∃ t, exec (.spoolOpen j) s = .next t ∧ (t.port x.port).state = 1 ∧
        (t.port x.port).job = some j)) ∧
    (s.cmdJob j 0xF404 = some x →
      ((s.port x.port).state = 6 → ∃ t, exec (.spoolClose j) s = .next t ∧ t.EndedWith j [] ∧ (t.port x.port).state = 7) ∧
      ((s.port x.port).state ≠ 6 → ∃ t, exec (.spoolClose j) s = .next t ∧ t.Ended j 0x0B 0x0107 0 ∧ t.spl = s.spl)) ∧
    (s.cmdJob j 0xF405 = some x → s.spl.respool = none →
      (respoolKind (s.port x.port) (s.port (otherPort x.port)) = none → ∃ t, exec (.spoolRespool j) s = .next t ∧
        t.Ended j 0x0B 0x0107 0 ∧ t.spl = s.spl) ∧
      ((s.port x.port).state = 6 → (s.port x.port).role = 0 → (s.port (otherPort x.port)).state = 0 →
        ∃ t, exec (.spoolRespool j) s = .next t ∧ t.EndedWith j [] ∧ (t.port x.port).role = 1 ∧
          t.vigil.primSerial = some (s.port x.port).serial) ∧
      ((s.port x.port).state = 6 → (s.port x.port).role = 1 → (s.port (otherPort x.port)).state = 6 →
        (s.port (otherPort x.port)).role = 0 → (s.port (otherPort x.port)).ro = false →
        2048 ≤ (s.port x.port).freeMib + (s.port (otherPort x.port)).freeMib →
        ∃ t r, exec (.spoolRespool j) s = .next t ∧ t.spl.respool = some r ∧ r.job = j ∧ r.src = x.port ∧ r.step = 0 ∧
          (t.port x.port).role = 3 ∧ (t.port (otherPort x.port)).role = 2 ∧
          (SplOut.list ∈ (t.port x.port).wants ∨ (t.port x.port).flight = some .list)))

/-! ## Ply link, shuttle instances, side-band pins -/

/-- The ply link (R13, R329, R468, R484). plyTraining: an enabled port with a clock and lanes comes up with its event and the ordinal
of PLY_CFG; a disabled one, one without a clock and one whose neighbour repeats an ordinal say so in their state. evPly: a firmware
message on a session joins the inbox, and with no session a message has no effect. plyHeartbeatMiss is an event. plyLinkDown: the port
is down, and SESSION_LOST is set too where it had a session. -/
def Obligations.PlyCommands : Prop :=
  ∀ (s : State) (p : Nat), s.live = true → p < 2 →
    ((s.plyPort p).state ≠ 2 →
      (∀ rc nb rg lanes se, s.plyEnabled p = false →
        exec (.plyTraining p rc nb rg lanes se) s = .next (s.setPlyPort p { state := 5 }).settle) ∧
      (∀ nb rg lanes se, s.plyEnabled p = true →
        exec (.plyTraining p false nb rg lanes se) s = .next (s.setPlyPort p { state := 4 }).settle) ∧
      (∀ nb rg lanes se, s.plyEnabled p = true → nb = fld s.ply.cfg.toNat 2 3 ∨ rg.contains nb = true →
        ∃ t, exec (.plyTraining p true nb rg lanes se) s = .next t ∧ (t.plyPort p).state = 3 ∧
          t.ply.evt.getLsbD (8 * p + 3) = true) ∧
      (∀ nb rg lanes se, s.plyEnabled p = true → nb ≠ fld s.ply.cfg.toNat 2 3 → rg.contains nb = false → lanes ≠ 0 →
        ∃ t, exec (.plyTraining p true nb rg lanes se) s = .next t ∧ t.ply.ord = fld s.ply.cfg.toNat 2 3 ∧
          t.plyPort p = { state := 2, lanes := lanes, session := se, partner := some nb } ∧
          t.ply.evt.getLsbD (8 * p) = true)) ∧
    ((s.plyPort p).state = 2 →
      (∀ k ws, (s.plyPort p).session = true → ∃ t, exec (.evPly p (.firmware k ws)) s = .next t ∧
        t.ply = { s.ply with inbox := s.ply.inbox ++ [(k, ws)] }) ∧
      (∀ m, (s.plyPort p).session = false → exec (.evPly p m) s = .next s.settle) ∧
      (∃ t, exec (.plyHeartbeatMiss p) s = .next t ∧ t.ply.evt.getLsbD (8 * p + 4) = true ∧ t.plyPort p = s.plyPort p) ∧
      (∃ t, exec (.plyLinkDown p) s = .next t ∧ (t.plyPort p).state = 0 ∧ (t.plyPort p).session = false ∧
        t.ply.evt.getLsbD (8 * p + 1) = true ∧ ((s.plyPort p).session = true → t.ply.evt.getLsbD (8 * p + 2) = true)))

/-- The shuttle instances (R335, R336, R345 to R351). shuttleRequest: a request joins those that wait, with its job's deadline and class
(R74, R347). shuttleRelease: the lane is free, or its suspended holder goes on; too early, it counts as stale. holdCut: a holder of
HOLD cycles is cut and waits again. starvation: a context that has waited SHT_STARVE cycles is flagged once. emergencyPreempt: the
emergency requester takes the grant of the lane named, or of the first held, and suspends its holder. firmwareTimerExpiry: the timer
leaves list 6 and makes a token, and a timer asked for then joins list 6 while its reserve has room. -/
def Obligations.ShuttleCommands : Prop :=
  ∀ s : State, s.live = true →
    (∀ i r ctx now (lst bound job : Option Nat), s.shtMay i r = true → (s.shuttle i).waiting = [] →
      (∀ e ∈ (s.shuttle i).grants, e.2.suspends r ctx = false) →
      ∃ t q, exec (.shuttleRequest i r ctx now lst bound job) s = .next t ∧ (t.shuttle i).waiting = [q] ∧ q.slot = r ∧
        q.ctx = ctx ∧ q.since = now ∧ q.raised = now ∧
        q.cls = ((if shtLanes i ≠ 1 && r < 4 then some ctx else job).bind s.job?).map (·.cls) ∧
        q.lst = earlierLst lst ((((if shtLanes i ≠ 1 && r < 4 then some ctx else job).bind s.job?).bind (·.deadline)).map
          (· * shtMhz i)) ∧
        (t.shuttle i).grants = (s.shuttle i).grants) ∧
    (∀ i l now g, i < 8 → (s.shuttle i).waiting = [] → (s.shuttle i).grants.get? l = some g →
      (g.susp = none → ∃ t, exec (.shuttleRelease i l now) s = .next t ∧ (t.shuttle i).grants.get? l = none ∧
        (t.shuttle i).cntStale = if now < g.since then satInc (s.shuttle i).cntStale else (s.shuttle i).cntStale) ∧
      (∀ h held, g.susp = some (h, held) → g.since ≤ now → ∃ t, exec (.shuttleRelease i l now) s = .next t ∧
        (t.shuttle i).grants.get? l =
          some { slot := h.slot, ctx := h.ctx, lst := h.lst, raised := h.raised, since := now + 1 - held, cls := h.cls }) ∧
      (g.susp = none → s.shtHold i g.slot ≠ 0 → g.since + s.shtHold i g.slot ≤ now + 1 →
        ∃ t q, exec (.holdCut i l now) s = .next t ∧ (t.shuttle i).grants.get? l = none ∧ (t.shuttle i).waiting = [q] ∧
          q.slot = g.slot ∧ q.ctx = g.ctx ∧ (t.shuttle i).evt.getLsbD g.slot = decide (g.slot < 32)) ∧
      (now + 1 < g.since + s.shtHold i g.slot → exec (.holdCut i l now) s = .next s.settle)) ∧
    (∀ i q now, i < 8 → q.slot < 16 → (s.shuttle i).waiting = [q] → (s.shtFree i = [] ∨ now ≤ q.since) → q.starved = false →
      (q.since + max 1 (s.shuttle i).starve.toNat ≤ now → ∃ t, exec (.starvation i q.slot q.ctx now) s = .next t ∧
        (t.shuttle i).waiting = [{ q with starved := true }] ∧ (t.shuttle i).evt.getLsbD (16 + q.slot) = true) ∧
      (now < q.since + max 1 (s.shuttle i).starve.toNat → exec (.starvation i q.slot q.ctx now) s = .next s.settle)) ∧
    (∀ i q g now (lane : Option Nat), i < 8 → (s.shuttle i).waiting = [q] → q.slot = shtEmerg i → s.shtFree i = [] →
      (s.shuttle i).grants.find? (fun e => !e.2.emerg && lane.all (fun l => l = e.1)) = some g →
      ∃ t h, exec (.emergencyPreempt i now lane) s = .next t ∧ (t.shuttle i).waiting = [] ∧ (t.shuttle i).grants.get? g.1 = some h ∧
        h.emerg = true ∧ h.slot = shtEmerg i ∧ h.since = now + 1 ∧
        (∃ r, h.susp = some (r, now + 1 - g.2.since) ∧ r.slot = g.2.slot ∧ r.ctx = g.2.ctx ∧ r.lst = g.2.lst ∧
          r.cls = g.2.cls) ∧
        (t.shuttle i).cntPreempt = satInc (s.shuttle i).cntPreempt) ∧
    (∀ n, (∃ t, exec (.firmwareTimerExpiry n) s = .next t ∧ t.hdl.fwTimers = s.hdl.fwTimers ++ [n] ∧
      (∀ e ∈ t.dl 6, e.cmd ≠ .firmwareTimerExpiry n)) ∧
      ∀ k d, (s.dl 6).length < dlReserve 6 → ∃ t, exec (.firmwareTimerExpiry n [(k, d)]) s = .next t ∧
        t.hdl.fwTimers = s.hdl.fwTimers ++ [n] ∧ ∃ e ∈ t.dl 6, e.cmd = .firmwareTimerExpiry k ∧ e.at_ = s.now + d)

/-- The side-band pins and the host's other messages (R465, R471, R472, R485): each SMBus command answers its bytes with no effect
but on the bus; the test port takes an instruction, IDCODE reads 0x1952_86F3, and the boundary instructions act as BYPASS while
PERST_N is high; debug accesses halt an open core; an invalidation joins at most 32; DOE sets the streams; an uncorrectable word
of a core memory becomes POISON. -/
def Obligations.SideBandCommands : Prop :=
  ∀ s : State,
    (s.smbAnswers = true → ∀ c v, (c, v) ∈ [(Instr.ident, leBytes 8 (glbId + glbStep * 2 ^ 32)),
        (.state, leBytes 4 (s.glb.mode.toNat + s.lcs.state.toNat * 2 ^ 8 + s.glb.haltCause.toNat * 2 ^ 16)),
        (.temp, leBytes 4 (s.fromT2 (s.readTmp 0x20))),
        (.power, leBytes 4 (s.fromT2 (s.cap.pkgDw + s.lowestFreq * 2 ^ 16 + b2n s.cap.unmet * 2 ^ 24 + b2n s.cap.gated * 2 ^ 25))),
        (.alert, leBytes 4 (s.fromT2 s.tmp.evt.toNat)), (.cell, leBytes 4 (s.fromT2 (s.readTmp 0x40)))] →
      exec c s = .next ({ s with smb := { s.smb with data := v, driving := true } } : State).settle) ∧
    exec .smbusTimeout s = .next ({ s with smb := { s.smb with driving := false } } : State).settle ∧
    (∀ c v, (c, v) ∈ [(Instr.extest, (0x00 : Byte)), (.extestPulse, 0x03), (.extestTrain, 0x04)] →
      ∃ t, exec c s = .next t ∧ t.tap.ir = v ∧ t.tapActs = (if s.pins.perst then v else 0xFF) ∧ t.jobs = s.jobs) ∧
    (∃ t, exec .samplePreload s = .next t ∧ t.tap.ir = 0x02 ∧ t.tapActs = 0x02 ∧ t.jobs = s.jobs) ∧
    (∃ t, exec .idcode s = .next t ∧ t.tap.ir = 0x01 ∧ (s.pins.mainPower = true → t.tap.dr = 0x195286F3) ∧ t.jobs = s.jobs) ∧
    (∃ t, exec .bypass s = .next t ∧ t.tap.ir = 0xFF ∧ (s.pins.mainPower = true → t.tap.dr = 0) ∧ t.jobs = s.jobs) ∧
    exec .tapReset s = .next ({ s with tap := { s.tap with ir := 0x01 } } : State).settle ∧
    (∀ n, s.glb.debug = true → (n < 4 ∧ s.tap.crxG = true ∨ n = 4 ∧ s.tap.crxT = true) →
      exec (.jtagDebugAccess n .halt) s = .next (s.setCore n { s.core n with dbgHalt := true, dbgStep := false }).settle) ∧
    (∀ n a, s.glb.debug = false → exec (.jtagDebugAccess n a) s = .next s.settle) ∧
    (s.barsOpen = true →
      exec (.atsInvalidation false) s = .next
        ({ s with host := { s.host with atsInval := min 32 (s.host.atsInval + 1) } } : State).settle ∧
      exec (.atsInvalidation true) s = .next
        ({ s with host := { s.host with atsInval := s.host.atsInval - 1 } } : State).settle ∧
      ∀ l v, exec (.doeRequest l v) s = .next ({ s with host := { s.host with ide := l, selIde := v } } : State).settle) ∧
    (∀ n a w, s.awake = true → n < 5 → cLocate n a = some w →
      exec (.coreMemoryUncorrectable n a) s = .next (s.setCword w poisonWord).settle)

/-! ## Operations of chapters 6 to 8 -/

/-- Post-quantum, hybrid and composite operations (R167 to R197). ML-KEM, HQC, Classic McEliece and hybrid encapsulations and
decapsulations end OK with a result of their length and the cycles of their table, and nothing else of the machine changes. ML-DSA,
SLH-DSA, HSS, XMSS, XMSS^MT and composite signatures end OK with a signature of their length; 1,000 rejected attempts are INTEGRITY
0x0203; a fan-out goes on until an attempt has won. The deterministic Ed25519 half of a composite signature is a function of key and
message alone (R196). The verifications end OK or with VERIFY_FAIL and the detail of what failed. -/
def Obligations.PostQuantumOperations : Prop :=
  ∀ (s : State) (j : Nat) (x : Job),
    (∀ c fam op p len, (c, fam, op, p, len) ∈
        [(Instr.mlKemEncapsulate j, 0x11, 1, 1, 800), (.mlKemEncapsulate j, 0x11, 1, 2, 1120),
         (.mlKemEncapsulate j, 0x11, 1, 3, 1600), (.mlKemDecapsulate j, 0x11, 2, x.opParam, 32),
         (.hqcEncapsulate j, 0x12, 1, 1, 4497), (.hqcEncapsulate j, 0x12, 1, 2, 9042), (.hqcEncapsulate j, 0x12, 1, 3, 14485),
         (.hqcDecapsulate j, 0x12, 2, x.opParam, 64),
         (.mcelieceEncapsulate j, 0x13, 1, x.opParam,
           [128, 128, 188, 188, 240, 240, 226, 226, 240, 240].getD x.opParam 32),
         (.mcelieceDecapsulate j, 0x13, 2, x.opParam, 32),
         (.hybridEncapsulate j, 0x81, 1, 1, if fld x.param 2 2 = 1 then 1184 else 1152),
         (.hybridEncapsulate j, 0x81, 1, 2, if fld x.param 2 2 = 1 then 1217 else 1185),
         (.hybridDecapsulate j, 0x81, 2, x.opParam, if fld x.param 2 2 = 1 then 64 else 32)] →
      s.running j fam op = some x → x.opParam = p →
      ∃ r, exec c s = .next (s.ends j 0 0 x.figure r).settle ∧ r.length = len) ∧
    (s.running j 0x22 1 = some x → ∀ r, r = algoBytes x.opcode x.slhIns (slhSig x.opParam) →
      (x.spns.length ≤ 1 → exec (.slhDsaSign j) s = .next (s.ends j 0 0 x.figure r).settle) ∧
      ∃ t y, exec (.slhDsaSign j) s = .next t ∧ t.job? j = some y ∧ y.stage = .ended ∧ y.major = 0 ∧ y.result = r ∧
        r.length = slhSig x.opParam ∧ t.kst = s.kst) ∧
    (s.running j 0x21 1 = some x → x.fan = [] →
      (acceptedAttempt x < 1000 → exec (.mlDsaSign j) s = .next
        (s.ends j 0 0 (mldsaCycles x 1 (acceptedAttempt x)) (mldsaSign x.opParam x.mldsaIns)).settle ∧
        (mldsaSign x.opParam x.mldsaIns).length = mldsaSig x.opParam) ∧
      (1000 ≤ acceptedAttempt x → exec (.mlDsaSign j) s = .next (s.ends j 0x09 0x0203 (mldsaSpent x 1) []).settle)) ∧
    (s.running j 0x21 1 = some x → x.fan ≠ [] → x.winner.isSome = true → exec (.mlDsaSign j) s = .next
        (s.ends j 0 0 (mldsaCycles x x.fan.length (acceptedAttempt x)) (mldsaSign x.opParam x.mldsaIns)).settle) ∧
    (s.running j 0x82 1 = some x → x.fan = [] →
      (acceptedAttempt x < 1000 → ∃ t, exec (.compositeSign j) s = .next t ∧ t.Computed j 0 0 3373 ∧ t.kst = s.kst) ∧
      (1000 ≤ acceptedAttempt x → ∃ t, exec (.compositeSign j) s = .next t ∧ t.Computed j 0x09 0x0203 0 ∧ t.kst = s.kst)) ∧
    (s.running j 0x82 1 = some x → x.fan = [] → x.opParam = 2 → acceptedAttempt x < 1000 → ∃ t y,
      exec (.compositeSign j) s = .next t ∧ t.job? j = some y ∧
        y.result.drop 3309 = edSign 0x67 (x.mat.drop 4064) (edIns 0x67 0 [] x.compositeMessage)) ∧
    (∀ c fam, (c, fam) ∈ [(Instr.mlDsaSign j, 0x21), (.compositeSign j, 0x82)] → s.running j fam 1 = some x →
      x.fan ≠ [] → x.winner = none → x.nextAttempt < 1000 → exec c s = .next s.settle) ∧
    (∀ c fam slot k i, (c, fam) ∈ [(Instr.hssSign j, 0x23), (.xmssSign j, 0x24), (.xmssMtSign j, 0x25)] →
      s.running j fam 1 = some x → x.key = some (slot, k) → x.index = some i →
      ∃ n r, exec c s = .next (s.ends j 0 0 n r).settle ∧ r.length = statefulLen k ∧
        r = statefulSig k i [x.mat, x.inp, x.rnd]) ∧
    (∀ c fam n bad ok, (c, fam, n, bad, ok) ∈
        [(Instr.mlDsaVerify j, 0x21, 0x0202, !mldsaHintOk x.opParam (x.auxData.take (mldsaSig x.opParam)),
            mldsaVerify x.opParam (x.pubAt (mldsaSig x.opParam)) (x.mu (x.pubAt (mldsaSig x.opParam)))
              (x.auxData.take (mldsaSig x.opParam))),
         (.slhDsaVerify j, 0x22, 0x0202, false, Config.accepts x.opcode [x.pubAt (slhSig x.opParam), x.message,
              x.auxData.take (slhSig x.opParam)])] →
      s.running j fam 2 = some x →
      (bad = true → exec c s = .next (s.ends j 0x01 n x.figure []).settle) ∧
      (bad = false → ok = false → exec c s = .next (s.ends j 0x01 0x0201 x.figure []).settle) ∧
      (bad = false → ok = true → exec c s = .next (s.ends j 0 0 x.figure []).settle)) ∧
    (∀ c fam pub, (c, fam) ∈ [(Instr.hssVerify j, 0x23), (.xmssVerify j, 0x24), (.xmssMtVerify j, 0x25)] →
      pub = (if isInline x then x.auxData.drop x.param else x.ownPub) →
      s.running j fam 2 = some x →
      (statefulShape x pub (x.auxData.take x.param) = false →
        exec c s = .next (s.ends j 0x01 0x0202 x.figure []).settle) ∧
      (statefulShape x pub (x.auxData.take x.param) = true →
        Config.accepts x.opcode [pub, x.inp, x.auxData.take x.param] = false →
        exec c s = .next (s.ends j 0x01 0x0201 x.figure []).settle) ∧
      (statefulShape x pub (x.auxData.take x.param) = true →
        Config.accepts x.opcode [pub, x.inp, x.auxData.take x.param] = true →
        exec c s = .next (s.ends j 0 0 x.figure []).settle)) ∧
    (∀ pq cl, s.running j 0x82 2 = some x →
      pq = (mldsaHintOk 2 (x.auxData.take 3309) && mldsaVerify 2 ((x.pubAt 3373).take 1952)
        (muOf ((x.pubAt 3373).take 1952) (formatted 0 [] x.compositeMessage)) (x.auxData.take 3309)) →
      cl = x.classicalOk ((x.pubAt 3373).drop 1952) (slice x.auxData 3309 64) →
      (pq = true → cl = true → exec (.compositeVerify j) s = .next (s.ends j 0 0 x.figure []).settle) ∧
      (pq = false → cl = true → exec (.compositeVerify j) s = .next (s.ends j 0x01 0x0203 x.figure []).settle) ∧
      (pq = true → cl = false → exec (.compositeVerify j) s = .next (s.ends j 0x01 0x0204 x.figure []).settle) ∧
      (pq = false → cl = false → exec (.compositeVerify j) s = .next (s.ends j 0x01 0x0205 x.figure []).settle))

/-- RSA, agreements, curve signatures and the raw arithmetic (R209 to R217, Tables 7.3 to 7.9). RSA_ENCRYPT, RSA_SIGN, raw RSA_DECRYPT,
the ECDH, X25519/X448 and FFDHE agreements, ECDSA and EdDSA signatures end OK with a result of their length; raw encryption is m^e mod
n; a padded decryption of 0, 1 or n - 1 is INPUT 0x0306. The RSA, ECDSA and EdDSA verifications end OK or with VERIFY_FAIL 0x0301.
MODEXP, MODMUL and MODINV answer the number that arithmetic gives, a number without an inverse is INPUT 0x030A; ECADD answers the sum
of two points, ECMUL by 1 the point and by 0 infinity. -/
def Obligations.BigNumberOperations : Prop :=
  ∀ (s : State) (j : Nat) (x : Job),
    (∀ c fam op p len, (c, fam, op, p, len) ∈
        [(Instr.rsaEncrypt j, 0x18, 1, x.opParam, rsaBytes x.rsaKey), (.rsaDecrypt j, 0x18, 2, 0, rsaBytes x.rsaKey),
         (.rsaSign j, 0x28, 1, x.opParam, rsaBytes x.rsaKey),
         (.ecdhStored j, 0x19, 1, 1, 32), (.ecdhStored j, 0x19, 1, 2, 48), (.ecdhStored j, 0x19, 1, 3, 66),
         (.ecdhEphemeral j, 0x19, 2, 1, 97), (.ecdhEphemeral j, 0x19, 2, 2, 145), (.ecdhEphemeral j, 0x19, 2, 3, 199),
         (.x25519X448Stored j, 0x1A, 1, 1, 32), (.x25519X448Stored j, 0x1A, 1, 2, 56),
         (.x25519X448Ephemeral j, 0x1A, 2, 1, 64), (.x25519X448Ephemeral j, 0x1A, 2, 2, 112),
         (.ffdheStored j, 0x1B, 1, x.opParam, [256, 384, 512, 768, 1024].getD (x.opParam - 1) 0),
         (.ffdheEphemeral j, 0x1B, 2, x.opParam, 2 * [256, 384, 512, 768, 1024].getD (x.opParam - 1) 0),
         (.eddsaSign j, 0x2A, 1, 1, 64), (.eddsaSign j, 0x2A, 1, 2, 114)] →
      s.running j fam op = some x → x.opParam = p →
      ∃ r, exec c s = .next (s.ends j 0 0 x.figure r).settle ∧ r.length = len) ∧
    (s.running j 0x18 1 = some x → x.opParam = 0 → rsaN x.rsaKey < 256 ^ rsaBytes x.rsaKey → 0 < rsaN x.rsaKey →
      ∃ r, exec (.rsaEncrypt j) s = .next (s.ends j 0 0 x.figure r).settle ∧
        ofBe r = ofBe x.inp ^ rsaE x.rsaKey % rsaN x.rsaKey) ∧
    (s.running j 0x18 2 = some x → x.opParam ≠ 0 → ofBe x.inp < 2 ∨ ofBe x.inp + 1 = rsaN x.rsaKey →
      exec (.rsaDecrypt j) s = .next (s.ends j 0x02 0x0306 x.figure []).settle) ∧
    (s.running j 0x18 2 = some x → x.opParam ≠ 0 → 2 ≤ ofBe x.inp → ofBe x.inp + 1 ≠ rsaN x.rsaKey →
      Config.accepts x.opcode [x.mat, x.inp, x.label, leBytes 1 (phOf x)] = true →
      ∃ r, exec (.rsaDecrypt j) s = .next (s.ends j 0 0 x.figure r).settle ∧ r.length ≤ rsaMax x (rsaBytes x.rsaKey)) ∧
    (s.running j 0x28 2 = some x →
      (ofBe (x.auxData.take (rsaBytes x.rsaKey)) = 0 →
        exec (.rsaVerify j) s = .next (s.ends j 0x01 0x0301 x.figure []).settle) ∧
      (ofBe (x.auxData.take (rsaBytes x.rsaKey)) ≠ 0 → Config.accepts x.opcode [leBytes 1 (phOf x),
          leBytes 1 (ctxLen x), leBytes 4 (rsaBytes x.rsaKey), x.rsaMessage,
          rsaPublicOp x.rsaKey (x.auxData.take (rsaBytes x.rsaKey))] = true →
        exec (.rsaVerify j) s = .next (s.ends j 0 0 x.figure []).settle) ∧
      (Config.accepts x.opcode [leBytes 1 (phOf x), leBytes 1 (ctxLen x), leBytes 4 (rsaBytes x.rsaKey), x.rsaMessage,
          rsaPublicOp x.rsaKey (x.auxData.take (rsaBytes x.rsaKey))] = false →
        exec (.rsaVerify j) s = .next (s.ends j 0x01 0x0301 x.figure []).settle)) ∧
    (∀ p len, (p, len) ∈ [(1, 64), (2, 96), (3, 132)] → x.opParam = p → s.running j 0x29 1 = some x →
      ∃ t, exec (.ecdsaSign j) s = .next t ∧ t.Computed j 0 0 len ∧ t.kst = s.kst ∧ t.rings = s.rings) ∧
    (∀ c fam n pub ok, (c, fam, pub, ok) ∈
        [(Instr.ecdsaVerify j, 0x29, if isInline x then x.auxData.drop n else x.ownPub,
            ecdsaVerify (0x60 + x.opParam) pub x.digest (x.auxData.take n)),
         (.eddsaVerify j, 0x2A, if isInline x then slice x.auxData n (x.auxLen - n - ctxLen x) else x.ownPub,
            edVerify (0x66 + x.opParam) pub (x.auxData.take n) (edIns (0x66 + x.opParam) (modeOf x) x.ctx x.inp))] →
      n = (if fam = 0x29 then 2 * fieldLen (0x60 + x.opParam) else edSig x.opParam) → s.running j fam 2 = some x →
      (ok = true → exec c s = .next (s.ends j 0 0 x.figure []).settle) ∧
      (ok = false → exec c s = .next (s.ends j 0x01 0x0301 x.figure []).settle)) ∧
    (1 < rawOp x 0 →
      (s.running j 0x71 1 = some x → ∃ r, exec (.modexp j) s = .next (s.ends j 0 0 x.figure r).settle ∧
        r.length = 8 * rawL x ∧ ofLe r = rawOp x 1 ^ rawOp x 2 % rawOp x 0) ∧
      (s.running j 0x71 2 = some x → ∃ r, exec (.modmul j) s = .next (s.ends j 0 0 x.figure r).settle ∧
        r.length = 8 * rawL x ∧ ofLe r = rawOp x 1 * rawOp x 2 % rawOp x 0) ∧
      (s.running j 0x71 3 = some x →
        (Nat.Coprime (rawOp x 1) (rawOp x 0) → ∃ r, exec (.modinv j) s = .next (s.ends j 0 0 x.figure r).settle ∧
          r.length = 8 * rawL x ∧ ofLe r < rawOp x 0 ∧ rawOp x 1 * ofLe r % rawOp x 0 = 1) ∧
        (¬Nat.Coprime (rawOp x 1) (rawOp x 0) →
          exec (.modinv j) s = .next (s.ends j 0x02 0x030A x.figure []).settle))) ∧
    (s.running j 0x71 4 = some x → knownComposite (64 * rawL x) (rawOp x 0) = false →
      ∀ v, ptAdd (64 * rawL x) (rawOp x 0) (rawOp x 1) (rawPtVal (rawPt x (24 * rawL x)))
          (rawPtVal (rawPt x (40 * rawL x + 8))) = some v →
        exec (.ecadd j) s = .next (s.ends j 0 0 x.figure
          (leBytes (8 * rawL x) v.1 ++ leBytes (8 * rawL x) v.2 ++ leBytes 8 0)).settle) ∧
    (s.running j 0x71 5 = some x → knownComposite (64 * rawL x) (rawOp x 0) = false →
      (∀ v, rawPtVal (rawPt x (24 * rawL x)) = some v → leAt x.inp (40 * rawL x + 8) (8 * rawL x) = 1 → 0 < rawL x →
        exec (.ecmul j) s = .next (s.ends j 0 0 x.figure
          (leBytes (8 * rawL x) v.1 ++ leBytes (8 * rawL x) v.2 ++ leBytes 8 0)).settle) ∧
      (leAt x.inp (40 * rawL x + 8) (8 * rawL x) = 0 → ∃ t y, exec (.ecmul j) s = .next t ∧ t.job? j = some y ∧
        y.stage = .ended ∧ y.major = 0 ∧ y.result.length = 16 * rawL x + 8 ∧ y.result.drop (16 * rawL x) = leBytes 8 1))

/-- Hashes, MACs and ciphers (R218 to R222, R490, Table 7.10). HASH and the generated HMAC, KMAC and AES-CMAC tags have the length
asked for; a tag given verifies exactly where it is the one the job computes. AES and TDEA ECB and CBC answer as many bytes as they
take, and with CHAIN a CBC block more; CTR decrypts what it encrypted under the same key and counter; XTS, KW and KWP answer their
length. GCM and ChaCha20-Poly1305 encryptions answer ciphertext and tag, with a generated IV before them, of which a key has 2^32; a
decryption, or AES-KW unwrapping, whose check fails overwrites its plaintext with zeros and ends with VERIFY_FAIL 0x0303. -/
def Obligations.SymmetricOperations : Prop :=
  ∀ (s : State) (j : Nat) (x : Job),
    (s.running j 0x31 1 = some x → ∃ r, exec (.hash j) s = .next (s.ends j 0 0 x.figure r).settle ∧
      r.length = opOut x none 0 ∧ r = hashTo x.opParam x.inp (opOut x none 0)) ∧
    (x.pinned = false →
      (∀ c fam, (c, fam) ∈ [(Instr.hmacGenerate j, 0x32), (.kmacGenerate j, 0x33), (.aesCmacGenerate j, 0x34)] →
        s.running j fam 1 = some x → ∃ r, exec c s = .next (s.ends j 0 0 x.figure r).settle ∧ r.length = tagLen x ∧
          r = macOf x (tagLen x)) ∧
      (∀ c fam, (c, fam) ∈ [(Instr.hmacVerify j, 0x32), (.kmacVerify j, 0x33), (.aesCmacVerify j, 0x34)] →
        s.running j fam 2 = some x →
        (x.auxData.drop (x.auxLen - tagLen x) = macOf x (tagLen x) →
          exec c s = .next (s.ends j 0 0 x.figure []).settle) ∧
        (x.auxData.drop (x.auxLen - tagLen x) ≠ macOf x (tagLen x) →
          exec c s = .next (s.ends j 0x01 0x0301 x.figure []).settle))) ∧
    (s.running j 0x41 1 = some x → x.opParam = 3 → bitOf x.param 0 = false →
      ∃ r, exec (.aesEncrypt j) s = .next (s.ends j 0 0 x.figure r).settle ∧ r.length = x.inp.length ∧
        ∀ (s' : State) (k : Nat) (y : Job), s'.running k 0x41 2 = some y → y.opParam = 3 → bitOf y.param 0 = false →
          y.mat = x.mat → y.keyType = x.keyType → y.auxData.take 16 = x.auxData.take 16 → y.inp = r →
          exec (.aesDecrypt k) s' = .next (s'.ends k 0 0 y.figure x.inp).settle) ∧
    (∀ c fam op n, (c, fam, op, n) ∈ [(Instr.aesEncrypt j, 0x41, 1, 16), (.aesDecrypt j, 0x41, 2, 16),
        (.tdeaEncrypt j, 0x43, 1, 8), (.tdeaDecrypt j, 0x43, 2, 8)] →
      s.running j fam op = some x → x.opParam = 1 → bitOf x.param 0 = false → x.inp.length % n = 0 →
      ∃ r, exec c s = .next (s.ends j 0 0 x.figure r).settle ∧ r.length = x.inp.length) ∧
    (∀ c fam op n, (c, fam, op, n) ∈ [(Instr.aesEncrypt j, 0x41, 1, 16), (.aesDecrypt j, 0x41, 2, 16),
        (.tdeaEncrypt j, 0x43, 1, 8), (.tdeaDecrypt j, 0x43, 2, 8)] →
      s.running j fam op = some x → x.opParam = 2 → x.inp.length % n = 0 → n ≤ x.auxData.length →
      ∃ r, exec c s = .next (s.ends j 0 0 x.figure r).settle ∧
        r.length = x.inp.length + if bitOf x.param 0 then n else 0) ∧
    (s.running j 0x41 2 = some x → x.opParam = 5 →
      ∃ r, exec (.aesDecrypt j) s = .next (s.ends j 0 0 x.figure r).settle ∧ r.length = x.inLen) ∧
    (s.running j 0x41 2 = some x → x.opParam = 6 →
      (Config.accepts x.opcode [x.mat, x.inp] = true →
        ∃ t, exec (.aesDecrypt j) s = .next t ∧ t.Computed j 0 0 (x.inLen - 8) ∧ t.kst = s.kst) ∧
      (Config.accepts x.opcode [x.mat, x.inp] = false → ∃ t y, exec (.aesDecrypt j) s = .next t ∧ t.job? j = some y ∧
        y.stage = .ended ∧ y.major = 0x01 ∧ y.detail = 0x0303 ∧ y.result = zeros (x.inLen - 8))) ∧
    (∀ c op len, (c, op, len) ∈ [(Instr.aesEncrypt j, 1, if x.opParam = 5 then x.inLen else 8 * ceilDiv x.inLen 8 + 8)] →
      s.running j 0x41 op = some x → 5 ≤ x.opParam →
      ∃ r, exec c s = .next (s.ends j 0 0 x.figure r).settle ∧ r.length = len) ∧
    (∀ c fam, (c, fam) ∈ [(Instr.aesEncrypt j, 0x41), (.chacha20Poly1305Encrypt j, 0x42)] →
      s.running j fam 1 = some x → (fam = 0x41 → x.opParam = 4) →
      (genIv x = false → ∃ r, exec c s = .next (s.ends j 0 0 x.figure r).settle ∧ r.length = x.inLen + tagLen x) ∧
      (∀ slot k y, genIv x = true → x.key = some (slot, k) → s.key? slot = some y → y.uid = k.uid →
        (2 ^ 32 ≤ y.genIvs → exec c s = .next (s.ends j 0x03 0x0303 x.figure []).settle) ∧
        (y.genIvs < 2 ^ 32 → ∃ t z, exec c s = .next t ∧ t.Computed j 0 0 (x.rnd.length + x.inLen + tagLen x) ∧
          t.key? slot = some z ∧ z.genIvs = y.genIvs + 1))) ∧
    (∀ c fam ok, (c, fam) ∈ [(Instr.aesDecrypt j, 0x41), (.chacha20Poly1305Decrypt j, 0x42)] →
      s.running j fam 2 = some x → (fam = 0x41 → x.opParam = 4) →
      Config.accepts x.opcode [x.mat, x.iv, x.aad, x.inp, leBytes 1 (tagLen x)] = ok →
      (ok = true → ∃ t, exec c s = .next t ∧ t.Computed j 0 0 (x.inLen - tagLen x) ∧ t.kst = s.kst) ∧
      (ok = false → ∃ t y, exec c s = .next t ∧ t.job? j = some y ∧ y.stage = .ended ∧ y.major = 0x01 ∧ y.detail = 0x0303 ∧
        y.result = zeros (x.inLen - tagLen x) ∧
        ∃ ms, t.host.out = s.host.out ++ ms ++ (splitOut (x.pieces 1) (zeros (x.inLen - tagLen x))).map
          (fun w => .write x.fn w.1 w.2)))

/-! ## Microcode -/

/-- Routines (R257 to R261, R274, R278). CUSTOM_JOB puts a started class 9 job's routine at its entry (microStart). For a routine on
a spindle at a word with NANO 0 outside the gate, MICRO_WORD with COND 0x0 goes to NEXT, with 0x2 to NEXT with LC0 ≠ 0 in bit 0,
LC0 then one less; with 0x4 and a tainted Z it ends the job with INTEGRITY 0x0503. MICRO_CALL pushes the next address and puts IMM
into X15, MICRO_RETURN pops; at depth 4 and at depth 0 they end the job with INTEGRITY 0x0501. Each costs its STALL and one cycle,
and a free number more after a reload of its bank (the model's choice, log 60). At a word of COND 0xE, MICRO_WORD and MICRO_RETURN
do nothing. PIECE_STAGED gives the next piece of the input, at most 16,384 bytes. Gate entries (R279, Table 9.10): each of
HASH_BEGIN, ABSORB_KEY, ABSORB_X, ABSORB_INPUT, ABSORB_AUX, HASH_FINAL, MASKED_XOR and UNMASK_OUT does nothing where the routine is
not at its address; there it returns to its caller, jobs and keys as they were; ABSORB_INPUT only once no piece is awaited.
HASH_BEGIN opens the context of IMM, the absorbs append their bytes to it, HASH_FINAL leaves IMM bytes of the digest in bank 6 with
IMM in X14 where the core still holds the context; MASKED_XOR XORs bank 0 into bank 5, and UNMASK_OUT puts bank 5 into bank 6 with
IMM in X14. -/
def Obligations.MicrocodeCommands : Prop :=
  (∀ (s : State) (f c u : Nat),
    (∀ j x e l, s.job? j = some x → s.customEntry x = some e → x.place = some (f, c) → x.spns = u :: l → x.stage = .s5 →
      x.opClass = 9 → (s.unit f c u).micro.on = false →
      exec (.customJob j) s = .next (s.setMicro f c u (microStart x e)).settle) ∧
    (∀ j x e m w n, s.routine? f c u = some (j, x, e, m) → w = s.microAt m.pc → m.pc < 3520 ∨ 3527 < m.pc →
      fld w 10 10 = 0 → n = m.cycles + fld w 36 3 + 1 + (if m.stalled then Config.freeNat (s.free + 511) else 0) →
      (fld w 32 4 = 0 → exec (.microWord f c u) s = .next (({ s with free := s.free + 512 } : State).setMicro f c u
        { m with cycles := n, stalled := false, pc := fld w 20 12 }).settle) ∧
      (fld w 32 4 = 2 → exec (.microWord f c u) s = .next (({ s with free := s.free + 512 } : State).setMicro f c u
        { m with cycles := n, stalled := false, pc := fld w 20 12 ||| b2n (m.lc0 ≠ 0), lc0 := m.lc0 - 1 }).settle) ∧
      (fld w 32 4 = 4 → m.z.t = true → ∃ t, exec (.microWord f c u) s = .next t ∧ t.Computed j 0x09 0x0503 0 ∧
        (t.unit f c u).micro.on = false) ∧
      (fld w 32 4 = 14 → exec (.microWord f c u) s = .next s.settle ∧ exec (.microReturn f c u) s = .next s.settle) ∧
      (fld w 32 4 = 14 → m.stack.length < 4 → fld w 20 12 ≠ 3523 → exec (.microCall f c u) s = .next
        (({ s with free := s.free + 512 } : State).setMicro f c u { m with
          cycles := n, stalled := false, pc := fld w 20 12, stack := (m.pc + 1) % 4096 :: m.stack
          x := m.x.put 0 15 (BitVec.ofNat 64 (fld w 0 10)) }).settle) ∧
      (fld w 32 4 = 14 → 4 ≤ m.stack.length → ∃ t, exec (.microCall f c u) s = .next t ∧ t.Computed j 0x09 0x0501 0) ∧
      (∀ a l, fld w 32 4 = 15 → m.stack = a :: l → exec (.microReturn f c u) s = .next
        (({ s with free := s.free + 512 } : State).setMicro f c u
          { m with cycles := n, stalled := false, pc := a, stack := l }).settle) ∧
      (fld w 32 4 = 15 → m.stack = [] → ∃ t, exec (.microReturn f c u) s = .next t ∧ t.Computed j 0x09 0x0501 0)) ∧
    (∀ j x y e m l, s.job? j = some x → x.place = some (f, c) → x.spns = u :: l → s.routine? f c u = some (j, y, e, m) →
      m.wantPiece = true → ∃ t, exec (.pieceStaged j) s = .next t ∧ (t.unit f c u).micro.wantPiece = false ∧
        (t.unit f c u).micro.inPos = m.inPos + min 16384 (y.inp.length - m.inPos) ∧ t.jobs = s.jobs)) ∧
  (∀ (s : State) (f c u j : Nat) (x : Job) (e : RtnEntry) (m : Micro) (ret : Nat) (l : List Nat) (imm : Nat),
    s.routine? f c u = some (j, x, e, m) → m.stack = ret :: l → imm = (m.x.getD 15 0).toNat →
    (∀ cmd addr, (cmd, addr) ∈ [(Instr.hashBegin f c u, 3520), (.absorbKey f c u, 3521), (.absorbX f c u, 3522),
        (.absorbInput f c u, 3523), (.absorbAux f c u, 3524), (.hashFinal f c u, 3525), (.maskedXor f c u, 3526),
        (.unmaskOut f c u, 3527)] →
      (m.pc ≠ addr → exec cmd s = .next s.settle) ∧
      (m.pc = addr → (addr = 3523 → m.wantPiece = false) → ∃ t, exec cmd s = .next t ∧ (t.unit f c u).micro.pc = ret ∧
        (t.unit f c u).micro.stack = l ∧ m.cycles ≤ (t.unit f c u).micro.cycles ∧ t.jobs = s.jobs ∧ t.kst = s.kst)) ∧
    (m.pc = 3520 → ∃ t, exec (.hashBegin f c u) s = .next t ∧
      (t.unit f c u).micro.hash = some { alg := imm, data := [], sec := false }) ∧
    (∀ h cmd addr b, m.hash = some h → (cmd, addr, b) ∈ [(Instr.absorbKey f c u, 3521, m.read 0 imm),
        (.absorbX f c u, 3522, leBytes 8 (m.x.getD imm 0).toNat), (.absorbAux f c u, 3524, m.read 0x4000 x.auxLen),
        (.absorbInput f c u, 3523, m.read 0x6000 (min 16384 (m.x.getD 6 0).toNat) ++ x.inp.drop m.inPos)] →
      m.pc = addr → (addr = 3523 → m.wantPiece = false) → ∃ t k, exec cmd s = .next t ∧
        (t.unit f c u).micro.hash = some k ∧ k.alg = h.alg ∧ k.data = h.data ++ b) ∧
    (∀ h, m.hash = some h → m.holdsHash h = true → m.pc = 3525 → imm ≤ 1023 → ∃ t, exec (.hashFinal f c u) s = .next t ∧
      (t.unit f c u).micro.hash = none ∧ (t.unit f c u).micro.read 0xC000 imm = gateDigest h imm ∧
      ((t.unit f c u).micro.x.getD 14 0).toNat = imm) ∧
    (m.pc = 3526 → imm ≤ 256 → ∃ t, exec (.maskedXor f c u) s = .next t ∧
      (t.unit f c u).micro.read 0xA000 imm = xorBytes (m.read 0xA000 imm) (m.read 0 imm)) ∧
    (m.pc = 3527 → imm ≤ 256 → ∃ t, exec (.unmaskOut f c u) s = .next t ∧
      (t.unit f c u).micro.read 0xC000 imm = m.read 0xA000 imm ∧ ((t.unit f c u).micro.x.getD 14 0).toNat = imm))

/-! ## Crixa cores -/

/-- Scalar arithmetic (R357, R362, Table 13.8). A register reads what was last written to it, and the others as before. On a core that
executes, with operands tagged INT or SEC: ADD, SUB, AND, OR, XOR, SHL, SHR, SAR, MUL and MULHU, and ADDI, ANDI, ORI and XORI with
IMM extended, put their result into rd, SEC where an operand is, with N and Z of the result and T where an operand is SEC; C and V
of ADD, ADDI and SUB are those of the sum and the difference (the others leave them free, log 63). CMP and CMPI with rd 0 set only
the flags of the difference; CSEL selects by its condition, SEC also where T is set. Each takes one cycle, goes to the next
instruction and changes nothing else (State.Ran). -/
def Obligations.ScalarArithmetic : Prop :=
  (∀ (r : CRegs) (k : BitVec 5) (w : CWord), (r.set k.toNat w).get k.toNat = w ∧
    ∀ j : BitVec 5, j ≠ k → (r.set k.toNat w).get j.toNat = r.get j.toNat) ∧
  (∀ (s : State) (n : Nat) (r : CRegs) (rd ra rb : BitVec 5) (imm : BitVec 16) (a b : CWord), s.Executes n → r = (s.core n).r →
    a = r.get ra.toNat → b = r.get rb.toNat → isData a.tag = true →
    (isData b.tag = true → ∀ c (g : W64 → W64 → W64), (c, g) ∈
        [(Instr.add n rd ra rb, fun (x y : W64) => x + y), (.sub n rd ra rb, fun x y => x - y), (.and n rd ra rb, fun x y => x &&& y),
         (.or n rd ra rb, fun x y => x ||| y), (.xor n rd ra rb, fun x y => x ^^^ y),
         (.shl n rd ra rb, fun (x y : W64) => x <<< (y.toNat % 64)), (.shr n rd ra rb, fun (x y : W64) => x >>> (y.toNat % 64)),
         (.sar n rd ra rb, fun (x y : W64) => x.sshiftRight (y.toNat % 64)), (.mul n rd ra rb, fun x y => x * y),
         (.mulhu n rd ra rb, fun (x y : W64) => BitVec.ofNat 64 (x.toNat * y.toNat / 2 ^ 64))] →
      ∃ t fc fv, exec c s = .next t ∧ s.Ran t n 1 ((r.setFlags
        { n := (g a.val b.val).msb, z := g a.val b.val == 0, c := fc, v := fv } (a.tag = .sec || b.tag = .sec)).set rd.toNat
          (dataWord (g a.val b.val) (a.tag = .sec || b.tag = .sec))).next [] ∧
        (c = .add n rd ra rb → (fc = true ↔ 2 ^ 64 ≤ a.val.toNat + b.val.toNat) ∧
          (fv = true ↔ (a.val + b.val).toInt ≠ a.val.toInt + b.val.toInt)) ∧
        (c = .sub n rd ra rb → (fc = true ↔ b.val.toNat ≤ a.val.toNat) ∧
          (fv = true ↔ (a.val - b.val).toInt ≠ a.val.toInt - b.val.toInt))) ∧
    (∀ c (v : W64), (c, v) ∈
        [(Instr.addi n rd ra imm, a.val + imm.signExtend 64), (.andi n rd ra imm, a.val &&& imm.setWidth 64),
         (.ori n rd ra imm, a.val ||| imm.setWidth 64), (.xori n rd ra imm, a.val ^^^ imm.setWidth 64)] →
      ∃ t fc fv, exec c s = .next t ∧ s.Ran t n 1 ((r.setFlags { n := v.msb, z := v == 0, c := fc, v := fv }
        (a.tag = .sec)).set rd.toNat (dataWord v (a.tag = .sec))).next [] ∧
        (c = .addi n rd ra imm → (fc = true ↔ 2 ^ 64 ≤ a.val.toNat + (imm.signExtend 64).toNat) ∧
          (fv = true ↔ (a.val + imm.signExtend 64).toInt ≠ a.val.toInt + (imm.signExtend 64).toInt))) ∧
    (isData b.tag = true →
      (∃ t, exec (.cmp n 0 ra rb) s = .next t ∧
        s.Ran t n 1 (r.setFlags (nzcvSub a.val b.val) (a.tag = .sec || b.tag = .sec)).next []) ∧
      (∀ cond, ∃ t, exec (.csel n cond rd ra rb) s = .next t ∧ s.Ran t n 1 (r.set rd.toNat
        (dataWord (if condHolds cond.toNat r.nzcv then a.val else b.val) (a.tag = .sec || b.tag = .sec || r.t))).next [])) ∧
    (∃ t, exec (.cmpi n 0 ra imm) s = .next t ∧
      s.Ran t n 1 (r.setFlags (nzcvSub a.val (imm.signExtend 64)) (a.tag = .sec)).next []))

/-- Moves, tags and memory (R357 to R360, R363, R375, R379, Table 13.4), on a core that executes. MOV, PADD, PSUB, PTOI, MKPTR
(supervisor mode), HADD, VDMAKE (length 1 to 2^24 − 1), LA, LUI and MOVI (ra 0), KMINT and DECLASS (core T) write their word where
their operands have the tags they take. At a word that the code reaches: LD and LDB fill the load slot, ST writes a word and STB one
byte of it, SEC where either was. In a call, DMAI from the input or the auxiliary buffer puts the bytes read into memory, and a host
error ends the call with DMA 0x0001 or 0x0003; DMAO takes bytes that are not SEC into the output, and supervisor code that sends SEC
traps. TGSEND in supervisor mode queues a message with its tags towards core T, or from it, and gives 1; with 64 messages queued it
sends nothing and gives 0. TGRECV gives 0 on an empty queue, else it stores the message's words and gives their number. -/
def Obligations.ScalarDataMovement : Prop :=
  ∀ (s : State) (n : Nat) (r : CRegs) (rd ra rb : BitVec 5) (imm : BitVec 16) (d a b : CWord), s.Executes n →
    r = (s.core n).r → d = r.get rd.toNat → a = r.get ra.toNat → b = r.get rb.toNat →
    (∀ c (pre : Prop) (w : CWord), (c, pre, w) ∈
        [(Instr.mov n rd ra rb, a.tag ≠ .poison, a),
         (.padd n rd ra rb, a.tag = .ptr ∧ b.tag = .int, { tag := .ptr, val := a.val + b.val }),
         (.psub n rd ra rb, a.tag = .ptr ∧ b.tag = .int, { tag := .ptr, val := a.val - b.val }),
         (.ptoi n rd ra rb, a.tag = .ptr, { tag := .int, val := a.val }),
         (.mkptr n rd ra rb, r.applet = false ∧ a.tag = .int, { tag := .ptr, val := a.val }),
         (.hadd n rd ra rb, a.tag = .href ∧ b.tag = .int, {
           tag := .href
           val := BitVec.ofNat 64 (fld a.val.toNat 32 32 * 2 ^ 32 + (a.val.toNat + b.val.toNat) % 2 ^ 32) }),
         (.vdmake n rd ra rb, a.tag = .ptr ∧ b.tag = .int ∧ 0 < b.val.toNat ∧ b.val.toNat < 2 ^ 24, {
           tag := .vdesc
           val := BitVec.ofNat 64 (b.val.toNat * 2 ^ 40 + a.val.toNat % 2 ^ 40) }),
         (.la n rd 0 imm, True, { tag := .code, val := r.pc + 4 * imm.signExtend 64 }),
         (.lui n rd 0 imm, True, { tag := .int, val := imm.setWidth 64 <<< 16 }),
         (.movi n rd 0 imm, True, { tag := .int, val := imm.setWidth 64 }),
         (.kmint n rd ra rb, n = 4 ∧ a.tag = .int, { tag := .kref, val := a.val }),
         (.declass n rd ra, n = 4 ∧ a.tag = .sec, { tag := .int, val := a.val })] →
      pre → ∃ t, exec c s = .next t ∧ s.Ran t n 1 (r.set rd.toNat w).next []) ∧
    (∀ w, a.tag = .ptr → (s.core n).reach n (memAddr a imm) = some w →
      (memAddr a imm % 8 = 0 → (s.cword w).tag ≠ .poison → ∃ t, exec (.ld n rd ra imm) s = .next t ∧
        s.Ran t n 1 { r with pc := r.pc + 4, slot := some (rd.toNat, s.cword w) } []) ∧
      (memAddr a imm % 8 = 0 → d.tag ≠ .poison → ∃ t, exec (.st n rd ra imm) s = .next t ∧ s.Ran t n 1 r.next [w] ∧
        t.cword w = d) ∧
      (isData (s.cword w).tag = true → ∃ t, exec (.ldb n rd ra imm) s = .next t ∧ s.Ran t n 1 { r with
        pc := r.pc + 4
        slot := some (rd.toNat, dataWord ((wbyte (s.cword w).val (memAddr a imm % 8)).setWidth 64) ((s.cword w).tag = .sec)) }
        []) ∧
      (isData (s.cword w).tag = true → isData d.tag = true → ∃ t, exec (.stb n rd ra imm) s = .next t ∧
        s.Ran t n 1 r.next [w] ∧ wbyte (t.cword w).val (memAddr a imm % 8) = d.val.setWidth 8 ∧
        (∀ i, i < 8 → i ≠ memAddr a imm % 8 → wbyte (t.cword w).val i = wbyte (s.cword w).val i) ∧
        ((t.cword w).tag = .sec ↔ d.tag = .sec ∨ (s.cword w).tag = .sec))) ∧
    (∀ k x ws, s.callOn n = some (k, x) → d.tag = .ptr → a.tag = .href → b.tag = .int →
      (s.core n).span n d.val.toNat b.val.toNat = .ok ws →
      (∀ data, hrefBuf a = 0 ∧ hrefOff a + b.val.toNat ≤ x.inLen ∨ hrefBuf a = 2 ∧ hrefOff a + b.val.toNat ≤ x.auxLen →
        (data.length = b.val.toNat → ∃ t, exec (.dmai n rd ra rb .ok data) s = .next t ∧ (t.core n).r = r.next ∧
          t.cbytes n d.val.toNat b.val.toNat = data ∧ t.jobs = s.jobs) ∧
        (∀ j o, (s.ctx k).job = some j → s.subJobsOf k = [] → 0 < b.val.toNat → o ≠ .ok →
          ∃ t, exec (.dmai n rd ra rb o data) s = .next t ∧ t.Ended j 0x06 (if hrefBuf a = 0 then 1 else 3) 0)) ∧
      (hrefBuf a = 1 → hrefOff a + b.val.toNat ≤ x.outCap →
        (∀ w ∈ ws, (s.cword w).tag ≠ .poison ∧ (s.cword w).tag ≠ .sec) → ∃ t, exec (.dmao n rd ra rb) s = .next t ∧
          (t.core n).r = r.next ∧ (t.ctx k).outBuf =
            Tbl.putBytes (s.ctx k).outBuf (hrefOff a) (s.cbytes n d.val.toNat b.val.toNat)) ∧
      (hrefBuf a = 1 → hrefOff a + b.val.toNat ≤ x.outCap → r.applet = false → r.inTrap = false →
        (∀ w ∈ ws, (s.cword w).tag = .sec) → 0 < b.val.toNat → ∃ t, exec (.dmao n rd ra rb) s = .next t ∧
          s.Trapped t n 0x06 0)) ∧
    (r.applet = false → a.tag = .ptr →
      (∀ ws, b.tag = .int → 0 < b.val.toNat → b.val.toNat ≤ 16 → a.val.toNat % 8 = 0 →
        (s.core n).span n a.val.toNat (8 * b.val.toNat) = .ok ws → (∀ w ∈ ws, tgateTag (s.cword w).tag = true) →
        ((s.tgSendQ n).length < 64 → ∃ t, exec (.tgsend n rd ra rb) s = .next t ∧
          t.tgSendQ n = s.tgSendQ n ++ [ws.map s.cword] ∧ s.Ran t n 1 (r.set rd.toNat (intWord 1)).next []) ∧
        (64 ≤ (s.tgSendQ n).length → ∃ t, exec (.tgsend n rd ra rb) s = .next t ∧
          t.tgSendQ n = s.tgSendQ n ∧ s.Ran t n 1 (r.set rd.toNat (intWord 0)).next [])) ∧
      (s.tgRecvQ n = [] → ∃ t, exec (.tgrecv n rd ra) s = .next t ∧ s.Ran t n 1 (r.set rd.toNat (intWord 0)).next []) ∧
      (∀ msg q ws, s.tgRecvQ n = msg :: q → a.val.toNat % 8 = 0 →
        (s.core n).span n a.val.toNat (8 * msg.length) = .ok ws →
        ∃ t, exec (.tgrecv n rd ra) s = .next t ∧ t.tgRecvQ n = q ∧ ws.map t.cword = msg ∧
          s.Ran t n 1 (r.set rd.toNat (intWord (BitVec.ofNat 64 msg.length))).next ws))

/-- Control flow, CSRs and traps (R361 to R365, R367 to R369, Tables 13.5 to 13.9). Conditions 1 to 10 after CMP are the comparisons
of their names. On a core that executes: B adds 4 × its offset where its condition holds, and traps where it tests a tainted flag;
with room on both stacks CALL and CALLR push the return address and a frame; JR goes to CODE ra; RET pops both, and at an empty
return stack supervisor code traps; CSRR reads a CSR that exists, an applet's not the privileged ones (STATUS, RSP, EPC, TVAL and the
stack's depth have the values given); CSRW writes RSM, RSP and a G core's VPG.EN, and in applet mode it ends the call; NOP advances;
ERET goes back to EPC; STRIP sets SC and VLOOP subtracts it and loops while anything is left (G cores). A trap of supervisor code saves
its registers and goes to the handler, with TVAL the register of a POISON operand, or the word of an undefined encoding (CMP, CMPI,
LUI, MOVI, LA, RET or VLOOP with a reserved field not 0, STRIP of no width, a word that no instruction has); in an applet it ends the
call with APPLET 0x0880 plus its code; in the handler it halts the device. A NOP lets the load before it complete. -/
def Obligations.ControlAndSystem : Prop :=
  (∀ a b : W64,
    condHolds 1 (nzcvSub a b) = decide (a = b) ∧ condHolds 2 (nzcvSub a b) = decide (a ≠ b) ∧
    condHolds 3 (nzcvSub a b) = decide (a.toInt < b.toInt) ∧ condHolds 4 (nzcvSub a b) = decide (b.toInt ≤ a.toInt) ∧
    condHolds 5 (nzcvSub a b) = decide (b.toInt < a.toInt) ∧ condHolds 6 (nzcvSub a b) = decide (a.toInt ≤ b.toInt) ∧
    condHolds 7 (nzcvSub a b) = decide (a.toNat < b.toNat) ∧ condHolds 8 (nzcvSub a b) = decide (b.toNat ≤ a.toNat) ∧
    condHolds 9 (nzcvSub a b) = decide (b.toNat < a.toNat) ∧ condHolds 10 (nzcvSub a b) = decide (a.toNat ≤ b.toNat)) ∧
  (∀ (s : State) (n : Nat) (r : CRegs), s.Executes n → r = (s.core n).r →
    (∀ (cond : BitVec 4) (off : BitVec 22), (r.t = false ∨ cond = 0) →
      ∃ t, exec (.b n cond off) s = .next t ∧
        s.Ran t n 1 { r with pc := r.pc + 4 * if condHolds cond.toNat r.nzcv then off.signExtend 64 else 1 } []) ∧
    (∀ (cond : BitVec 4) (off : BitVec 22), r.t = true → cond ≠ 0 → cond ≠ 15 → r.applet = false → r.inTrap = false →
      ∃ t, exec (.b n cond off) s = .next t ∧ s.Trapped t n 0x05 0) ∧
    (r.frames.length < 15 → r.rstack.length < 32 →
      (∀ off : BitVec 26, ∃ t, exec (.call n off) s = .next t ∧ s.Ran t n 1
        { r with rstack := (r.pc + 4) :: r.rstack, frames := [] :: r.frames, pc := r.pc + 4 * off.signExtend 64 } []) ∧
      (∀ rd ra rb : BitVec 5, (r.get ra.toNat).tag = .code → ∃ t, exec (.callr n rd ra rb) s = .next t ∧ s.Ran t n 1
        { r with rstack := (r.pc + 4) :: r.rstack, frames := [] :: r.frames, pc := (r.get ra.toNat).val } [])) ∧
    (∀ rd ra rb : BitVec 5, (r.get ra.toNat).tag = .code → ∃ t, exec (.jr n rd ra rb) s = .next t ∧
      s.Ran t n 1 { r with pc := (r.get ra.toNat).val } []) ∧
    (∀ a l f g fs, r.rstack = a :: l → r.frames = f :: g :: fs → ∃ t, exec (.ret n 0) s = .next t ∧
      s.Ran t n 1 { r with rstack := l, frames := g :: fs, pc := a } []) ∧
    (r.rstack = [] → r.rsm ≠ 2 → r.applet = false → r.inTrap = false → ∃ t, exec (.ret n 0) s = .next t ∧
      s.Trapped t n 0x0B 0) ∧
    (∀ (rd ra : BitVec 5) (num : BitVec 16) v, s.csr n r num.toNat = some v →
      (r.applet = false ∨ num.toNat ∉ [0x002, 0x020, 0x021, 0x022]) →
      ∃ t, exec (.csrr n rd ra num) s = .next t ∧ s.Ran t n 1 (r.set rd.toNat v).next []) ∧
    (s.csr n r 0x000 = some r.status ∧ s.csr n r 0x002 = some r.rsp ∧ s.csr n r 0x020 = some (intWord r.epc) ∧
      s.csr n r 0x022 = some (intWord r.tval) ∧ s.csr n r 0x003 = some (intWord (BitVec.ofNat 64 r.rstack.length))) ∧
    (∀ rd ra : BitVec 5, r.applet = false →
      ((r.get ra.toNat).tag = .int → ∃ t, exec (.csrw n rd ra 0x001) s = .next t ∧
        s.Ran t n 1 { r with pc := r.pc + 4, rsm := (r.get ra.toNat).val.setWidth 2 } []) ∧
      ((r.get ra.toNat).tag = .ptr → ∃ t, exec (.csrw n rd ra 0x002) s = .next t ∧
        s.Ran t n 1 { r with pc := r.pc + 4, rsp := r.get ra.toNat } []) ∧
      ((r.get ra.toNat).tag = .int → n ≠ 4 → ∃ t, exec (.csrw n rd ra 0x013) s = .next t ∧ s.Ran t n 1 r.next [] ∧
        (t.core n).vpgEn = (r.get ra.toNat).val.getLsbD 0)) ∧
    (∃ t, exec (.nop n) s = .next t ∧ s.Ran t n 1 r.next []) ∧
    (r.applet = false → r.inTrap = false → ∀ (rd ra rb : BitVec 5) (imm : BitVec 16) (rest : BitVec 26) (word : BitVec 32) c tv,
      (c, tv) ∈ [(Instr.cmp n (rd ||| 1) ra rb, encR 0 (rd ||| 1).toNat ra.toNat rb.toNat 0x00B),
        (.cmpi n (rd ||| 1) ra imm, encI 0x06 (rd ||| 1).toNat ra.toNat imm.toNat),
        (.lui n rd (ra ||| 1) imm, encI 0x05 rd.toNat (ra ||| 1).toNat imm.toNat),
        (.movi n rd (ra ||| 1) imm, encI 0x07 rd.toNat (ra ||| 1).toNat imm.toNat),
        (.la n rd (ra ||| 1) imm, encI 0x0D rd.toNat (ra ||| 1).toNat imm.toNat),
        (.vloop n rd (ra ||| 1) imm, encI 0x26 rd.toNat (ra ||| 1).toNat imm.toNat),
        (.strip n rd ra (imm ||| 4), encI 0x20 rd.toNat ra.toNat (imm ||| 4).toNat),
        (.ret n (rest ||| 1), 0x12 * 2 ^ 26 + (rest ||| 1).toNat), (.nop n word, word.toNat)] →
      (c = .nop n word → crixaOp word.toNat = none) → ∃ t, exec c s = .next t ∧ s.Trapped t n 0x01 tv) ∧
    (r.applet = false → ∃ t, exec (.eret n) s = .next t ∧ s.Ran t n 1 { r with pc := r.epc, inTrap := false } []) ∧
    (∀ (rd ra : BitVec 5) (imm : BitVec 16) m, n ≠ 4 → imm.toNat < 4 → (r.get ra.toNat).tag = .int →
      m = min (r.get ra.toNat).val.toNat (128 / 2 ^ imm.toNat) → ∃ t, exec (.strip n rd ra imm) s = .next t ∧
        s.Ran t n 1 ({ r with sc := m }.set rd.toNat (intWord (BitVec.ofNat 64 m))).next []) ∧
    (∀ (rd : BitVec 5) (imm : BitVec 16) m, n ≠ 4 → (r.get rd.toNat).tag = .int → m = (r.get rd.toNat).val.toNat - r.sc →
      ∃ t, exec (.vloop n rd 0 imm) s = .next t ∧ s.Ran t n 1 { r.set rd.toNat (intWord (BitVec.ofNat 64 m)) with
        pc := r.pc + 4 * if m = 0 then 1 else imm.signExtend 64 } []) ∧
    (∀ k j x, k / 8 = n → r.applet = true → (s.core n).ctx = some k → (s.ctx k).job = some j → s.job? j = some x →
      s.subJobsOf k = [] → ∀ (rd ra rb : BitVec 5) (csr : BitVec 16) c code,
      (c, code) ∈ [(Instr.add n rd ra rb, 4), (.csrw n rd ra csr, 2), (.eret n, 2), (.mkptr n rd ra rb, 2)] →
      (code = 4 → (r.get ra.toNat).tag = .poison) →
      ∃ t, exec c s = .next t ∧ t.Ended j 0x0E (0x0880 + code) 0 ∧ (t.core n).ctx = none) ∧
    (∀ rd ra rb : BitVec 5, (r.get ra.toNat).tag = .poison →
      (r.applet = false → r.inTrap = false → ∃ t, exec (.add n rd ra rb) s = .next t ∧ s.Trapped t n 0x04 ra.toNat) ∧
      (r.applet = false → r.inTrap = true → ∃ t, exec (.add n rd ra rb) s = .next t ∧ t.glb.halted = true))) ∧
  (∀ (s : State) (n d : Nat) (w : CWord) (r : CRegs), s.coreRuns n = true → r = (s.core n).r → r.slot = some (d, w) →
    r.applet = false → s.atBreak n = false → (∀ k, (s.core n).ctx = some k → (s.ctx k).cancelled = false) →
    ∃ t, exec (.nop n) s = .next t ∧
      (t.core n).r = { r.set d w with pc := r.pc + 4, slot := none })

/-- The vector extension (R369 to R374), on a G core that executes with its unit powered; a word of a wide register changes only in
the elements selected. With SC = 0 VADD, VSUB, VAND, VOR, VXOR, VMUL, VCMPEQ, VCMPLTU, VFILL, VEXT, VSUM, VLD and VST do nothing.
Otherwise VADD to VMUL compute each active selected element; VWMUL, VDOT4 and VDOT2 (signed and not) their products and sums, an
element that is not active or selected counting as 0; VCMPEQ and VCMPLTU set predicate bits, q0 staying as it is; VFILL, VEXT and
VSUM as Table 13.8 says. VLD, VLDP, VLDX and VLDXP load every active element where none faults; VLDP and VLDXP whose lowest element
fault is not at the lowest active element load those below it and set SC to its number. VST and VSTX (with no address twice)
store every active element and nothing else. A gated unit is woken first: the instruction waits, VECTOR_WAKE then ends the wake and
counts it; VECTOR_POWER_DOWN gates the unit 50 µs after its last instruction, at once or after a power-down in progress, and does
nothing before. -/
def Obligations.VectorInstructions : Prop :=
  (∀ (r : CRegs) (wd ew : Nat) (sel : Nat → Bool) (new : Nat → Nat) (sec : Bool) (i : Nat), ew < 4 → i < eCount ew →
    (elems ew ((r.putElems wd ew sel new sec).w wd).val).getD i 0 =
      if sel i then new i % 2 ^ (8 * eBytes ew) else (elems ew (r.w wd).val).getD i 0) ∧
  (∀ (s : State) (n : Nat) (r : CRegs) (op : VOp) (ew : Nat) (x y : Nat → Nat), s.Executes n → n < 4 → r = (s.core n).r →
    (s.core n).gated = false → (s.core n).waking = false → (s.core n).downing = false → ew = op.ew.toNat →
    (∀ i, x i = (elems ew (r.w op.wa.toNat).val).getD i 0) → (∀ i, y i = (elems ew (r.w op.wb.toNat).val).getD i 0) →
    (∀ c, c ∈ [Instr.vadd n op, .vsub n op, .vand n op, .vor n op, .vxor n op, .vmul n op, .vcmpeq n op, .vcmpltu n op,
        .vfill n op, .vext n op, .vsum n op, .vld n op, .vst n op] → r.sc = 0 →
      ∃ t, exec c s = .next t ∧ s.Ran t n 1 r.next []) ∧
    (r.sc ≠ 0 →
      (∀ c g, (c, g) ∈ [(Instr.vadd n op, fun a b => (a + b) % 2 ^ (8 * eBytes ew)),
          (.vsub n op, fun a b => (2 ^ (8 * eBytes ew) + a - b) % 2 ^ (8 * eBytes ew)), (.vand n op, fun a b => a &&& b),
          (.vor n op, fun a b => a ||| b), (.vxor n op, fun a b => a ^^^ b),
          (.vmul n op, fun a b => a * b % 2 ^ (8 * eBytes ew))] →
        ∃ t, exec c s = .next t ∧ s.Ran t n (vCycles r ew) (r.putElems op.wd.toNat ew (r.active op) (fun i => g (x i) (y i))
          ((r.w op.wa.toNat).sec || (r.w op.wb.toNat).sec || (r.q op.q.toNat).sec)).next []) ∧
      (∀ (a b : Nat → Nat) (k : Nat), k = min r.sc (eCount ew) → (∀ i, a i = if r.active op i then x i else 0) →
        (∀ i, b i = if r.active op i then y i else 0) →
        (∀ c sg, (c, sg) ∈ [(Instr.vwmulU n op, false), (.vwmulS n op, true)] → ew < 3 → op.wd.toNat % 2 = 0 →
          ∃ t r', exec c s = .next t ∧ s.Ran t n (vCycles r ew) r' [] ∧ r'.pc = r.pc + 4 ∧ (∀ h i, h < 2 → i < eCount (ew + 1) →
            (elems (ew + 1) (r'.w (op.wd.toNat + h)).val).getD i 0 =
              if i < (if h = 0 then k / 2 else k - k / 2) then
                intMod (eInt sg ew (a (h * (k / 2) + i)) * eInt sg ew (b (h * (k / 2) + i))) (16 * eBytes ew)
              else (elems (ew + 1) (r.w (op.wd.toNat + h)).val).getD i 0)) ∧
        (∀ c sg, (c, sg) ∈ [(Instr.vdot4U n op, false), (.vdot4S n op, true)] → ew = 0 → ∃ t r', exec c s = .next t ∧
          s.Ran t n (vCycles r 0) r' [] ∧ r'.pc = r.pc + 4 ∧ (∀ i o, i < 32 → o = (elems 2 (r.w op.wd.toNat).val).getD i 0 →
            (elems 2 (r'.w op.wd.toNat).val).getD i 0 =
              if 4 * i < k then intMod ((o : Int) + dotSum a b sg 0 (4 * i) 4) 32 else o)) ∧
        (∀ c sg, (c, sg) ∈ [(Instr.vdot2U n op, false), (.vdot2S n op, true)] → ew = 1 → op.wd.toNat % 2 = 0 →
          ∃ t r', exec c s = .next t ∧ s.Ran t n (vCycles r 1) r' [] ∧ r'.pc = r.pc + 4 ∧ (∀ i o, i < 32 →
            o = (elems 3 (r.w (op.wd.toNat + i / 16)).val).getD (i % 16) 0 →
            (elems 3 (r'.w (op.wd.toNat + i / 16)).val).getD (i % 16) 0 =
              if 2 * i < k then intMod ((o : Int) + dotSum a b sg 1 (2 * i) 2) 64 else o))) ∧
      (∀ c g, (c, g) ∈ [(Instr.vcmpeq n op, fun a b => a == b), (.vcmpltu n op, fun a b => decide (a < b))] →
        ∃ t r', exec c s = .next t ∧ s.Ran t n (vCycles r ew) r' [] ∧ r'.pc = r.pc + 4 ∧
          (∀ i, i < 128 → (r'.q (op.wd.toNat % 8)).val.getLsbD i =
            if r.active op i ∧ op.wd.toNat % 8 ≠ 0 then g (x i) (y i) else (r.q (op.wd.toNat % 8)).val.getLsbD i) ∧
          r'.wide = r.wide) ∧
      ((r.get op.wa.toNat).tag = .int → ∃ t, exec (.vfill n op) s = .next t ∧ s.Ran t n (vCycles r ew)
        (r.putElems op.wd.toNat ew (r.active op) (fun _ => (r.get op.wa.toNat).val.toNat) (r.q op.q.toNat).sec).next []) ∧
      (r.active op 0 = true → ∃ t, exec (.vext n op) s = .next t ∧ s.Ran t n 1 (r.set op.wd.toNat
        (dataWord (BitVec.ofNat 64 (x 0)) ((r.w op.wa.toNat).sec || (r.q op.q.toNat).sec))).next []) ∧
      (r.active op 0 = false → ∃ t, exec (.vext n op) s = .next t ∧ s.Ran t n 1 r.next []) ∧
      (∃ t, exec (.vsum n op) s = .next t ∧ s.Ran t n (vCycles r ew) (r.set op.wd.toNat
        (dataWord (BitVec.ofNat 64 ((r.actives op).map x).sum) ((r.w op.wa.toNat).sec || (r.q op.q.toNat).sec))).next []) ∧
      (∀ c idx d off, (c, idx) ∈ [(Instr.vld n op, false), (.vldp n op, false), (.vldx n op, true), (.vldxp n op, true)] →
        r.vaddr op idx = .ok (d, off) →
        (∀ i ∈ r.actives op, ∃ w, s.element n d (off i) ew true = .ok (w, vdBase d + off i)) →
        ∃ t r', exec c s = .next t ∧ (t.core n).r = r' ∧ r'.pc = r.pc + 4 ∧ r'.sc = r.sc ∧ (∀ w, t.cword w = s.cword w) ∧
          ∀ i, i < eCount ew → (elems ew (r'.w op.wd.toNat).val).getD i 0 =
            if r.active op i then
              (match s.element n d (off i) ew true with
               | .ok (w, a) => fld (s.cword w).val.toNat (8 * (a % 8)) (8 * eBytes ew)
               | .error _ => 0)
            else (elems ew (r.w op.wd.toNat).val).getD i 0) ∧
      (∀ c idx d off h j l, (c, idx) ∈ [(Instr.vldp n op, false), (.vldxp n op, true)] → r.vaddr op idx = .ok (d, off) →
        r.actives op = h :: l → j ∈ l →
        (∀ i ∈ h :: l, i < j → ∃ p, s.element n d (off i) ew true = .ok p) → s.element n d (off j) ew true = .error false →
        (∀ i ∈ l, s.element n d (off i) ew true ≠ .error true) →
        ∃ t r', exec c s = .next t ∧ (t.core n).r = r' ∧ r'.pc = r.pc + 4 ∧ r'.sc = j ∧ (∀ w, t.cword w = s.cword w) ∧
          ∀ i, i < eCount ew → (elems ew (r'.w op.wd.toNat).val).getD i 0 =
            if r.active op i ∧ i < j then
              (match s.element n d (off i) ew true with
               | .ok (w, a) => fld (s.cword w).val.toNat (8 * (a % 8)) (8 * eBytes ew)
               | .error _ => 0)
            else (elems ew (r.w op.wd.toNat).val).getD i 0) ∧
      (∀ c idx d off, (c, idx) ∈ [(Instr.vst n op, false), (.vstx n op, true)] → r.vaddr op idx = .ok (d, off) →
        (∀ i ∈ r.actives op, ∀ i' ∈ r.actives op, off i = off i' → i = i') →
        (∀ i ∈ r.actives op, ∃ w, s.element n d (off i) ew false = .ok (w, vdBase d + off i)) →
        ∃ t, exec c s = .next t ∧ (t.core n).r = r.next ∧
          (∀ i ∈ r.actives op, ∀ w a, s.element n d (off i) ew false = .ok (w, a) →
            fld (t.cword w).val.toNat (8 * (a % 8)) (8 * eBytes ew) =
              (elems ew (r.w op.wd.toNat).val).getD i 0) ∧
          (∀ w, (∀ i ∈ r.actives op, ∀ a, s.element n d (off i) ew false ≠ .ok (w, a)) → t.cword w = s.cword w)))) ∧
  (∀ (s : State) (n : Nat), n < 4 → s.awake = true →
    (∀ op, s.Executes n → (s.core n).gated = true → ∃ t, exec (.vadd n op) s = .next t ∧ (t.core n).waking = true ∧
      (t.core n).r = (s.core n).r) ∧
    ((s.core n).downing = false → (s.core n).vpgEn = true → (s.core n).gated = false → (s.core n).waking = false →
      ((s.core n).vecAt + 50 ≤ s.now →
        exec (.vectorPowerDown n) s = .next (s.setCore n { s.core n with gated := true }).settle ∧
        exec (.vectorPowerDown n true) s = .next (s.setCore n { s.core n with downing := true }).settle) ∧
      (s.now < (s.core n).vecAt + 50 → ∀ begins, exec (.vectorPowerDown n begins) s = .next s.settle)) ∧
    ((s.core n).downing = true → ∀ begins, exec (.vectorPowerDown n begins) s =
      .next (s.setCore n { s.core n with downing := false, gated := true }).settle) ∧
    ((s.core n).waking = true → ∃ t, exec (.vectorWake n) s = .next t ∧ (t.core n).gated = false ∧
      (t.core n).waking = false ∧ t.crx.cntVwake = satInc s.crx.cntVwake ∧ (t.core n).r = (s.core n).r))

/-- Applet calls (R375, R378 to R383, Tables 13.12 to 13.15). CALL_TAKE gives the oldest call to a free context of a running core, or
ends it with DEADLINE 0x0002 where its deadline has passed. CONTEXT_SLICE gives a core without a context to the only one that can
run, passes a slice of 100 µs that is over to the next in turn, and does nothing before. APPLET_TIME_LIMIT ends a call that has run
for TLIM with APPLET 0x0802, unless it was cancelled, and does nothing before. SUBJOB_COMPLETION writes an OK sub-job's output to
scratch and puts status and length into its ticket. TGATE_ARRIVAL raises the interrupt of a side whose queue holds a message. An
applet's EXIT with INT words ends its call: with INPUT 0x0003 where RES_LEN is above OUT_CAP, else OK with that much output,
VERIFY_FAIL 0x0801, APPLET 0x0900 plus its code, or APPLET 0x0803. SUBMIT of a well-formed block gives a ticket and the job, and −1
with every ticket in use. WAIT and POLL free a completed ticket and give its results; −1 for one that is unknown; while it is open
POLL gives −3 and WAIT blocks. YIELD keeps the context's registers, TIME gives PTC_BOOT; RANDOM stores bytes that instance H
generates, and waits while H cannot serve until the call's deadline, where it gives −1. -/
def Obligations.AppletCommands : Prop :=
  ∀ s : State,
    (∀ k j l x, s.crx.callQ = j :: l → s.awake = true → k < 32 → (s.ctx k).job = none → (s.core (k / 8)).run = true →
      s.job? j = some x →
      (s.lateNow x = true → ∃ t, exec (.callTake k) s = .next t ∧ t.Ended j 0x05 2 0 ∧ t.crx.callQ = l) ∧
      (s.lateNow x = false → ∃ t y, exec (.callTake k) s = .next t ∧ t.job? j = some y ∧ y.stage = .applet k ∧
        (t.ctx k).job = some j ∧ t.crx.callQ = l)) ∧
    (∀ n k, s.awake = true → n < 4 → (s.core n).run = true → (s.core n).dbgHalt = false → (s.core n).ctx = none →
      (∀ i, i < 8 → (s.ctx (8 * n + i)).cancelled = false) → k / 8 = n → s.runnable k = true →
      (∀ i, i < 8 → s.runnable (8 * n + i) = true → 8 * n + i = k) →
      ∃ t, exec (.contextSlice n) s = .next t ∧ (t.core n).ctx = some k ∧ (t.core n).r = (s.ctx k).r ∧ t.jobs = s.jobs) ∧
    (∀ n k, s.awake = true → n < 4 → (s.core n).run = true → (s.core n).dbgHalt = false → (s.core n).ctx = some k →
      (∀ i, i < 8 → (s.ctx (8 * n + i)).cancelled = false) →
      (s.now < (s.core n).sliceAt + 100 → exec (.contextSlice n) s = .next s.settle) ∧
      (∀ k', (s.core n).sliceAt + 100 ≤ s.now → k' ≠ k →
        ((List.range 8).map (fun i => 8 * n + (k % 8 + 1 + i) % 8)).find? s.runnable = some k' →
        ∃ t, exec (.contextSlice n) s = .next t ∧ (t.core n).ctx = some k' ∧ (t.core n).r = (s.ctx k').r ∧
          (t.ctx k).r = (s.core n).r.settleLoad ∧ t.jobs = s.jobs)) ∧
    (∀ k j x g rec_, (s.ctx k).job = some j → s.job? j = some x → (s.ctx k).img = some g →
      g.recs[x.opFamily]? = some rec_ → s.subJobsOf k = [] → (s.ctx k).cancelled = false →
      ((s.ctx k).takenAt + rec_.tlim ≤ s.now → ∃ t, exec (.appletTimeLimit k) s = .next t ∧ t.Ended j 0x0E 0x0802 0 ∧
        (t.ctx k).job = none) ∧
      (s.now < (s.ctx k).takenAt + rec_.tlim → exec (.appletTimeLimit k) s = .next s.settle)) ∧
    (∀ j x k tk e, s.job? j = some x → x.sub = some (k, tk) → x.stage = .s7wait → k < 32 →
      (s.ctx k).tickets.get? tk = some e → e.job = j →
      ((s.ctx k).blocked = none → ∃ t, exec (.subjobCompletion j) s = .next t ∧ t.job? j = none ∧
        (t.ctx k).tickets.get? tk = some { e with done := some (x.major, x.detail, x.resLen) } ∧
        (x.major = 0 → scratchBase k ≤ x.subOut → x.subOut + x.result.length ≤ scratchBase k + 65536 →
          t.cbytes (k / 8) x.subOut x.result.length = x.result)) ∧
      ((s.ctx k).blocked = some tk → ∃ t, exec (.subjobCompletion j) s = .next t ∧ t.job? j = none ∧
        (t.ctx k).blocked = none ∧ (t.ctx k).tickets.get? tk = none ∧
        (t.ctx k).r = (s.ctx k).r.ticketDone (x.major, x.detail, x.resLen))) ∧
    (exec (.tgateArrival true) s = .next (if s.crx.g2t = [] then s
        else ({ s with crx := { s.crx with irqT := true } } : State)).settle ∧
      exec (.tgateArrival false) s = .next (if s.crx.t2g = [] then s
        else ({ s with crx := { s.crx with irqG := true } } : State)).settle) ∧
    (∀ n k j x r a0 a1, s.Executes n → r = (s.core n).r → r.applet = true → (s.core n).ctx = some k →
      (s.ctx k).job = some j → s.job? j = some x → a0 = (r.get 0).val.toNat → a1 = (r.get 1).val.toNat →
      ((r.get 0).tag = .int → (r.get 1).tag = .int → s.subJobsOf k = [] →
        (a0 = 0 → a1 ≤ x.outCap → ∃ t, exec (.exit n) s = .next t ∧ t.EndedWith j ((s.ctx k).outBuf.bytes 0 a1) ∧
          (t.ctx k).job = none) ∧
        (x.outCap < a1 → ∃ t, exec (.exit n) s = .next t ∧ t.Ended j 0x02 3 a1) ∧
        (a0 = 1 → a1 ≤ x.outCap → ∃ t, exec (.exit n) s = .next t ∧ t.Ended j 0x01 0x0801 0) ∧
        (1 < a0 → a1 ≤ x.outCap → ∃ t, exec (.exit n) s = .next t ∧
          t.Ended j 0x0E (if 0x100 ≤ a0 ∧ a0 ≤ 0x1FF then 0x0900 + a0 % 256 else 0x0803) 0)) ∧
      ((∀ i, i < 8 → ((s.ctx k).tickets.get? i).isSome = true) → ∃ t, exec (.submit n) s = .next t ∧
        (t.core n).r = (r.set 0 (intWord (BitVec.allOnes 64))).next ∧ t.jobs = s.jobs) ∧
      (∀ tk y, firstBelow 8 (fun i => ((s.ctx k).tickets.get? i).isNone) = some tk → (r.get 0).tag = .ptr → a0 % 8 = 0 →
        scratchBase k ≤ a0 → a0 + 64 ≤ scratchBase k + 65536 → s.subJobOf n k tk x ((List.range 8).map (fun i =>
          match cLocate n (a0 + 8 * i) with | some w => s.cword w | none => poisonWord)) = some y →
        y.opClass ≠ 5 → y.opClass ≠ 10 → y.opClass ≠ 15 → ∃ t, exec (.submit n) s = .next t ∧
          (t.core n).r = (r.set 0 (intWord (BitVec.ofNat 64 tk))).next ∧ t.job? s.nextJob = some y ∧
          (t.ctx k).tickets.get? tk = some { job := s.nextJob, done := none }) ∧
      (∀ e, (r.get 0).tag = .int → (s.ctx k).tickets.get? a0 = some e →
        (∀ m d l, e.done = some (m, d, l) →
          (∀ c, c ∈ [Instr.wait n, .poll n] → (s.ctx k).blocked = none → ∃ t, exec c s = .next t ∧
            (t.core n).r = ((r.set 1 (intWord (BitVec.ofNat 64 l))).set 0 (intWord (BitVec.ofNat 64 (m * 65536 + d)))).next ∧
            (t.ctx k).tickets.get? a0 = none)) ∧
        (e.done = none →
          (∃ t, exec (.poll n) s = .next t ∧ (t.core n).r = (r.set 0 (intWord (BitVec.ofInt 64 (-3)))).next ∧
            (t.ctx k).tickets = (s.ctx k).tickets) ∧
          (∃ t, exec (.wait n) s = .next t ∧ (t.ctx k).blocked = some a0 ∧ (t.ctx k).tickets = (s.ctx k).tickets))) ∧
      ((r.get 0).tag = .int → (s.ctx k).tickets.get? a0 = none → (s.ctx k).blocked = none →
        ∀ c, c ∈ [Instr.wait n, .poll n] → ∃ t, exec c s = .next t ∧
          (t.core n).r = (r.set 0 (intWord (BitVec.allOnes 64))).next ∧ t.jobs = s.jobs) ∧
      (∃ t, exec (.yield n) s = .next t ∧ (t.ctx k).r = r.next ∧ (t.ctx k).job = some j ∧ t.jobs = s.jobs) ∧
      (∃ t, exec (.time n) s = .next t ∧ (t.core n).r = (r.set 0 (intWord s.glb.ptcBoot)).next ∧ t.jobs = s.jobs) ∧
      (∀ ws, (r.get 0).tag = .ptr → (r.get 1).tag = .int → 0 < a1 → a1 ≤ 4096 → (s.core n).span n a0 a1 = .ok ws →
        (s.serves 5 = true → ∃ t, exec (.random n) s = .next t ∧ (t.core n).r = (r.set 0 (intWord 0)).next ∧
          t.cbytes n a0 a1 = (s.generate 5 a1 []).1 ∧ t.rng = (s.generate 5 a1 []).2.rng) ∧
        (s.serves 5 = false → s.lateNow x = false → ∃ t, exec (.random n) s = .next t ∧
          (t.core n).r = r ∧ (t.ctx k).rndWait = true) ∧
        (s.serves 5 = false → s.lateNow x = true → ∃ t, exec (.random n) s = .next t ∧
          (t.core n).r = (r.set 0 (intWord (BitVec.allOnes 64))).next ∧ (t.ctx k).rndWait = false)))
end

