-- ==== Sys2Proof/Laws/State.lean ====
section
/-! SUPPORT. What each update of the state leaves and what it sets: one lemma per field, so that no proof unfolds a record
update or `State.settle`. -/

namespace Sys2Proof.Machine

/-! ## The end of a command changes GLB_MODE and its PREV only -/

@[simp] theorem State.settle_pins (s : State) : s.settle.pins = s.pins := by unfold State.settle; split <;> rfl
@[simp] theorem State.settle_host (s : State) : s.settle.host = s.host := by unfold State.settle; split <;> rfl
@[simp] theorem State.settle_otp (s : State) : s.settle.otp = s.otp := by unfold State.settle; split <;> rfl
@[simp] theorem State.settle_vigil (s : State) : s.settle.vigil = s.vigil := by unfold State.settle; split <;> rfl
@[simp] theorem State.settle_tmp (s : State) : s.settle.tmp = s.tmp := by unfold State.settle; split <;> rfl
@[simp] theorem State.settle_lcs (s : State) : s.settle.lcs = s.lcs := by unfold State.settle; split <;> rfl
@[simp] theorem State.settle_fns (s : State) : s.settle.fns = s.fns := by unfold State.settle; split <;> rfl
@[simp] theorem State.settle_mbxPend (s : State) : s.settle.mbxPend = s.mbxPend := by unfold State.settle; split <;> rfl
@[simp] theorem State.settle_rings (s : State) : s.settle.rings = s.rings := by unfold State.settle; split <;> rfl
@[simp] theorem State.settle_jobs (s : State) : s.settle.jobs = s.jobs := by unfold State.settle; split <;> rfl
@[simp] theorem State.settle_nextJob (s : State) : s.settle.nextJob = s.nextJob := by unfold State.settle; split <;> rfl
@[simp] theorem State.settle_admissions (s : State) : s.settle.admissions = s.admissions := by unfold State.settle; split <;> rfl
@[simp] theorem State.settle_strands (s : State) : s.settle.strands = s.strands := by unfold State.settle; split <;> rfl
@[simp] theorem State.settle_kst (s : State) : s.settle.kst = s.kst := by unfold State.settle; split <;> rfl
@[simp] theorem State.settle_frames (s : State) : s.settle.frames = s.frames := by unfold State.settle; split <;> rfl
@[simp] theorem State.settle_creels (s : State) : s.settle.creels = s.creels := by unfold State.settle; split <;> rfl
@[simp] theorem State.settle_units (s : State) : s.settle.units = s.units := by unfold State.settle; split <;> rfl
@[simp] theorem State.settle_cap (s : State) : s.settle.cap = s.cap := by unfold State.settle; split <;> rfl
@[simp] theorem State.settle_hdl (s : State) : s.settle.hdl = s.hdl := by unfold State.settle; split <;> rfl
@[simp] theorem State.settle_trc (s : State) : s.settle.trc = s.trc := by unfold State.settle; split <;> rfl
@[simp] theorem State.settle_sht (s : State) : s.settle.sht = s.sht := by unfold State.settle; split <;> rfl
@[simp] theorem State.settle_crx (s : State) : s.settle.crx = s.crx := by unfold State.settle; split <;> rfl
@[simp] theorem State.settle_rng (s : State) : s.settle.rng = s.rng := by unfold State.settle; split <;> rfl
@[simp] theorem State.settle_dge (s : State) : s.settle.dge = s.dge := by unfold State.settle; split <;> rfl
@[simp] theorem State.settle_mcs (s : State) : s.settle.mcs = s.mcs := by unfold State.settle; split <;> rfl
@[simp] theorem State.settle_hbm (s : State) : s.settle.hbm = s.hbm := by unfold State.settle; split <;> rfl
@[simp] theorem State.settle_ply (s : State) : s.settle.ply = s.ply := by unfold State.settle; split <;> rfl
@[simp] theorem State.settle_spl (s : State) : s.settle.spl = s.spl := by unfold State.settle; split <;> rfl
@[simp] theorem State.settle_smb (s : State) : s.settle.smb = s.smb := by unfold State.settle; split <;> rfl
@[simp] theorem State.settle_tap (s : State) : s.settle.tap = s.tap := by unfold State.settle; split <;> rfl
@[simp] theorem State.settle_free (s : State) : s.settle.free = s.free := by unfold State.settle; split <;> rfl
@[simp] theorem State.settle_pending (s : State) : s.settle.pending = s.pending := by unfold State.settle; split <;> rfl
@[simp] theorem State.settle_glb_phase (s : State) : s.settle.glb.phase = s.glb.phase := by unfold State.settle; split <;> rfl
@[simp] theorem State.settle_glb_haltCause (s : State) : s.settle.glb.haltCause = s.glb.haltCause := by unfold State.settle; split <;> rfl
@[simp] theorem State.settle_glb_zeroized (s : State) : s.settle.glb.zeroized = s.glb.zeroized := by unfold State.settle; split <;> rfl
@[simp] theorem State.settle_glb_halted (s : State) : s.settle.glb.halted = s.glb.halted := by unfold State.settle; split <;> rfl
@[simp] theorem State.settle_glb_debug (s : State) : s.settle.glb.debug = s.glb.debug := by unfold State.settle; split <;> rfl
@[simp] theorem State.settle_glb_raw (s : State) : s.settle.glb.raw = s.glb.raw := by unfold State.settle; split <;> rfl
@[simp] theorem State.settle_glb_update (s : State) : s.settle.glb.update = s.glb.update := by unfold State.settle; split <;> rfl
@[simp] theorem State.settle_glb_unseeded (s : State) : s.settle.glb.unseeded = s.glb.unseeded := by unfold State.settle; split <;> rfl
@[simp] theorem State.settle_glb_drain (s : State) : s.settle.glb.drain = s.glb.drain := by unfold State.settle; split <;> rfl
@[simp] theorem State.settle_glb_drainUnder (s : State) : s.settle.glb.drainUnder = s.glb.drainUnder := by unfold State.settle; split <;> rfl
@[simp] theorem State.settle_glb_fail (s : State) : s.settle.glb.fail = s.glb.fail := by unfold State.settle; split <;> rfl
@[simp] theorem State.settle_glb_step (s : State) : s.settle.glb.step = s.glb.step := by unfold State.settle; split <;> rfl
@[simp] theorem State.settle_glb_cause (s : State) : s.settle.glb.cause = s.glb.cause := by unfold State.settle; split <;> rfl
@[simp] theorem State.settle_glb_frozen (s : State) : s.settle.glb.frozen = s.glb.frozen := by unfold State.settle; split <;> rfl
@[simp] theorem State.settle_glb_epochNew (s : State) : s.settle.glb.epochNew = s.glb.epochNew := by unfold State.settle; split <;> rfl
@[simp] theorem State.settle_glb_zeroizedInVigil (s : State) : s.settle.glb.zeroizedInVigil = s.glb.zeroizedInVigil := by unfold State.settle; split <;> rfl
@[simp] theorem State.settle_glb_lcResumed (s : State) : s.settle.glb.lcResumed = s.glb.lcResumed := by unfold State.settle; split <;> rfl
@[simp] theorem State.settle_glb_firstStart (s : State) : s.settle.glb.firstStart = s.glb.firstStart := by unfold State.settle; split <;> rfl
@[simp] theorem State.settle_glb_drsSlot (s : State) : s.settle.glb.drsSlot = s.glb.drsSlot := by unfold State.settle; split <;> rfl
@[simp] theorem State.settle_glb_drsSlot0Spoiled (s : State) : s.settle.glb.drsSlot0Spoiled = s.glb.drsSlot0Spoiled := by unfold State.settle; split <;> rfl
@[simp] theorem State.settle_glb_creelHeld (s : State) : s.settle.glb.creelHeld = s.glb.creelHeld := by unfold State.settle; split <;> rfl
@[simp] theorem State.settle_glb_lock (s : State) : s.settle.glb.lock = s.glb.lock := by unfold State.settle; split <;> rfl
@[simp] theorem State.settle_glb_ptcBoot (s : State) : s.settle.glb.ptcBoot = s.glb.ptcBoot := by unfold State.settle; split <;> rfl
@[simp] theorem State.settle_glb_ptcBootLatch (s : State) : s.settle.glb.ptcBootLatch = s.glb.ptcBootLatch := by unfold State.settle; split <;> rfl
@[simp] theorem State.settle_glb_ptcLife (s : State) : s.settle.glb.ptcLife = s.glb.ptcLife := by unfold State.settle; split <;> rfl
@[simp] theorem State.settle_glb_lifeAt (s : State) : s.settle.glb.lifeAt = s.glb.lifeAt := by unfold State.settle; split <;> rfl
@[simp] theorem State.settle_glb_boots (s : State) : s.settle.glb.boots = s.glb.boots := by unfold State.settle; split <;> rfl
@[simp] theorem State.settle_glb_bootsRestarted (s : State) : s.settle.glb.bootsRestarted = s.glb.bootsRestarted := by unfold State.settle; split <;> rfl
@[simp] theorem State.settle_glb_lifeSrc (s : State) : s.settle.glb.lifeSrc = s.glb.lifeSrc := by unfold State.settle; split <;> rfl
@[simp] theorem State.settle_glb_oscUsed (s : State) : s.settle.glb.oscUsed = s.glb.oscUsed := by unfold State.settle; split <;> rfl
@[simp] theorem State.settle_glb_osc (s : State) : s.settle.glb.osc = s.glb.osc := by unfold State.settle; split <;> rfl
@[simp] theorem State.settle_glb_ringsOpen (s : State) : s.settle.glb.ringsOpen = s.glb.ringsOpen := by unfold State.settle; split <;> rfl
@[simp] theorem State.settle_glb_root (s : State) : s.settle.glb.root = s.glb.root := by unfold State.settle; split <;> rfl
@[simp] theorem State.settle_glb_zeroizedThisBoot (s : State) : s.settle.glb.zeroizedThisBoot = s.glb.zeroizedThisBoot := by unfold State.settle; split <;> rfl
@[simp] theorem State.settle_glb_debugThisBoot (s : State) : s.settle.glb.debugThisBoot = s.glb.debugThisBoot := by unfold State.settle; split <;> rfl
@[simp] theorem State.settle_glb_seededThisBoot (s : State) : s.settle.glb.seededThisBoot = s.glb.seededThisBoot := by unfold State.settle; split <;> rfl
@[simp] theorem State.settle_glb_nextCause (s : State) : s.settle.glb.nextCause = s.glb.nextCause := by unfold State.settle; split <;> rfl
@[simp] theorem State.settle_glb_resetDue (s : State) : s.settle.glb.resetDue = s.glb.resetDue := by unfold State.settle; split <;> rfl
@[simp] theorem State.settle_glb_resetJob (s : State) : s.settle.glb.resetJob = s.glb.resetJob := by unfold State.settle; split <;> rfl
@[simp] theorem State.settle_glb_tripped (s : State) : s.settle.glb.tripped = s.glb.tripped := by unfold State.settle; split <;> rfl
@[simp] theorem State.settle_glb_vigilSeen (s : State) : s.settle.glb.vigilSeen = s.glb.vigilSeen := by unfold State.settle; split <;> rfl
@[simp] theorem State.settle_glb_lifeSeen (s : State) : s.settle.glb.lifeSeen = s.glb.lifeSeen := by unfold State.settle; split <;> rfl
@[simp] theorem State.settle_glb_failCauses (s : State) : s.settle.glb.failCauses = s.glb.failCauses := by unfold State.settle; split <;> rfl
@[simp] theorem State.settle_glb_drainWaiters (s : State) : s.settle.glb.drainWaiters = s.glb.drainWaiters := by unfold State.settle; split <;> rfl

/-! ## Setting a part of the state leaves the other parts -/

@[simp] theorem State.setPage_glb (s : State) (f : Nat) (x : FnPage) : (s.setPage f x).glb = s.glb := rfl
@[simp] theorem State.setPage_pins (s : State) (f : Nat) (x : FnPage) : (s.setPage f x).pins = s.pins := rfl
@[simp] theorem State.setPage_host (s : State) (f : Nat) (x : FnPage) : (s.setPage f x).host = s.host := rfl
@[simp] theorem State.setPage_otp (s : State) (f : Nat) (x : FnPage) : (s.setPage f x).otp = s.otp := rfl
@[simp] theorem State.setPage_vigil (s : State) (f : Nat) (x : FnPage) : (s.setPage f x).vigil = s.vigil := rfl
@[simp] theorem State.setPage_tmp (s : State) (f : Nat) (x : FnPage) : (s.setPage f x).tmp = s.tmp := rfl
@[simp] theorem State.setPage_lcs (s : State) (f : Nat) (x : FnPage) : (s.setPage f x).lcs = s.lcs := rfl
@[simp] theorem State.setPage_mbxPend (s : State) (f : Nat) (x : FnPage) : (s.setPage f x).mbxPend = s.mbxPend := rfl
@[simp] theorem State.setPage_rings (s : State) (f : Nat) (x : FnPage) : (s.setPage f x).rings = s.rings := rfl
@[simp] theorem State.setPage_jobs (s : State) (f : Nat) (x : FnPage) : (s.setPage f x).jobs = s.jobs := rfl
@[simp] theorem State.setPage_nextJob (s : State) (f : Nat) (x : FnPage) : (s.setPage f x).nextJob = s.nextJob := rfl
@[simp] theorem State.setPage_admissions (s : State) (f : Nat) (x : FnPage) : (s.setPage f x).admissions = s.admissions := rfl
@[simp] theorem State.setPage_strands (s : State) (f : Nat) (x : FnPage) : (s.setPage f x).strands = s.strands := rfl
@[simp] theorem State.setPage_kst (s : State) (f : Nat) (x : FnPage) : (s.setPage f x).kst = s.kst := rfl
@[simp] theorem State.setPage_frames (s : State) (f : Nat) (x : FnPage) : (s.setPage f x).frames = s.frames := rfl
@[simp] theorem State.setPage_creels (s : State) (f : Nat) (x : FnPage) : (s.setPage f x).creels = s.creels := rfl
@[simp] theorem State.setPage_units (s : State) (f : Nat) (x : FnPage) : (s.setPage f x).units = s.units := rfl
@[simp] theorem State.setPage_cap (s : State) (f : Nat) (x : FnPage) : (s.setPage f x).cap = s.cap := rfl
@[simp] theorem State.setPage_hdl (s : State) (f : Nat) (x : FnPage) : (s.setPage f x).hdl = s.hdl := rfl
@[simp] theorem State.setPage_trc (s : State) (f : Nat) (x : FnPage) : (s.setPage f x).trc = s.trc := rfl
@[simp] theorem State.setPage_sht (s : State) (f : Nat) (x : FnPage) : (s.setPage f x).sht = s.sht := rfl
@[simp] theorem State.setPage_crx (s : State) (f : Nat) (x : FnPage) : (s.setPage f x).crx = s.crx := rfl
@[simp] theorem State.setPage_rng (s : State) (f : Nat) (x : FnPage) : (s.setPage f x).rng = s.rng := rfl
@[simp] theorem State.setPage_dge (s : State) (f : Nat) (x : FnPage) : (s.setPage f x).dge = s.dge := rfl
@[simp] theorem State.setPage_mcs (s : State) (f : Nat) (x : FnPage) : (s.setPage f x).mcs = s.mcs := rfl
@[simp] theorem State.setPage_hbm (s : State) (f : Nat) (x : FnPage) : (s.setPage f x).hbm = s.hbm := rfl
@[simp] theorem State.setPage_ply (s : State) (f : Nat) (x : FnPage) : (s.setPage f x).ply = s.ply := rfl
@[simp] theorem State.setPage_spl (s : State) (f : Nat) (x : FnPage) : (s.setPage f x).spl = s.spl := rfl
@[simp] theorem State.setPage_smb (s : State) (f : Nat) (x : FnPage) : (s.setPage f x).smb = s.smb := rfl
@[simp] theorem State.setPage_tap (s : State) (f : Nat) (x : FnPage) : (s.setPage f x).tap = s.tap := rfl
@[simp] theorem State.setPage_free (s : State) (f : Nat) (x : FnPage) : (s.setPage f x).free = s.free := rfl
@[simp] theorem State.setPage_pending (s : State) (f : Nat) (x : FnPage) : (s.setPage f x).pending = s.pending := rfl
@[simp] theorem State.setRing_glb (s : State) (f r : Nat) (x : Ring) : (s.setRing f r x).glb = s.glb := rfl
@[simp] theorem State.setRing_pins (s : State) (f r : Nat) (x : Ring) : (s.setRing f r x).pins = s.pins := rfl
@[simp] theorem State.setRing_host (s : State) (f r : Nat) (x : Ring) : (s.setRing f r x).host = s.host := rfl
@[simp] theorem State.setRing_otp (s : State) (f r : Nat) (x : Ring) : (s.setRing f r x).otp = s.otp := rfl
@[simp] theorem State.setRing_vigil (s : State) (f r : Nat) (x : Ring) : (s.setRing f r x).vigil = s.vigil := rfl
@[simp] theorem State.setRing_tmp (s : State) (f r : Nat) (x : Ring) : (s.setRing f r x).tmp = s.tmp := rfl
@[simp] theorem State.setRing_lcs (s : State) (f r : Nat) (x : Ring) : (s.setRing f r x).lcs = s.lcs := rfl
@[simp] theorem State.setRing_fns (s : State) (f r : Nat) (x : Ring) : (s.setRing f r x).fns = s.fns := rfl
@[simp] theorem State.setRing_mbxPend (s : State) (f r : Nat) (x : Ring) : (s.setRing f r x).mbxPend = s.mbxPend := rfl
@[simp] theorem State.setRing_jobs (s : State) (f r : Nat) (x : Ring) : (s.setRing f r x).jobs = s.jobs := rfl
@[simp] theorem State.setRing_nextJob (s : State) (f r : Nat) (x : Ring) : (s.setRing f r x).nextJob = s.nextJob := rfl
@[simp] theorem State.setRing_admissions (s : State) (f r : Nat) (x : Ring) : (s.setRing f r x).admissions = s.admissions := rfl
@[simp] theorem State.setRing_strands (s : State) (f r : Nat) (x : Ring) : (s.setRing f r x).strands = s.strands := rfl
@[simp] theorem State.setRing_kst (s : State) (f r : Nat) (x : Ring) : (s.setRing f r x).kst = s.kst := rfl
@[simp] theorem State.setRing_frames (s : State) (f r : Nat) (x : Ring) : (s.setRing f r x).frames = s.frames := rfl
@[simp] theorem State.setRing_creels (s : State) (f r : Nat) (x : Ring) : (s.setRing f r x).creels = s.creels := rfl
@[simp] theorem State.setRing_units (s : State) (f r : Nat) (x : Ring) : (s.setRing f r x).units = s.units := rfl
@[simp] theorem State.setRing_cap (s : State) (f r : Nat) (x : Ring) : (s.setRing f r x).cap = s.cap := rfl
@[simp] theorem State.setRing_hdl (s : State) (f r : Nat) (x : Ring) : (s.setRing f r x).hdl = s.hdl := rfl
@[simp] theorem State.setRing_trc (s : State) (f r : Nat) (x : Ring) : (s.setRing f r x).trc = s.trc := rfl
@[simp] theorem State.setRing_sht (s : State) (f r : Nat) (x : Ring) : (s.setRing f r x).sht = s.sht := rfl
@[simp] theorem State.setRing_crx (s : State) (f r : Nat) (x : Ring) : (s.setRing f r x).crx = s.crx := rfl
@[simp] theorem State.setRing_rng (s : State) (f r : Nat) (x : Ring) : (s.setRing f r x).rng = s.rng := rfl
@[simp] theorem State.setRing_dge (s : State) (f r : Nat) (x : Ring) : (s.setRing f r x).dge = s.dge := rfl
@[simp] theorem State.setRing_mcs (s : State) (f r : Nat) (x : Ring) : (s.setRing f r x).mcs = s.mcs := rfl
@[simp] theorem State.setRing_hbm (s : State) (f r : Nat) (x : Ring) : (s.setRing f r x).hbm = s.hbm := rfl
@[simp] theorem State.setRing_ply (s : State) (f r : Nat) (x : Ring) : (s.setRing f r x).ply = s.ply := rfl
@[simp] theorem State.setRing_spl (s : State) (f r : Nat) (x : Ring) : (s.setRing f r x).spl = s.spl := rfl
@[simp] theorem State.setRing_smb (s : State) (f r : Nat) (x : Ring) : (s.setRing f r x).smb = s.smb := rfl
@[simp] theorem State.setRing_tap (s : State) (f r : Nat) (x : Ring) : (s.setRing f r x).tap = s.tap := rfl
@[simp] theorem State.setRing_free (s : State) (f r : Nat) (x : Ring) : (s.setRing f r x).free = s.free := rfl
@[simp] theorem State.setRing_pending (s : State) (f r : Nat) (x : Ring) : (s.setRing f r x).pending = s.pending := rfl
@[simp] theorem State.setJob_glb (s : State) (j : Nat) (x : Job) : (s.setJob j x).glb = s.glb := rfl
@[simp] theorem State.setJob_pins (s : State) (j : Nat) (x : Job) : (s.setJob j x).pins = s.pins := rfl
@[simp] theorem State.setJob_host (s : State) (j : Nat) (x : Job) : (s.setJob j x).host = s.host := rfl
@[simp] theorem State.setJob_otp (s : State) (j : Nat) (x : Job) : (s.setJob j x).otp = s.otp := rfl
@[simp] theorem State.setJob_vigil (s : State) (j : Nat) (x : Job) : (s.setJob j x).vigil = s.vigil := rfl
@[simp] theorem State.setJob_tmp (s : State) (j : Nat) (x : Job) : (s.setJob j x).tmp = s.tmp := rfl
@[simp] theorem State.setJob_lcs (s : State) (j : Nat) (x : Job) : (s.setJob j x).lcs = s.lcs := rfl
@[simp] theorem State.setJob_fns (s : State) (j : Nat) (x : Job) : (s.setJob j x).fns = s.fns := rfl
@[simp] theorem State.setJob_mbxPend (s : State) (j : Nat) (x : Job) : (s.setJob j x).mbxPend = s.mbxPend := rfl
@[simp] theorem State.setJob_rings (s : State) (j : Nat) (x : Job) : (s.setJob j x).rings = s.rings := rfl
@[simp] theorem State.setJob_nextJob (s : State) (j : Nat) (x : Job) : (s.setJob j x).nextJob = s.nextJob := rfl
@[simp] theorem State.setJob_admissions (s : State) (j : Nat) (x : Job) : (s.setJob j x).admissions = s.admissions := rfl
@[simp] theorem State.setJob_strands (s : State) (j : Nat) (x : Job) : (s.setJob j x).strands = s.strands := rfl
@[simp] theorem State.setJob_kst (s : State) (j : Nat) (x : Job) : (s.setJob j x).kst = s.kst := rfl
@[simp] theorem State.setJob_frames (s : State) (j : Nat) (x : Job) : (s.setJob j x).frames = s.frames := rfl
@[simp] theorem State.setJob_creels (s : State) (j : Nat) (x : Job) : (s.setJob j x).creels = s.creels := rfl
@[simp] theorem State.setJob_units (s : State) (j : Nat) (x : Job) : (s.setJob j x).units = s.units := rfl
@[simp] theorem State.setJob_cap (s : State) (j : Nat) (x : Job) : (s.setJob j x).cap = s.cap := rfl
@[simp] theorem State.setJob_hdl (s : State) (j : Nat) (x : Job) : (s.setJob j x).hdl = s.hdl := rfl
@[simp] theorem State.setJob_trc (s : State) (j : Nat) (x : Job) : (s.setJob j x).trc = s.trc := rfl
@[simp] theorem State.setJob_sht (s : State) (j : Nat) (x : Job) : (s.setJob j x).sht = s.sht := rfl
@[simp] theorem State.setJob_crx (s : State) (j : Nat) (x : Job) : (s.setJob j x).crx = s.crx := rfl
@[simp] theorem State.setJob_rng (s : State) (j : Nat) (x : Job) : (s.setJob j x).rng = s.rng := rfl
@[simp] theorem State.setJob_dge (s : State) (j : Nat) (x : Job) : (s.setJob j x).dge = s.dge := rfl
@[simp] theorem State.setJob_mcs (s : State) (j : Nat) (x : Job) : (s.setJob j x).mcs = s.mcs := rfl
@[simp] theorem State.setJob_hbm (s : State) (j : Nat) (x : Job) : (s.setJob j x).hbm = s.hbm := rfl
@[simp] theorem State.setJob_ply (s : State) (j : Nat) (x : Job) : (s.setJob j x).ply = s.ply := rfl
@[simp] theorem State.setJob_spl (s : State) (j : Nat) (x : Job) : (s.setJob j x).spl = s.spl := rfl
@[simp] theorem State.setJob_smb (s : State) (j : Nat) (x : Job) : (s.setJob j x).smb = s.smb := rfl
@[simp] theorem State.setJob_tap (s : State) (j : Nat) (x : Job) : (s.setJob j x).tap = s.tap := rfl
@[simp] theorem State.setJob_free (s : State) (j : Nat) (x : Job) : (s.setJob j x).free = s.free := rfl
@[simp] theorem State.setJob_pending (s : State) (j : Nat) (x : Job) : (s.setJob j x).pending = s.pending := rfl
@[simp] theorem State.setFrame_glb (s : State) (f : Nat) (x : Frame) : (s.setFrame f x).glb = s.glb := rfl
@[simp] theorem State.setFrame_pins (s : State) (f : Nat) (x : Frame) : (s.setFrame f x).pins = s.pins := rfl
@[simp] theorem State.setFrame_host (s : State) (f : Nat) (x : Frame) : (s.setFrame f x).host = s.host := rfl
@[simp] theorem State.setFrame_otp (s : State) (f : Nat) (x : Frame) : (s.setFrame f x).otp = s.otp := rfl
@[simp] theorem State.setFrame_vigil (s : State) (f : Nat) (x : Frame) : (s.setFrame f x).vigil = s.vigil := rfl
@[simp] theorem State.setFrame_tmp (s : State) (f : Nat) (x : Frame) : (s.setFrame f x).tmp = s.tmp := rfl
@[simp] theorem State.setFrame_lcs (s : State) (f : Nat) (x : Frame) : (s.setFrame f x).lcs = s.lcs := rfl
@[simp] theorem State.setFrame_fns (s : State) (f : Nat) (x : Frame) : (s.setFrame f x).fns = s.fns := rfl
@[simp] theorem State.setFrame_mbxPend (s : State) (f : Nat) (x : Frame) : (s.setFrame f x).mbxPend = s.mbxPend := rfl
@[simp] theorem State.setFrame_rings (s : State) (f : Nat) (x : Frame) : (s.setFrame f x).rings = s.rings := rfl
@[simp] theorem State.setFrame_jobs (s : State) (f : Nat) (x : Frame) : (s.setFrame f x).jobs = s.jobs := rfl
@[simp] theorem State.setFrame_nextJob (s : State) (f : Nat) (x : Frame) : (s.setFrame f x).nextJob = s.nextJob := rfl
@[simp] theorem State.setFrame_admissions (s : State) (f : Nat) (x : Frame) : (s.setFrame f x).admissions = s.admissions := rfl
@[simp] theorem State.setFrame_strands (s : State) (f : Nat) (x : Frame) : (s.setFrame f x).strands = s.strands := rfl
@[simp] theorem State.setFrame_kst (s : State) (f : Nat) (x : Frame) : (s.setFrame f x).kst = s.kst := rfl
@[simp] theorem State.setFrame_creels (s : State) (f : Nat) (x : Frame) : (s.setFrame f x).creels = s.creels := rfl
@[simp] theorem State.setFrame_units (s : State) (f : Nat) (x : Frame) : (s.setFrame f x).units = s.units := rfl
@[simp] theorem State.setFrame_cap (s : State) (f : Nat) (x : Frame) : (s.setFrame f x).cap = s.cap := rfl
@[simp] theorem State.setFrame_hdl (s : State) (f : Nat) (x : Frame) : (s.setFrame f x).hdl = s.hdl := rfl
@[simp] theorem State.setFrame_trc (s : State) (f : Nat) (x : Frame) : (s.setFrame f x).trc = s.trc := rfl
@[simp] theorem State.setFrame_sht (s : State) (f : Nat) (x : Frame) : (s.setFrame f x).sht = s.sht := rfl
@[simp] theorem State.setFrame_crx (s : State) (f : Nat) (x : Frame) : (s.setFrame f x).crx = s.crx := rfl
@[simp] theorem State.setFrame_rng (s : State) (f : Nat) (x : Frame) : (s.setFrame f x).rng = s.rng := rfl
@[simp] theorem State.setFrame_dge (s : State) (f : Nat) (x : Frame) : (s.setFrame f x).dge = s.dge := rfl
@[simp] theorem State.setFrame_mcs (s : State) (f : Nat) (x : Frame) : (s.setFrame f x).mcs = s.mcs := rfl
@[simp] theorem State.setFrame_hbm (s : State) (f : Nat) (x : Frame) : (s.setFrame f x).hbm = s.hbm := rfl
@[simp] theorem State.setFrame_ply (s : State) (f : Nat) (x : Frame) : (s.setFrame f x).ply = s.ply := rfl
@[simp] theorem State.setFrame_spl (s : State) (f : Nat) (x : Frame) : (s.setFrame f x).spl = s.spl := rfl
@[simp] theorem State.setFrame_smb (s : State) (f : Nat) (x : Frame) : (s.setFrame f x).smb = s.smb := rfl
@[simp] theorem State.setFrame_tap (s : State) (f : Nat) (x : Frame) : (s.setFrame f x).tap = s.tap := rfl
@[simp] theorem State.setFrame_free (s : State) (f : Nat) (x : Frame) : (s.setFrame f x).free = s.free := rfl
@[simp] theorem State.setFrame_pending (s : State) (f : Nat) (x : Frame) : (s.setFrame f x).pending = s.pending := rfl
@[simp] theorem State.setCreel_glb (s : State) (f c : Nat) (x : Creel) : (s.setCreel f c x).glb = s.glb := rfl
@[simp] theorem State.setCreel_pins (s : State) (f c : Nat) (x : Creel) : (s.setCreel f c x).pins = s.pins := rfl
@[simp] theorem State.setCreel_host (s : State) (f c : Nat) (x : Creel) : (s.setCreel f c x).host = s.host := rfl
@[simp] theorem State.setCreel_otp (s : State) (f c : Nat) (x : Creel) : (s.setCreel f c x).otp = s.otp := rfl
@[simp] theorem State.setCreel_vigil (s : State) (f c : Nat) (x : Creel) : (s.setCreel f c x).vigil = s.vigil := rfl
@[simp] theorem State.setCreel_tmp (s : State) (f c : Nat) (x : Creel) : (s.setCreel f c x).tmp = s.tmp := rfl
@[simp] theorem State.setCreel_lcs (s : State) (f c : Nat) (x : Creel) : (s.setCreel f c x).lcs = s.lcs := rfl
@[simp] theorem State.setCreel_fns (s : State) (f c : Nat) (x : Creel) : (s.setCreel f c x).fns = s.fns := rfl
@[simp] theorem State.setCreel_mbxPend (s : State) (f c : Nat) (x : Creel) : (s.setCreel f c x).mbxPend = s.mbxPend := rfl
@[simp] theorem State.setCreel_rings (s : State) (f c : Nat) (x : Creel) : (s.setCreel f c x).rings = s.rings := rfl
@[simp] theorem State.setCreel_jobs (s : State) (f c : Nat) (x : Creel) : (s.setCreel f c x).jobs = s.jobs := rfl
@[simp] theorem State.setCreel_nextJob (s : State) (f c : Nat) (x : Creel) : (s.setCreel f c x).nextJob = s.nextJob := rfl
@[simp] theorem State.setCreel_admissions (s : State) (f c : Nat) (x : Creel) : (s.setCreel f c x).admissions = s.admissions := rfl
@[simp] theorem State.setCreel_strands (s : State) (f c : Nat) (x : Creel) : (s.setCreel f c x).strands = s.strands := rfl
@[simp] theorem State.setCreel_kst (s : State) (f c : Nat) (x : Creel) : (s.setCreel f c x).kst = s.kst := rfl
@[simp] theorem State.setCreel_frames (s : State) (f c : Nat) (x : Creel) : (s.setCreel f c x).frames = s.frames := rfl
@[simp] theorem State.setCreel_units (s : State) (f c : Nat) (x : Creel) : (s.setCreel f c x).units = s.units := rfl
@[simp] theorem State.setCreel_cap (s : State) (f c : Nat) (x : Creel) : (s.setCreel f c x).cap = s.cap := rfl
@[simp] theorem State.setCreel_hdl (s : State) (f c : Nat) (x : Creel) : (s.setCreel f c x).hdl = s.hdl := rfl
@[simp] theorem State.setCreel_trc (s : State) (f c : Nat) (x : Creel) : (s.setCreel f c x).trc = s.trc := rfl
@[simp] theorem State.setCreel_sht (s : State) (f c : Nat) (x : Creel) : (s.setCreel f c x).sht = s.sht := rfl
@[simp] theorem State.setCreel_crx (s : State) (f c : Nat) (x : Creel) : (s.setCreel f c x).crx = s.crx := rfl
@[simp] theorem State.setCreel_rng (s : State) (f c : Nat) (x : Creel) : (s.setCreel f c x).rng = s.rng := rfl
@[simp] theorem State.setCreel_dge (s : State) (f c : Nat) (x : Creel) : (s.setCreel f c x).dge = s.dge := rfl
@[simp] theorem State.setCreel_mcs (s : State) (f c : Nat) (x : Creel) : (s.setCreel f c x).mcs = s.mcs := rfl
@[simp] theorem State.setCreel_hbm (s : State) (f c : Nat) (x : Creel) : (s.setCreel f c x).hbm = s.hbm := rfl
@[simp] theorem State.setCreel_ply (s : State) (f c : Nat) (x : Creel) : (s.setCreel f c x).ply = s.ply := rfl
@[simp] theorem State.setCreel_spl (s : State) (f c : Nat) (x : Creel) : (s.setCreel f c x).spl = s.spl := rfl
@[simp] theorem State.setCreel_smb (s : State) (f c : Nat) (x : Creel) : (s.setCreel f c x).smb = s.smb := rfl
@[simp] theorem State.setCreel_tap (s : State) (f c : Nat) (x : Creel) : (s.setCreel f c x).tap = s.tap := rfl
@[simp] theorem State.setCreel_free (s : State) (f c : Nat) (x : Creel) : (s.setCreel f c x).free = s.free := rfl
@[simp] theorem State.setCreel_pending (s : State) (f c : Nat) (x : Creel) : (s.setCreel f c x).pending = s.pending := rfl
@[simp] theorem State.setUnit_glb (s : State) (f c u : Nat) (x : Unit') : (s.setUnit f c u x).glb = s.glb := rfl
@[simp] theorem State.setUnit_pins (s : State) (f c u : Nat) (x : Unit') : (s.setUnit f c u x).pins = s.pins := rfl
@[simp] theorem State.setUnit_host (s : State) (f c u : Nat) (x : Unit') : (s.setUnit f c u x).host = s.host := rfl
@[simp] theorem State.setUnit_otp (s : State) (f c u : Nat) (x : Unit') : (s.setUnit f c u x).otp = s.otp := rfl
@[simp] theorem State.setUnit_vigil (s : State) (f c u : Nat) (x : Unit') : (s.setUnit f c u x).vigil = s.vigil := rfl
@[simp] theorem State.setUnit_tmp (s : State) (f c u : Nat) (x : Unit') : (s.setUnit f c u x).tmp = s.tmp := rfl
@[simp] theorem State.setUnit_lcs (s : State) (f c u : Nat) (x : Unit') : (s.setUnit f c u x).lcs = s.lcs := rfl
@[simp] theorem State.setUnit_fns (s : State) (f c u : Nat) (x : Unit') : (s.setUnit f c u x).fns = s.fns := rfl
@[simp] theorem State.setUnit_mbxPend (s : State) (f c u : Nat) (x : Unit') : (s.setUnit f c u x).mbxPend = s.mbxPend := rfl
@[simp] theorem State.setUnit_rings (s : State) (f c u : Nat) (x : Unit') : (s.setUnit f c u x).rings = s.rings := rfl
@[simp] theorem State.setUnit_jobs (s : State) (f c u : Nat) (x : Unit') : (s.setUnit f c u x).jobs = s.jobs := rfl
@[simp] theorem State.setUnit_nextJob (s : State) (f c u : Nat) (x : Unit') : (s.setUnit f c u x).nextJob = s.nextJob := rfl
@[simp] theorem State.setUnit_admissions (s : State) (f c u : Nat) (x : Unit') : (s.setUnit f c u x).admissions = s.admissions := rfl
@[simp] theorem State.setUnit_strands (s : State) (f c u : Nat) (x : Unit') : (s.setUnit f c u x).strands = s.strands := rfl
@[simp] theorem State.setUnit_kst (s : State) (f c u : Nat) (x : Unit') : (s.setUnit f c u x).kst = s.kst := rfl
@[simp] theorem State.setUnit_frames (s : State) (f c u : Nat) (x : Unit') : (s.setUnit f c u x).frames = s.frames := rfl
@[simp] theorem State.setUnit_creels (s : State) (f c u : Nat) (x : Unit') : (s.setUnit f c u x).creels = s.creels := rfl
@[simp] theorem State.setUnit_cap (s : State) (f c u : Nat) (x : Unit') : (s.setUnit f c u x).cap = s.cap := rfl
@[simp] theorem State.setUnit_hdl (s : State) (f c u : Nat) (x : Unit') : (s.setUnit f c u x).hdl = s.hdl := rfl
@[simp] theorem State.setUnit_trc (s : State) (f c u : Nat) (x : Unit') : (s.setUnit f c u x).trc = s.trc := rfl
@[simp] theorem State.setUnit_sht (s : State) (f c u : Nat) (x : Unit') : (s.setUnit f c u x).sht = s.sht := rfl
@[simp] theorem State.setUnit_crx (s : State) (f c u : Nat) (x : Unit') : (s.setUnit f c u x).crx = s.crx := rfl
@[simp] theorem State.setUnit_rng (s : State) (f c u : Nat) (x : Unit') : (s.setUnit f c u x).rng = s.rng := rfl
@[simp] theorem State.setUnit_dge (s : State) (f c u : Nat) (x : Unit') : (s.setUnit f c u x).dge = s.dge := rfl
@[simp] theorem State.setUnit_mcs (s : State) (f c u : Nat) (x : Unit') : (s.setUnit f c u x).mcs = s.mcs := rfl
@[simp] theorem State.setUnit_hbm (s : State) (f c u : Nat) (x : Unit') : (s.setUnit f c u x).hbm = s.hbm := rfl
@[simp] theorem State.setUnit_ply (s : State) (f c u : Nat) (x : Unit') : (s.setUnit f c u x).ply = s.ply := rfl
@[simp] theorem State.setUnit_spl (s : State) (f c u : Nat) (x : Unit') : (s.setUnit f c u x).spl = s.spl := rfl
@[simp] theorem State.setUnit_smb (s : State) (f c u : Nat) (x : Unit') : (s.setUnit f c u x).smb = s.smb := rfl
@[simp] theorem State.setUnit_tap (s : State) (f c u : Nat) (x : Unit') : (s.setUnit f c u x).tap = s.tap := rfl
@[simp] theorem State.setUnit_free (s : State) (f c u : Nat) (x : Unit') : (s.setUnit f c u x).free = s.free := rfl
@[simp] theorem State.setUnit_pending (s : State) (f c u : Nat) (x : Unit') : (s.setUnit f c u x).pending = s.pending := rfl
@[simp] theorem State.setCore_glb (s : State) (n : Nat) (x : Core) : (s.setCore n x).glb = s.glb := rfl
@[simp] theorem State.setCore_pins (s : State) (n : Nat) (x : Core) : (s.setCore n x).pins = s.pins := rfl
@[simp] theorem State.setCore_host (s : State) (n : Nat) (x : Core) : (s.setCore n x).host = s.host := rfl
@[simp] theorem State.setCore_otp (s : State) (n : Nat) (x : Core) : (s.setCore n x).otp = s.otp := rfl
@[simp] theorem State.setCore_vigil (s : State) (n : Nat) (x : Core) : (s.setCore n x).vigil = s.vigil := rfl
@[simp] theorem State.setCore_tmp (s : State) (n : Nat) (x : Core) : (s.setCore n x).tmp = s.tmp := rfl
@[simp] theorem State.setCore_lcs (s : State) (n : Nat) (x : Core) : (s.setCore n x).lcs = s.lcs := rfl
@[simp] theorem State.setCore_fns (s : State) (n : Nat) (x : Core) : (s.setCore n x).fns = s.fns := rfl
@[simp] theorem State.setCore_mbxPend (s : State) (n : Nat) (x : Core) : (s.setCore n x).mbxPend = s.mbxPend := rfl
@[simp] theorem State.setCore_rings (s : State) (n : Nat) (x : Core) : (s.setCore n x).rings = s.rings := rfl
@[simp] theorem State.setCore_jobs (s : State) (n : Nat) (x : Core) : (s.setCore n x).jobs = s.jobs := rfl
@[simp] theorem State.setCore_nextJob (s : State) (n : Nat) (x : Core) : (s.setCore n x).nextJob = s.nextJob := rfl
@[simp] theorem State.setCore_admissions (s : State) (n : Nat) (x : Core) : (s.setCore n x).admissions = s.admissions := rfl
@[simp] theorem State.setCore_strands (s : State) (n : Nat) (x : Core) : (s.setCore n x).strands = s.strands := rfl
@[simp] theorem State.setCore_kst (s : State) (n : Nat) (x : Core) : (s.setCore n x).kst = s.kst := rfl
@[simp] theorem State.setCore_frames (s : State) (n : Nat) (x : Core) : (s.setCore n x).frames = s.frames := rfl
@[simp] theorem State.setCore_creels (s : State) (n : Nat) (x : Core) : (s.setCore n x).creels = s.creels := rfl
@[simp] theorem State.setCore_units (s : State) (n : Nat) (x : Core) : (s.setCore n x).units = s.units := rfl
@[simp] theorem State.setCore_cap (s : State) (n : Nat) (x : Core) : (s.setCore n x).cap = s.cap := rfl
@[simp] theorem State.setCore_hdl (s : State) (n : Nat) (x : Core) : (s.setCore n x).hdl = s.hdl := rfl
@[simp] theorem State.setCore_trc (s : State) (n : Nat) (x : Core) : (s.setCore n x).trc = s.trc := rfl
@[simp] theorem State.setCore_sht (s : State) (n : Nat) (x : Core) : (s.setCore n x).sht = s.sht := rfl
@[simp] theorem State.setCore_rng (s : State) (n : Nat) (x : Core) : (s.setCore n x).rng = s.rng := rfl
@[simp] theorem State.setCore_dge (s : State) (n : Nat) (x : Core) : (s.setCore n x).dge = s.dge := rfl
@[simp] theorem State.setCore_mcs (s : State) (n : Nat) (x : Core) : (s.setCore n x).mcs = s.mcs := rfl
@[simp] theorem State.setCore_hbm (s : State) (n : Nat) (x : Core) : (s.setCore n x).hbm = s.hbm := rfl
@[simp] theorem State.setCore_ply (s : State) (n : Nat) (x : Core) : (s.setCore n x).ply = s.ply := rfl
@[simp] theorem State.setCore_spl (s : State) (n : Nat) (x : Core) : (s.setCore n x).spl = s.spl := rfl
@[simp] theorem State.setCore_smb (s : State) (n : Nat) (x : Core) : (s.setCore n x).smb = s.smb := rfl
@[simp] theorem State.setCore_tap (s : State) (n : Nat) (x : Core) : (s.setCore n x).tap = s.tap := rfl
@[simp] theorem State.setCore_free (s : State) (n : Nat) (x : Core) : (s.setCore n x).free = s.free := rfl
@[simp] theorem State.setCore_pending (s : State) (n : Nat) (x : Core) : (s.setCore n x).pending = s.pending := rfl
@[simp] theorem State.setCtx_glb (s : State) (n : Nat) (x : Ctx) : (s.setCtx n x).glb = s.glb := rfl
@[simp] theorem State.setCtx_pins (s : State) (n : Nat) (x : Ctx) : (s.setCtx n x).pins = s.pins := rfl
@[simp] theorem State.setCtx_host (s : State) (n : Nat) (x : Ctx) : (s.setCtx n x).host = s.host := rfl
@[simp] theorem State.setCtx_otp (s : State) (n : Nat) (x : Ctx) : (s.setCtx n x).otp = s.otp := rfl
@[simp] theorem State.setCtx_vigil (s : State) (n : Nat) (x : Ctx) : (s.setCtx n x).vigil = s.vigil := rfl
@[simp] theorem State.setCtx_tmp (s : State) (n : Nat) (x : Ctx) : (s.setCtx n x).tmp = s.tmp := rfl
@[simp] theorem State.setCtx_lcs (s : State) (n : Nat) (x : Ctx) : (s.setCtx n x).lcs = s.lcs := rfl
@[simp] theorem State.setCtx_fns (s : State) (n : Nat) (x : Ctx) : (s.setCtx n x).fns = s.fns := rfl
@[simp] theorem State.setCtx_mbxPend (s : State) (n : Nat) (x : Ctx) : (s.setCtx n x).mbxPend = s.mbxPend := rfl
@[simp] theorem State.setCtx_rings (s : State) (n : Nat) (x : Ctx) : (s.setCtx n x).rings = s.rings := rfl
@[simp] theorem State.setCtx_jobs (s : State) (n : Nat) (x : Ctx) : (s.setCtx n x).jobs = s.jobs := rfl
@[simp] theorem State.setCtx_nextJob (s : State) (n : Nat) (x : Ctx) : (s.setCtx n x).nextJob = s.nextJob := rfl
@[simp] theorem State.setCtx_admissions (s : State) (n : Nat) (x : Ctx) : (s.setCtx n x).admissions = s.admissions := rfl
@[simp] theorem State.setCtx_strands (s : State) (n : Nat) (x : Ctx) : (s.setCtx n x).strands = s.strands := rfl
@[simp] theorem State.setCtx_kst (s : State) (n : Nat) (x : Ctx) : (s.setCtx n x).kst = s.kst := rfl
@[simp] theorem State.setCtx_frames (s : State) (n : Nat) (x : Ctx) : (s.setCtx n x).frames = s.frames := rfl
@[simp] theorem State.setCtx_creels (s : State) (n : Nat) (x : Ctx) : (s.setCtx n x).creels = s.creels := rfl
@[simp] theorem State.setCtx_units (s : State) (n : Nat) (x : Ctx) : (s.setCtx n x).units = s.units := rfl
@[simp] theorem State.setCtx_cap (s : State) (n : Nat) (x : Ctx) : (s.setCtx n x).cap = s.cap := rfl
@[simp] theorem State.setCtx_hdl (s : State) (n : Nat) (x : Ctx) : (s.setCtx n x).hdl = s.hdl := rfl
@[simp] theorem State.setCtx_trc (s : State) (n : Nat) (x : Ctx) : (s.setCtx n x).trc = s.trc := rfl
@[simp] theorem State.setCtx_sht (s : State) (n : Nat) (x : Ctx) : (s.setCtx n x).sht = s.sht := rfl
@[simp] theorem State.setCtx_rng (s : State) (n : Nat) (x : Ctx) : (s.setCtx n x).rng = s.rng := rfl
@[simp] theorem State.setCtx_dge (s : State) (n : Nat) (x : Ctx) : (s.setCtx n x).dge = s.dge := rfl
@[simp] theorem State.setCtx_mcs (s : State) (n : Nat) (x : Ctx) : (s.setCtx n x).mcs = s.mcs := rfl
@[simp] theorem State.setCtx_hbm (s : State) (n : Nat) (x : Ctx) : (s.setCtx n x).hbm = s.hbm := rfl
@[simp] theorem State.setCtx_ply (s : State) (n : Nat) (x : Ctx) : (s.setCtx n x).ply = s.ply := rfl
@[simp] theorem State.setCtx_spl (s : State) (n : Nat) (x : Ctx) : (s.setCtx n x).spl = s.spl := rfl
@[simp] theorem State.setCtx_smb (s : State) (n : Nat) (x : Ctx) : (s.setCtx n x).smb = s.smb := rfl
@[simp] theorem State.setCtx_tap (s : State) (n : Nat) (x : Ctx) : (s.setCtx n x).tap = s.tap := rfl
@[simp] theorem State.setCtx_free (s : State) (n : Nat) (x : Ctx) : (s.setCtx n x).free = s.free := rfl
@[simp] theorem State.setCtx_pending (s : State) (n : Nat) (x : Ctx) : (s.setCtx n x).pending = s.pending := rfl
@[simp] theorem State.setSrc_glb (s : State) (n : Nat) (x : Src) : (s.setSrc n x).glb = s.glb := rfl
@[simp] theorem State.setSrc_pins (s : State) (n : Nat) (x : Src) : (s.setSrc n x).pins = s.pins := rfl
@[simp] theorem State.setSrc_host (s : State) (n : Nat) (x : Src) : (s.setSrc n x).host = s.host := rfl
@[simp] theorem State.setSrc_otp (s : State) (n : Nat) (x : Src) : (s.setSrc n x).otp = s.otp := rfl
@[simp] theorem State.setSrc_vigil (s : State) (n : Nat) (x : Src) : (s.setSrc n x).vigil = s.vigil := rfl
@[simp] theorem State.setSrc_tmp (s : State) (n : Nat) (x : Src) : (s.setSrc n x).tmp = s.tmp := rfl
@[simp] theorem State.setSrc_lcs (s : State) (n : Nat) (x : Src) : (s.setSrc n x).lcs = s.lcs := rfl
@[simp] theorem State.setSrc_fns (s : State) (n : Nat) (x : Src) : (s.setSrc n x).fns = s.fns := rfl
@[simp] theorem State.setSrc_mbxPend (s : State) (n : Nat) (x : Src) : (s.setSrc n x).mbxPend = s.mbxPend := rfl
@[simp] theorem State.setSrc_rings (s : State) (n : Nat) (x : Src) : (s.setSrc n x).rings = s.rings := rfl
@[simp] theorem State.setSrc_jobs (s : State) (n : Nat) (x : Src) : (s.setSrc n x).jobs = s.jobs := rfl
@[simp] theorem State.setSrc_nextJob (s : State) (n : Nat) (x : Src) : (s.setSrc n x).nextJob = s.nextJob := rfl
@[simp] theorem State.setSrc_admissions (s : State) (n : Nat) (x : Src) : (s.setSrc n x).admissions = s.admissions := rfl
@[simp] theorem State.setSrc_strands (s : State) (n : Nat) (x : Src) : (s.setSrc n x).strands = s.strands := rfl
@[simp] theorem State.setSrc_kst (s : State) (n : Nat) (x : Src) : (s.setSrc n x).kst = s.kst := rfl
@[simp] theorem State.setSrc_frames (s : State) (n : Nat) (x : Src) : (s.setSrc n x).frames = s.frames := rfl
@[simp] theorem State.setSrc_creels (s : State) (n : Nat) (x : Src) : (s.setSrc n x).creels = s.creels := rfl
@[simp] theorem State.setSrc_units (s : State) (n : Nat) (x : Src) : (s.setSrc n x).units = s.units := rfl
@[simp] theorem State.setSrc_cap (s : State) (n : Nat) (x : Src) : (s.setSrc n x).cap = s.cap := rfl
@[simp] theorem State.setSrc_hdl (s : State) (n : Nat) (x : Src) : (s.setSrc n x).hdl = s.hdl := rfl
@[simp] theorem State.setSrc_trc (s : State) (n : Nat) (x : Src) : (s.setSrc n x).trc = s.trc := rfl
@[simp] theorem State.setSrc_sht (s : State) (n : Nat) (x : Src) : (s.setSrc n x).sht = s.sht := rfl
@[simp] theorem State.setSrc_crx (s : State) (n : Nat) (x : Src) : (s.setSrc n x).crx = s.crx := rfl
@[simp] theorem State.setSrc_dge (s : State) (n : Nat) (x : Src) : (s.setSrc n x).dge = s.dge := rfl
@[simp] theorem State.setSrc_mcs (s : State) (n : Nat) (x : Src) : (s.setSrc n x).mcs = s.mcs := rfl
@[simp] theorem State.setSrc_hbm (s : State) (n : Nat) (x : Src) : (s.setSrc n x).hbm = s.hbm := rfl
@[simp] theorem State.setSrc_ply (s : State) (n : Nat) (x : Src) : (s.setSrc n x).ply = s.ply := rfl
@[simp] theorem State.setSrc_spl (s : State) (n : Nat) (x : Src) : (s.setSrc n x).spl = s.spl := rfl
@[simp] theorem State.setSrc_smb (s : State) (n : Nat) (x : Src) : (s.setSrc n x).smb = s.smb := rfl
@[simp] theorem State.setSrc_tap (s : State) (n : Nat) (x : Src) : (s.setSrc n x).tap = s.tap := rfl
@[simp] theorem State.setSrc_free (s : State) (n : Nat) (x : Src) : (s.setSrc n x).free = s.free := rfl
@[simp] theorem State.setSrc_pending (s : State) (n : Nat) (x : Src) : (s.setSrc n x).pending = s.pending := rfl
@[simp] theorem State.setInst_glb (s : State) (n : Nat) (x : Inst) : (s.setInst n x).glb = s.glb := rfl
@[simp] theorem State.setInst_pins (s : State) (n : Nat) (x : Inst) : (s.setInst n x).pins = s.pins := rfl
@[simp] theorem State.setInst_host (s : State) (n : Nat) (x : Inst) : (s.setInst n x).host = s.host := rfl
@[simp] theorem State.setInst_otp (s : State) (n : Nat) (x : Inst) : (s.setInst n x).otp = s.otp := rfl
@[simp] theorem State.setInst_vigil (s : State) (n : Nat) (x : Inst) : (s.setInst n x).vigil = s.vigil := rfl
@[simp] theorem State.setInst_tmp (s : State) (n : Nat) (x : Inst) : (s.setInst n x).tmp = s.tmp := rfl
@[simp] theorem State.setInst_lcs (s : State) (n : Nat) (x : Inst) : (s.setInst n x).lcs = s.lcs := rfl
@[simp] theorem State.setInst_fns (s : State) (n : Nat) (x : Inst) : (s.setInst n x).fns = s.fns := rfl
@[simp] theorem State.setInst_mbxPend (s : State) (n : Nat) (x : Inst) : (s.setInst n x).mbxPend = s.mbxPend := rfl
@[simp] theorem State.setInst_rings (s : State) (n : Nat) (x : Inst) : (s.setInst n x).rings = s.rings := rfl
@[simp] theorem State.setInst_jobs (s : State) (n : Nat) (x : Inst) : (s.setInst n x).jobs = s.jobs := rfl
@[simp] theorem State.setInst_nextJob (s : State) (n : Nat) (x : Inst) : (s.setInst n x).nextJob = s.nextJob := rfl
@[simp] theorem State.setInst_admissions (s : State) (n : Nat) (x : Inst) : (s.setInst n x).admissions = s.admissions := rfl
@[simp] theorem State.setInst_strands (s : State) (n : Nat) (x : Inst) : (s.setInst n x).strands = s.strands := rfl
@[simp] theorem State.setInst_kst (s : State) (n : Nat) (x : Inst) : (s.setInst n x).kst = s.kst := rfl
@[simp] theorem State.setInst_frames (s : State) (n : Nat) (x : Inst) : (s.setInst n x).frames = s.frames := rfl
@[simp] theorem State.setInst_creels (s : State) (n : Nat) (x : Inst) : (s.setInst n x).creels = s.creels := rfl
@[simp] theorem State.setInst_units (s : State) (n : Nat) (x : Inst) : (s.setInst n x).units = s.units := rfl
@[simp] theorem State.setInst_cap (s : State) (n : Nat) (x : Inst) : (s.setInst n x).cap = s.cap := rfl
@[simp] theorem State.setInst_hdl (s : State) (n : Nat) (x : Inst) : (s.setInst n x).hdl = s.hdl := rfl
@[simp] theorem State.setInst_trc (s : State) (n : Nat) (x : Inst) : (s.setInst n x).trc = s.trc := rfl
@[simp] theorem State.setInst_sht (s : State) (n : Nat) (x : Inst) : (s.setInst n x).sht = s.sht := rfl
@[simp] theorem State.setInst_crx (s : State) (n : Nat) (x : Inst) : (s.setInst n x).crx = s.crx := rfl
@[simp] theorem State.setInst_dge (s : State) (n : Nat) (x : Inst) : (s.setInst n x).dge = s.dge := rfl
@[simp] theorem State.setInst_mcs (s : State) (n : Nat) (x : Inst) : (s.setInst n x).mcs = s.mcs := rfl
@[simp] theorem State.setInst_hbm (s : State) (n : Nat) (x : Inst) : (s.setInst n x).hbm = s.hbm := rfl
@[simp] theorem State.setInst_ply (s : State) (n : Nat) (x : Inst) : (s.setInst n x).ply = s.ply := rfl
@[simp] theorem State.setInst_spl (s : State) (n : Nat) (x : Inst) : (s.setInst n x).spl = s.spl := rfl
@[simp] theorem State.setInst_smb (s : State) (n : Nat) (x : Inst) : (s.setInst n x).smb = s.smb := rfl
@[simp] theorem State.setInst_tap (s : State) (n : Nat) (x : Inst) : (s.setInst n x).tap = s.tap := rfl
@[simp] theorem State.setInst_free (s : State) (n : Nat) (x : Inst) : (s.setInst n x).free = s.free := rfl
@[simp] theorem State.setInst_pending (s : State) (n : Nat) (x : Inst) : (s.setInst n x).pending = s.pending := rfl
@[simp] theorem State.setDslot_glb (s : State) (n : Nat) (x : DSlot) : (s.setDslot n x).glb = s.glb := rfl
@[simp] theorem State.setDslot_pins (s : State) (n : Nat) (x : DSlot) : (s.setDslot n x).pins = s.pins := rfl
@[simp] theorem State.setDslot_host (s : State) (n : Nat) (x : DSlot) : (s.setDslot n x).host = s.host := rfl
@[simp] theorem State.setDslot_otp (s : State) (n : Nat) (x : DSlot) : (s.setDslot n x).otp = s.otp := rfl
@[simp] theorem State.setDslot_vigil (s : State) (n : Nat) (x : DSlot) : (s.setDslot n x).vigil = s.vigil := rfl
@[simp] theorem State.setDslot_tmp (s : State) (n : Nat) (x : DSlot) : (s.setDslot n x).tmp = s.tmp := rfl
@[simp] theorem State.setDslot_lcs (s : State) (n : Nat) (x : DSlot) : (s.setDslot n x).lcs = s.lcs := rfl
@[simp] theorem State.setDslot_fns (s : State) (n : Nat) (x : DSlot) : (s.setDslot n x).fns = s.fns := rfl
@[simp] theorem State.setDslot_mbxPend (s : State) (n : Nat) (x : DSlot) : (s.setDslot n x).mbxPend = s.mbxPend := rfl
@[simp] theorem State.setDslot_rings (s : State) (n : Nat) (x : DSlot) : (s.setDslot n x).rings = s.rings := rfl
@[simp] theorem State.setDslot_jobs (s : State) (n : Nat) (x : DSlot) : (s.setDslot n x).jobs = s.jobs := rfl
@[simp] theorem State.setDslot_nextJob (s : State) (n : Nat) (x : DSlot) : (s.setDslot n x).nextJob = s.nextJob := rfl
@[simp] theorem State.setDslot_admissions (s : State) (n : Nat) (x : DSlot) : (s.setDslot n x).admissions = s.admissions := rfl
@[simp] theorem State.setDslot_strands (s : State) (n : Nat) (x : DSlot) : (s.setDslot n x).strands = s.strands := rfl
@[simp] theorem State.setDslot_kst (s : State) (n : Nat) (x : DSlot) : (s.setDslot n x).kst = s.kst := rfl
@[simp] theorem State.setDslot_frames (s : State) (n : Nat) (x : DSlot) : (s.setDslot n x).frames = s.frames := rfl
@[simp] theorem State.setDslot_creels (s : State) (n : Nat) (x : DSlot) : (s.setDslot n x).creels = s.creels := rfl
@[simp] theorem State.setDslot_units (s : State) (n : Nat) (x : DSlot) : (s.setDslot n x).units = s.units := rfl
@[simp] theorem State.setDslot_cap (s : State) (n : Nat) (x : DSlot) : (s.setDslot n x).cap = s.cap := rfl
@[simp] theorem State.setDslot_hdl (s : State) (n : Nat) (x : DSlot) : (s.setDslot n x).hdl = s.hdl := rfl
@[simp] theorem State.setDslot_trc (s : State) (n : Nat) (x : DSlot) : (s.setDslot n x).trc = s.trc := rfl
@[simp] theorem State.setDslot_sht (s : State) (n : Nat) (x : DSlot) : (s.setDslot n x).sht = s.sht := rfl
@[simp] theorem State.setDslot_crx (s : State) (n : Nat) (x : DSlot) : (s.setDslot n x).crx = s.crx := rfl
@[simp] theorem State.setDslot_rng (s : State) (n : Nat) (x : DSlot) : (s.setDslot n x).rng = s.rng := rfl
@[simp] theorem State.setDslot_mcs (s : State) (n : Nat) (x : DSlot) : (s.setDslot n x).mcs = s.mcs := rfl
@[simp] theorem State.setDslot_hbm (s : State) (n : Nat) (x : DSlot) : (s.setDslot n x).hbm = s.hbm := rfl
@[simp] theorem State.setDslot_ply (s : State) (n : Nat) (x : DSlot) : (s.setDslot n x).ply = s.ply := rfl
@[simp] theorem State.setDslot_spl (s : State) (n : Nat) (x : DSlot) : (s.setDslot n x).spl = s.spl := rfl
@[simp] theorem State.setDslot_smb (s : State) (n : Nat) (x : DSlot) : (s.setDslot n x).smb = s.smb := rfl
@[simp] theorem State.setDslot_tap (s : State) (n : Nat) (x : DSlot) : (s.setDslot n x).tap = s.tap := rfl
@[simp] theorem State.setDslot_free (s : State) (n : Nat) (x : DSlot) : (s.setDslot n x).free = s.free := rfl
@[simp] theorem State.setDslot_pending (s : State) (n : Nat) (x : DSlot) : (s.setDslot n x).pending = s.pending := rfl
@[simp] theorem State.setShuttle_glb (s : State) (n : Nat) (x : Shuttle) : (s.setShuttle n x).glb = s.glb := rfl
@[simp] theorem State.setShuttle_pins (s : State) (n : Nat) (x : Shuttle) : (s.setShuttle n x).pins = s.pins := rfl
@[simp] theorem State.setShuttle_host (s : State) (n : Nat) (x : Shuttle) : (s.setShuttle n x).host = s.host := rfl
@[simp] theorem State.setShuttle_otp (s : State) (n : Nat) (x : Shuttle) : (s.setShuttle n x).otp = s.otp := rfl
@[simp] theorem State.setShuttle_vigil (s : State) (n : Nat) (x : Shuttle) : (s.setShuttle n x).vigil = s.vigil := rfl
@[simp] theorem State.setShuttle_tmp (s : State) (n : Nat) (x : Shuttle) : (s.setShuttle n x).tmp = s.tmp := rfl
@[simp] theorem State.setShuttle_lcs (s : State) (n : Nat) (x : Shuttle) : (s.setShuttle n x).lcs = s.lcs := rfl
@[simp] theorem State.setShuttle_fns (s : State) (n : Nat) (x : Shuttle) : (s.setShuttle n x).fns = s.fns := rfl
@[simp] theorem State.setShuttle_mbxPend (s : State) (n : Nat) (x : Shuttle) : (s.setShuttle n x).mbxPend = s.mbxPend := rfl
@[simp] theorem State.setShuttle_rings (s : State) (n : Nat) (x : Shuttle) : (s.setShuttle n x).rings = s.rings := rfl
@[simp] theorem State.setShuttle_jobs (s : State) (n : Nat) (x : Shuttle) : (s.setShuttle n x).jobs = s.jobs := rfl
@[simp] theorem State.setShuttle_nextJob (s : State) (n : Nat) (x : Shuttle) : (s.setShuttle n x).nextJob = s.nextJob := rfl
@[simp] theorem State.setShuttle_admissions (s : State) (n : Nat) (x : Shuttle) : (s.setShuttle n x).admissions = s.admissions := rfl
@[simp] theorem State.setShuttle_strands (s : State) (n : Nat) (x : Shuttle) : (s.setShuttle n x).strands = s.strands := rfl
@[simp] theorem State.setShuttle_kst (s : State) (n : Nat) (x : Shuttle) : (s.setShuttle n x).kst = s.kst := rfl
@[simp] theorem State.setShuttle_frames (s : State) (n : Nat) (x : Shuttle) : (s.setShuttle n x).frames = s.frames := rfl
@[simp] theorem State.setShuttle_creels (s : State) (n : Nat) (x : Shuttle) : (s.setShuttle n x).creels = s.creels := rfl
@[simp] theorem State.setShuttle_units (s : State) (n : Nat) (x : Shuttle) : (s.setShuttle n x).units = s.units := rfl
@[simp] theorem State.setShuttle_cap (s : State) (n : Nat) (x : Shuttle) : (s.setShuttle n x).cap = s.cap := rfl
@[simp] theorem State.setShuttle_hdl (s : State) (n : Nat) (x : Shuttle) : (s.setShuttle n x).hdl = s.hdl := rfl
@[simp] theorem State.setShuttle_trc (s : State) (n : Nat) (x : Shuttle) : (s.setShuttle n x).trc = s.trc := rfl
@[simp] theorem State.setShuttle_crx (s : State) (n : Nat) (x : Shuttle) : (s.setShuttle n x).crx = s.crx := rfl
@[simp] theorem State.setShuttle_rng (s : State) (n : Nat) (x : Shuttle) : (s.setShuttle n x).rng = s.rng := rfl
@[simp] theorem State.setShuttle_dge (s : State) (n : Nat) (x : Shuttle) : (s.setShuttle n x).dge = s.dge := rfl
@[simp] theorem State.setShuttle_mcs (s : State) (n : Nat) (x : Shuttle) : (s.setShuttle n x).mcs = s.mcs := rfl
@[simp] theorem State.setShuttle_hbm (s : State) (n : Nat) (x : Shuttle) : (s.setShuttle n x).hbm = s.hbm := rfl
@[simp] theorem State.setShuttle_ply (s : State) (n : Nat) (x : Shuttle) : (s.setShuttle n x).ply = s.ply := rfl
@[simp] theorem State.setShuttle_spl (s : State) (n : Nat) (x : Shuttle) : (s.setShuttle n x).spl = s.spl := rfl
@[simp] theorem State.setShuttle_smb (s : State) (n : Nat) (x : Shuttle) : (s.setShuttle n x).smb = s.smb := rfl
@[simp] theorem State.setShuttle_tap (s : State) (n : Nat) (x : Shuttle) : (s.setShuttle n x).tap = s.tap := rfl
@[simp] theorem State.setShuttle_free (s : State) (n : Nat) (x : Shuttle) : (s.setShuttle n x).free = s.free := rfl
@[simp] theorem State.setShuttle_pending (s : State) (n : Nat) (x : Shuttle) : (s.setShuttle n x).pending = s.pending := rfl
@[simp] theorem State.setKey_glb (s : State) (k : Nat) (x : KeyObj) : (s.setKey k x).glb = s.glb := rfl
@[simp] theorem State.setKey_pins (s : State) (k : Nat) (x : KeyObj) : (s.setKey k x).pins = s.pins := rfl
@[simp] theorem State.setKey_host (s : State) (k : Nat) (x : KeyObj) : (s.setKey k x).host = s.host := rfl
@[simp] theorem State.setKey_otp (s : State) (k : Nat) (x : KeyObj) : (s.setKey k x).otp = s.otp := rfl
@[simp] theorem State.setKey_vigil (s : State) (k : Nat) (x : KeyObj) : (s.setKey k x).vigil = s.vigil := rfl
@[simp] theorem State.setKey_tmp (s : State) (k : Nat) (x : KeyObj) : (s.setKey k x).tmp = s.tmp := rfl
@[simp] theorem State.setKey_lcs (s : State) (k : Nat) (x : KeyObj) : (s.setKey k x).lcs = s.lcs := rfl
@[simp] theorem State.setKey_fns (s : State) (k : Nat) (x : KeyObj) : (s.setKey k x).fns = s.fns := rfl
@[simp] theorem State.setKey_mbxPend (s : State) (k : Nat) (x : KeyObj) : (s.setKey k x).mbxPend = s.mbxPend := rfl
@[simp] theorem State.setKey_rings (s : State) (k : Nat) (x : KeyObj) : (s.setKey k x).rings = s.rings := rfl
@[simp] theorem State.setKey_jobs (s : State) (k : Nat) (x : KeyObj) : (s.setKey k x).jobs = s.jobs := rfl
@[simp] theorem State.setKey_nextJob (s : State) (k : Nat) (x : KeyObj) : (s.setKey k x).nextJob = s.nextJob := rfl
@[simp] theorem State.setKey_admissions (s : State) (k : Nat) (x : KeyObj) : (s.setKey k x).admissions = s.admissions := rfl
@[simp] theorem State.setKey_strands (s : State) (k : Nat) (x : KeyObj) : (s.setKey k x).strands = s.strands := rfl
@[simp] theorem State.setKey_frames (s : State) (k : Nat) (x : KeyObj) : (s.setKey k x).frames = s.frames := rfl
@[simp] theorem State.setKey_creels (s : State) (k : Nat) (x : KeyObj) : (s.setKey k x).creels = s.creels := rfl
@[simp] theorem State.setKey_units (s : State) (k : Nat) (x : KeyObj) : (s.setKey k x).units = s.units := rfl
@[simp] theorem State.setKey_cap (s : State) (k : Nat) (x : KeyObj) : (s.setKey k x).cap = s.cap := rfl
@[simp] theorem State.setKey_hdl (s : State) (k : Nat) (x : KeyObj) : (s.setKey k x).hdl = s.hdl := rfl
@[simp] theorem State.setKey_trc (s : State) (k : Nat) (x : KeyObj) : (s.setKey k x).trc = s.trc := rfl
@[simp] theorem State.setKey_sht (s : State) (k : Nat) (x : KeyObj) : (s.setKey k x).sht = s.sht := rfl
@[simp] theorem State.setKey_crx (s : State) (k : Nat) (x : KeyObj) : (s.setKey k x).crx = s.crx := rfl
@[simp] theorem State.setKey_rng (s : State) (k : Nat) (x : KeyObj) : (s.setKey k x).rng = s.rng := rfl
@[simp] theorem State.setKey_dge (s : State) (k : Nat) (x : KeyObj) : (s.setKey k x).dge = s.dge := rfl
@[simp] theorem State.setKey_mcs (s : State) (k : Nat) (x : KeyObj) : (s.setKey k x).mcs = s.mcs := rfl
@[simp] theorem State.setKey_hbm (s : State) (k : Nat) (x : KeyObj) : (s.setKey k x).hbm = s.hbm := rfl
@[simp] theorem State.setKey_ply (s : State) (k : Nat) (x : KeyObj) : (s.setKey k x).ply = s.ply := rfl
@[simp] theorem State.setKey_spl (s : State) (k : Nat) (x : KeyObj) : (s.setKey k x).spl = s.spl := rfl
@[simp] theorem State.setKey_smb (s : State) (k : Nat) (x : KeyObj) : (s.setKey k x).smb = s.smb := rfl
@[simp] theorem State.setKey_tap (s : State) (k : Nat) (x : KeyObj) : (s.setKey k x).tap = s.tap := rfl
@[simp] theorem State.setKey_free (s : State) (k : Nat) (x : KeyObj) : (s.setKey k x).free = s.free := rfl
@[simp] theorem State.setKey_pending (s : State) (k : Nat) (x : KeyObj) : (s.setKey k x).pending = s.pending := rfl
@[simp] theorem State.send_glb (s : State) (x : HostMsg) : (s.send x).glb = s.glb := rfl
@[simp] theorem State.send_pins (s : State) (x : HostMsg) : (s.send x).pins = s.pins := rfl
@[simp] theorem State.send_otp (s : State) (x : HostMsg) : (s.send x).otp = s.otp := rfl
@[simp] theorem State.send_vigil (s : State) (x : HostMsg) : (s.send x).vigil = s.vigil := rfl
@[simp] theorem State.send_tmp (s : State) (x : HostMsg) : (s.send x).tmp = s.tmp := rfl
@[simp] theorem State.send_lcs (s : State) (x : HostMsg) : (s.send x).lcs = s.lcs := rfl
@[simp] theorem State.send_fns (s : State) (x : HostMsg) : (s.send x).fns = s.fns := rfl
@[simp] theorem State.send_mbxPend (s : State) (x : HostMsg) : (s.send x).mbxPend = s.mbxPend := rfl
@[simp] theorem State.send_rings (s : State) (x : HostMsg) : (s.send x).rings = s.rings := rfl
@[simp] theorem State.send_jobs (s : State) (x : HostMsg) : (s.send x).jobs = s.jobs := rfl
@[simp] theorem State.send_nextJob (s : State) (x : HostMsg) : (s.send x).nextJob = s.nextJob := rfl
@[simp] theorem State.send_admissions (s : State) (x : HostMsg) : (s.send x).admissions = s.admissions := rfl
@[simp] theorem State.send_strands (s : State) (x : HostMsg) : (s.send x).strands = s.strands := rfl
@[simp] theorem State.send_kst (s : State) (x : HostMsg) : (s.send x).kst = s.kst := rfl
@[simp] theorem State.send_frames (s : State) (x : HostMsg) : (s.send x).frames = s.frames := rfl
@[simp] theorem State.send_creels (s : State) (x : HostMsg) : (s.send x).creels = s.creels := rfl
@[simp] theorem State.send_units (s : State) (x : HostMsg) : (s.send x).units = s.units := rfl
@[simp] theorem State.send_cap (s : State) (x : HostMsg) : (s.send x).cap = s.cap := rfl
@[simp] theorem State.send_hdl (s : State) (x : HostMsg) : (s.send x).hdl = s.hdl := rfl
@[simp] theorem State.send_trc (s : State) (x : HostMsg) : (s.send x).trc = s.trc := rfl
@[simp] theorem State.send_sht (s : State) (x : HostMsg) : (s.send x).sht = s.sht := rfl
@[simp] theorem State.send_crx (s : State) (x : HostMsg) : (s.send x).crx = s.crx := rfl
@[simp] theorem State.send_rng (s : State) (x : HostMsg) : (s.send x).rng = s.rng := rfl
@[simp] theorem State.send_dge (s : State) (x : HostMsg) : (s.send x).dge = s.dge := rfl
@[simp] theorem State.send_mcs (s : State) (x : HostMsg) : (s.send x).mcs = s.mcs := rfl
@[simp] theorem State.send_hbm (s : State) (x : HostMsg) : (s.send x).hbm = s.hbm := rfl
@[simp] theorem State.send_ply (s : State) (x : HostMsg) : (s.send x).ply = s.ply := rfl
@[simp] theorem State.send_spl (s : State) (x : HostMsg) : (s.send x).spl = s.spl := rfl
@[simp] theorem State.send_smb (s : State) (x : HostMsg) : (s.send x).smb = s.smb := rfl
@[simp] theorem State.send_tap (s : State) (x : HostMsg) : (s.send x).tap = s.tap := rfl
@[simp] theorem State.send_free (s : State) (x : HostMsg) : (s.send x).free = s.free := rfl
@[simp] theorem State.send_pending (s : State) (x : HostMsg) : (s.send x).pending = s.pending := rfl
@[simp] theorem State.setPort_glb (s : State) (p : Port) (x : Spl) : (s.setPort p x).glb = s.glb := by cases p <;> rfl
@[simp] theorem State.setPort_pins (s : State) (p : Port) (x : Spl) : (s.setPort p x).pins = s.pins := by cases p <;> rfl
@[simp] theorem State.setPort_host (s : State) (p : Port) (x : Spl) : (s.setPort p x).host = s.host := by cases p <;> rfl
@[simp] theorem State.setPort_otp (s : State) (p : Port) (x : Spl) : (s.setPort p x).otp = s.otp := by cases p <;> rfl
@[simp] theorem State.setPort_vigil (s : State) (p : Port) (x : Spl) : (s.setPort p x).vigil = s.vigil := by cases p <;> rfl
@[simp] theorem State.setPort_tmp (s : State) (p : Port) (x : Spl) : (s.setPort p x).tmp = s.tmp := by cases p <;> rfl
@[simp] theorem State.setPort_lcs (s : State) (p : Port) (x : Spl) : (s.setPort p x).lcs = s.lcs := by cases p <;> rfl
@[simp] theorem State.setPort_fns (s : State) (p : Port) (x : Spl) : (s.setPort p x).fns = s.fns := by cases p <;> rfl
@[simp] theorem State.setPort_mbxPend (s : State) (p : Port) (x : Spl) : (s.setPort p x).mbxPend = s.mbxPend := by cases p <;> rfl
@[simp] theorem State.setPort_rings (s : State) (p : Port) (x : Spl) : (s.setPort p x).rings = s.rings := by cases p <;> rfl
@[simp] theorem State.setPort_jobs (s : State) (p : Port) (x : Spl) : (s.setPort p x).jobs = s.jobs := by cases p <;> rfl
@[simp] theorem State.setPort_nextJob (s : State) (p : Port) (x : Spl) : (s.setPort p x).nextJob = s.nextJob := by cases p <;> rfl
@[simp] theorem State.setPort_admissions (s : State) (p : Port) (x : Spl) : (s.setPort p x).admissions = s.admissions := by cases p <;> rfl
@[simp] theorem State.setPort_strands (s : State) (p : Port) (x : Spl) : (s.setPort p x).strands = s.strands := by cases p <;> rfl
@[simp] theorem State.setPort_kst (s : State) (p : Port) (x : Spl) : (s.setPort p x).kst = s.kst := by cases p <;> rfl
@[simp] theorem State.setPort_frames (s : State) (p : Port) (x : Spl) : (s.setPort p x).frames = s.frames := by cases p <;> rfl
@[simp] theorem State.setPort_creels (s : State) (p : Port) (x : Spl) : (s.setPort p x).creels = s.creels := by cases p <;> rfl
@[simp] theorem State.setPort_units (s : State) (p : Port) (x : Spl) : (s.setPort p x).units = s.units := by cases p <;> rfl
@[simp] theorem State.setPort_cap (s : State) (p : Port) (x : Spl) : (s.setPort p x).cap = s.cap := by cases p <;> rfl
@[simp] theorem State.setPort_hdl (s : State) (p : Port) (x : Spl) : (s.setPort p x).hdl = s.hdl := by cases p <;> rfl
@[simp] theorem State.setPort_trc (s : State) (p : Port) (x : Spl) : (s.setPort p x).trc = s.trc := by cases p <;> rfl
@[simp] theorem State.setPort_sht (s : State) (p : Port) (x : Spl) : (s.setPort p x).sht = s.sht := by cases p <;> rfl
@[simp] theorem State.setPort_crx (s : State) (p : Port) (x : Spl) : (s.setPort p x).crx = s.crx := by cases p <;> rfl
@[simp] theorem State.setPort_rng (s : State) (p : Port) (x : Spl) : (s.setPort p x).rng = s.rng := by cases p <;> rfl
@[simp] theorem State.setPort_dge (s : State) (p : Port) (x : Spl) : (s.setPort p x).dge = s.dge := by cases p <;> rfl
@[simp] theorem State.setPort_mcs (s : State) (p : Port) (x : Spl) : (s.setPort p x).mcs = s.mcs := by cases p <;> rfl
@[simp] theorem State.setPort_hbm (s : State) (p : Port) (x : Spl) : (s.setPort p x).hbm = s.hbm := by cases p <;> rfl
@[simp] theorem State.setPort_ply (s : State) (p : Port) (x : Spl) : (s.setPort p x).ply = s.ply := by cases p <;> rfl
@[simp] theorem State.setPort_smb (s : State) (p : Port) (x : Spl) : (s.setPort p x).smb = s.smb := by cases p <;> rfl
@[simp] theorem State.setPort_tap (s : State) (p : Port) (x : Spl) : (s.setPort p x).tap = s.tap := by cases p <;> rfl
@[simp] theorem State.setPort_free (s : State) (p : Port) (x : Spl) : (s.setPort p x).free = s.free := by cases p <;> rfl
@[simp] theorem State.setPort_pending (s : State) (p : Port) (x : Spl) : (s.setPort p x).pending = s.pending := by cases p <;> rfl
@[simp] theorem State.setStrand_glb (s : State) (f : Nat) (x : Strand) : (s.setStrand f x).glb = s.glb := by unfold State.setStrand; split <;> rfl
@[simp] theorem State.setStrand_pins (s : State) (f : Nat) (x : Strand) : (s.setStrand f x).pins = s.pins := by unfold State.setStrand; split <;> rfl
@[simp] theorem State.setStrand_host (s : State) (f : Nat) (x : Strand) : (s.setStrand f x).host = s.host := by unfold State.setStrand; split <;> rfl
@[simp] theorem State.setStrand_otp (s : State) (f : Nat) (x : Strand) : (s.setStrand f x).otp = s.otp := by unfold State.setStrand; split <;> rfl
@[simp] theorem State.setStrand_vigil (s : State) (f : Nat) (x : Strand) : (s.setStrand f x).vigil = s.vigil := by unfold State.setStrand; split <;> rfl
@[simp] theorem State.setStrand_tmp (s : State) (f : Nat) (x : Strand) : (s.setStrand f x).tmp = s.tmp := by unfold State.setStrand; split <;> rfl
@[simp] theorem State.setStrand_lcs (s : State) (f : Nat) (x : Strand) : (s.setStrand f x).lcs = s.lcs := by unfold State.setStrand; split <;> rfl
@[simp] theorem State.setStrand_fns (s : State) (f : Nat) (x : Strand) : (s.setStrand f x).fns = s.fns := by unfold State.setStrand; split <;> rfl
@[simp] theorem State.setStrand_mbxPend (s : State) (f : Nat) (x : Strand) : (s.setStrand f x).mbxPend = s.mbxPend := by unfold State.setStrand; split <;> rfl
@[simp] theorem State.setStrand_rings (s : State) (f : Nat) (x : Strand) : (s.setStrand f x).rings = s.rings := by unfold State.setStrand; split <;> rfl
@[simp] theorem State.setStrand_jobs (s : State) (f : Nat) (x : Strand) : (s.setStrand f x).jobs = s.jobs := by unfold State.setStrand; split <;> rfl
@[simp] theorem State.setStrand_nextJob (s : State) (f : Nat) (x : Strand) : (s.setStrand f x).nextJob = s.nextJob := by unfold State.setStrand; split <;> rfl
@[simp] theorem State.setStrand_admissions (s : State) (f : Nat) (x : Strand) : (s.setStrand f x).admissions = s.admissions := by unfold State.setStrand; split <;> rfl
@[simp] theorem State.setStrand_kst (s : State) (f : Nat) (x : Strand) : (s.setStrand f x).kst = s.kst := by unfold State.setStrand; split <;> rfl
@[simp] theorem State.setStrand_frames (s : State) (f : Nat) (x : Strand) : (s.setStrand f x).frames = s.frames := by unfold State.setStrand; split <;> rfl
@[simp] theorem State.setStrand_creels (s : State) (f : Nat) (x : Strand) : (s.setStrand f x).creels = s.creels := by unfold State.setStrand; split <;> rfl
@[simp] theorem State.setStrand_units (s : State) (f : Nat) (x : Strand) : (s.setStrand f x).units = s.units := by unfold State.setStrand; split <;> rfl
@[simp] theorem State.setStrand_cap (s : State) (f : Nat) (x : Strand) : (s.setStrand f x).cap = s.cap := by unfold State.setStrand; split <;> rfl
@[simp] theorem State.setStrand_hdl (s : State) (f : Nat) (x : Strand) : (s.setStrand f x).hdl = s.hdl := by unfold State.setStrand; split <;> rfl
@[simp] theorem State.setStrand_trc (s : State) (f : Nat) (x : Strand) : (s.setStrand f x).trc = s.trc := by unfold State.setStrand; split <;> rfl
@[simp] theorem State.setStrand_sht (s : State) (f : Nat) (x : Strand) : (s.setStrand f x).sht = s.sht := by unfold State.setStrand; split <;> rfl
@[simp] theorem State.setStrand_crx (s : State) (f : Nat) (x : Strand) : (s.setStrand f x).crx = s.crx := by unfold State.setStrand; split <;> rfl
@[simp] theorem State.setStrand_rng (s : State) (f : Nat) (x : Strand) : (s.setStrand f x).rng = s.rng := by unfold State.setStrand; split <;> rfl
@[simp] theorem State.setStrand_dge (s : State) (f : Nat) (x : Strand) : (s.setStrand f x).dge = s.dge := by unfold State.setStrand; split <;> rfl
@[simp] theorem State.setStrand_mcs (s : State) (f : Nat) (x : Strand) : (s.setStrand f x).mcs = s.mcs := by unfold State.setStrand; split <;> rfl
@[simp] theorem State.setStrand_hbm (s : State) (f : Nat) (x : Strand) : (s.setStrand f x).hbm = s.hbm := by unfold State.setStrand; split <;> rfl
@[simp] theorem State.setStrand_ply (s : State) (f : Nat) (x : Strand) : (s.setStrand f x).ply = s.ply := by unfold State.setStrand; split <;> rfl
@[simp] theorem State.setStrand_spl (s : State) (f : Nat) (x : Strand) : (s.setStrand f x).spl = s.spl := by unfold State.setStrand; split <;> rfl
@[simp] theorem State.setStrand_smb (s : State) (f : Nat) (x : Strand) : (s.setStrand f x).smb = s.smb := by unfold State.setStrand; split <;> rfl
@[simp] theorem State.setStrand_tap (s : State) (f : Nat) (x : Strand) : (s.setStrand f x).tap = s.tap := by unfold State.setStrand; split <;> rfl
@[simp] theorem State.setStrand_free (s : State) (f : Nat) (x : Strand) : (s.setStrand f x).free = s.free := by unfold State.setStrand; split <;> rfl
@[simp] theorem State.setStrand_pending (s : State) (f : Nat) (x : Strand) : (s.setStrand f x).pending = s.pending := by unfold State.setStrand; split <;> rfl

end Sys2Proof.Machine
end

