-- ==== Sys2Proof/Laws/Table.lean ====
section
/-! SUPPORT. Sparse tables: what a table reads after a write, and that every operation on a table keeps its canonical form, keys
that rise strictly and no entry equal to the table's default. -/

namespace Sys2Proof

variable {α : Type}

/-! ## Reading after writing -/

@[simp] theorem Tbl.get?_nil (i : Nat) : Tbl.get? ([] : Tbl α) i = none := rfl

@[simp] theorem Tbl.getD_nil (i : Nat) (d : α) : Tbl.getD ([] : Tbl α) i d = d := rfl

@[simp] theorem Tbl.get?_insert_self (t : Tbl α) (i : Nat) (x : α) : Tbl.get? (Tbl.insert t i x) i = some x := by
  induction t with
  | nil => simp [Tbl.insert, Tbl.get?]
  | cons e t ih =>
    obtain ⟨k, v⟩ := e
    by_cases h1 : i < k
    · simp [Tbl.insert, Tbl.get?, h1]
    · by_cases h2 : i = k
      · simp [Tbl.insert, Tbl.get?, h2]
      · simp [Tbl.insert, Tbl.get?, h1, h2, ih]

theorem Tbl.get?_insert_ne (t : Tbl α) {i j : Nat} (x : α) (h : j ≠ i) : Tbl.get? (Tbl.insert t i x) j = Tbl.get? t j := by
  induction t with
  | nil => simp [Tbl.insert, Tbl.get?, h]
  | cons e t ih =>
    obtain ⟨k, v⟩ := e
    by_cases h1 : i < k
    · simp [Tbl.insert, Tbl.get?, h1, h]
    · by_cases h2 : i = k
      · subst h2; simp [Tbl.insert, Tbl.get?, h]
      · simp [Tbl.insert, Tbl.get?, h1, h2, ih]

@[simp] theorem Tbl.get?_erase_self (t : Tbl α) (i : Nat) : Tbl.get? (Tbl.erase t i) i = none := by
  induction t with
  | nil => rfl
  | cons e t ih =>
    obtain ⟨k, v⟩ := e
    by_cases h : i = k
    · simpa [Tbl.erase, h] using h ▸ ih
    · simp [Tbl.erase, Tbl.get?, h, ih]

theorem Tbl.get?_erase_ne (t : Tbl α) {i j : Nat} (h : j ≠ i) : Tbl.get? (Tbl.erase t i) j = Tbl.get? t j := by
  induction t with
  | nil => rfl
  | cons e t ih =>
    obtain ⟨k, v⟩ := e
    by_cases h1 : i = k
    · subst h1; simp [Tbl.erase, Tbl.get?, h, ih]
    · simp [Tbl.erase, Tbl.get?, h1, ih]

@[simp] theorem Tbl.getD_insert_self (t : Tbl α) (i : Nat) (x d : α) : Tbl.getD (Tbl.insert t i x) i d = x := by
  simp [Tbl.getD]

theorem Tbl.getD_insert_ne (t : Tbl α) {i j : Nat} (x d : α) (h : j ≠ i) :
    Tbl.getD (Tbl.insert t i x) j d = Tbl.getD t j d := by simp [Tbl.getD, Tbl.get?_insert_ne t x h]

@[simp] theorem Tbl.getD_put_self [DecidableEq α] (t : Tbl α) (d : α) (i : Nat) (x : α) :
    Tbl.getD (Tbl.put t d i x) i d = x := by
  unfold Tbl.put; split <;> simp_all [Tbl.getD]

theorem Tbl.getD_put_ne [DecidableEq α] (t : Tbl α) (d : α) {i j : Nat} (x : α) (h : j ≠ i) :
    Tbl.getD (Tbl.put t d i x) j d = Tbl.getD t j d := by
  unfold Tbl.put; split
  · simp [Tbl.getD, Tbl.get?_erase_ne t h]
  · exact Tbl.getD_insert_ne t x d h

/-- Reading any key after a write: the one written, or what was there. -/
theorem Tbl.getD_put [DecidableEq α] (t : Tbl α) (d : α) (i j : Nat) (x : α) :
    Tbl.getD (Tbl.put t d i x) j d = if j = i then x else Tbl.getD t j d := by
  split
  · next h => subst h; simp
  · next h => exact Tbl.getD_put_ne t d x h

/-! ## The canonical form -/

/-- The keys rise strictly and no entry holds the default. -/
def Tbl.Canon [DecidableEq α] (t : Tbl α) (d : α) : Prop := Tbl.sorted t = true ∧ ∀ e ∈ t, e.2 ≠ d

theorem Tbl.mem_insert (t : Tbl α) (i : Nat) (x : α) : ∀ e ∈ Tbl.insert t i x, e = (i, x) ∨ e ∈ t := by
  induction t with
  | nil => simp [Tbl.insert]
  | cons a t ih =>
    obtain ⟨k, v⟩ := a
    intro e he
    by_cases h1 : i < k
    · simpa [Tbl.insert, h1] using he
    · by_cases h2 : i = k
      · simp only [Tbl.insert, h2, lt_irrefl, if_true, if_false, List.mem_cons] at he
        rcases he with he | he <;> simp [he, h2]
      · simp only [Tbl.insert, h1, h2, if_false, List.mem_cons] at he
        rcases he with he | he
        · simp [he]
        · rcases ih e he with h | h <;> simp [h]

theorem Tbl.mem_erase (t : Tbl α) (i : Nat) : ∀ e ∈ Tbl.erase t i, e ∈ t := by
  induction t with
  | nil => simp [Tbl.erase]
  | cons a t ih =>
    obtain ⟨k, v⟩ := a
    intro e he
    by_cases h : i = k
    · simp only [Tbl.erase, h, if_true] at he
      exact List.mem_cons_of_mem _ (ih e (h ▸ he))
    · simp only [Tbl.erase, h, if_false, List.mem_cons] at he
      rcases he with he | he
      · simp [he]
      · exact List.mem_cons_of_mem _ (ih e he)

theorem Tbl.sorted_insert (t : Tbl α) (i : Nat) (x : α) (h : Tbl.sorted t = true) : Tbl.sorted (Tbl.insert t i x) = true := by
  induction t with
  | nil => simp [Tbl.insert, Tbl.sorted]
  | cons a t ih =>
    obtain ⟨k, v⟩ := a
    simp only [Tbl.sorted, Bool.and_eq_true, List.all_eq_true, decide_eq_true_eq] at h
    by_cases h1 : i < k
    · simp only [Tbl.insert, h1, if_true, Tbl.sorted, Bool.and_eq_true, List.all_eq_true, decide_eq_true_eq, List.mem_cons]
      refine ⟨?_, h⟩
      rintro p (rfl | hp)
      · exact h1
      · exact h1.trans (h.1 p hp)
    · by_cases h2 : i = k
      · subst h2; simpa [Tbl.insert, Tbl.sorted] using h
      · simp only [Tbl.insert, h1, h2, if_false, Tbl.sorted, Bool.and_eq_true, List.all_eq_true, decide_eq_true_eq]
        refine ⟨fun p hp => ?_, ih h.2⟩
        rcases Tbl.mem_insert t i x p hp with rfl | hp
        · show k < i; omega
        · exact h.1 p hp

theorem Tbl.sorted_erase (t : Tbl α) (i : Nat) (h : Tbl.sorted t = true) : Tbl.sorted (Tbl.erase t i) = true := by
  induction t with
  | nil => rfl
  | cons a t ih =>
    obtain ⟨k, v⟩ := a
    simp only [Tbl.sorted, Bool.and_eq_true, List.all_eq_true, decide_eq_true_eq] at h
    by_cases h1 : i = k
    · simp only [Tbl.erase, h1, if_true]; exact h1 ▸ ih h.2
    · simp only [Tbl.erase, h1, if_false, Tbl.sorted, Bool.and_eq_true, List.all_eq_true, decide_eq_true_eq]
      exact ⟨fun p hp => h.1 p (Tbl.mem_erase t i p hp), ih h.2⟩

/-- A write keeps the canonical form: the default itself is never listed. -/
theorem Tbl.canon_put [DecidableEq α] (t : Tbl α) (d : α) (i : Nat) (x : α) (h : Tbl.Canon t d) :
    Tbl.Canon (Tbl.put t d i x) d := by
  unfold Tbl.put
  split
  · exact ⟨Tbl.sorted_erase t i h.1, fun e he => h.2 e (Tbl.mem_erase t i e he)⟩
  · next hx =>
    refine ⟨Tbl.sorted_insert t i x h.1, fun e he => ?_⟩
    rcases Tbl.mem_insert t i x e he with rfl | he
    · exact hx
    · exact h.2 e he

theorem Tbl.canon_putBytes (bs : Bytes) : ∀ (t : Tbl Byte) (a : Nat), Tbl.Canon t 0 → Tbl.Canon (Tbl.putBytes t a bs) 0 := by
  induction bs with
  | nil => intro t a h; exact h
  | cons b bs ih => intro t a h; exact ih _ _ (Tbl.canon_put t 0 a b h)

theorem Tbl.sorted_keep (t : Tbl α) (p : Nat → α → Bool) (h : Tbl.sorted t = true) : Tbl.sorted (Tbl.keep t p) = true := by
  induction t with
  | nil => rfl
  | cons a t ih =>
    obtain ⟨k, v⟩ := a
    simp only [Tbl.sorted, Bool.and_eq_true, List.all_eq_true, decide_eq_true_eq] at h
    have ih' := ih h.2
    simp only [Tbl.keep, List.filter_cons] at ih' ⊢
    split
    · simp only [Tbl.sorted, Bool.and_eq_true, List.all_eq_true, decide_eq_true_eq, List.mem_filter]
      exact ⟨fun q hq => h.1 q hq.1, ih'⟩
    · exact ih'

theorem Tbl.sorted_each (t : Tbl α) (f : Nat → α → α) (h : Tbl.sorted t = true) : Tbl.sorted (Tbl.each t f) = true := by
  induction t with
  | nil => rfl
  | cons a t ih =>
    obtain ⟨k, v⟩ := a
    simp only [Tbl.sorted, Bool.and_eq_true, List.all_eq_true, decide_eq_true_eq] at h
    have ih' := ih h.2
    simp only [Tbl.each, List.map_cons, Tbl.sorted, Bool.and_eq_true, List.all_eq_true, decide_eq_true_eq, List.mem_map] at ih' ⊢
    refine ⟨?_, ih'⟩
    rintro _ ⟨q, hq, rfl⟩
    exact h.1 q hq

namespace Machine

/-! ## The parts of the state, read after they are written -/

@[simp] theorem State.page_setPage (s : State) (f : Nat) (x : FnPage) : (s.setPage f x).page f = x := by
  simp [State.page, State.setPage]
@[simp] theorem State.strand_setStrand (s : State) (f : Nat) (x : Strand) (h : f ≠ 0) : (s.setStrand f x).strand f = x := by
  simp [State.strand, State.setStrand, h]
@[simp] theorem State.ring?_setRing (s : State) (f r : Nat) (x : Ring) : (s.setRing f r x).ring? f r = some x := by
  simp [State.ring?, State.setRing]
@[simp] theorem State.job?_setJob (s : State) (j : Nat) (x : Job) : (s.setJob j x).job? j = some x := by
  simp [State.job?, State.setJob]
@[simp] theorem State.frame_setFrame (s : State) (f : Nat) (x : Frame) : (s.setFrame f x).frame f = x := by
  simp [State.frame, State.setFrame]
@[simp] theorem State.creel_setCreel (s : State) (f c : Nat) (x : Creel) : (s.setCreel f c x).creel f c = x := by
  simp [State.creel, State.setCreel]
@[simp] theorem State.unit_setUnit (s : State) (f c u : Nat) (x : Unit') : (s.setUnit f c u x).unit f c u = x := by
  simp [State.unit, State.setUnit]
@[simp] theorem State.core_setCore (s : State) (n : Nat) (x : Core) : (s.setCore n x).core n = x := by
  simp [State.core, State.setCore]
@[simp] theorem State.ctx_setCtx (s : State) (n : Nat) (x : Ctx) : (s.setCtx n x).ctx n = x := by
  simp [State.ctx, State.setCtx]
@[simp] theorem State.src_setSrc (s : State) (n : Nat) (x : Src) : (s.setSrc n x).src n = x := by
  simp [State.src, State.setSrc]
@[simp] theorem State.inst_setInst (s : State) (n : Nat) (x : Inst) : (s.setInst n x).inst n = x := by
  simp [State.inst, State.setInst]
@[simp] theorem State.dslot_setDslot (s : State) (n : Nat) (x : DSlot) : (s.setDslot n x).dslot n = x := by
  simp [State.dslot, State.setDslot]
@[simp] theorem State.shuttle_setShuttle (s : State) (n : Nat) (x : Shuttle) : (s.setShuttle n x).shuttle n = x := by
  simp [State.shuttle, State.setShuttle]
@[simp] theorem State.port_setPort (s : State) (p : Port) (x : Spl) : (s.setPort p x).port p = x := by
  cases p <;> rfl
@[simp] theorem State.key?_setKey (s : State) (slot : Nat) (k : KeyObj) : (s.setKey slot k).key? slot = some k := by
  simp [State.key?, State.setKey]

theorem State.job?_setJob_ne (s : State) {i j : Nat} (x : Job) (h : i ≠ j) : (s.setJob j x).job? i = s.job? i := by
  simp [State.job?, State.setJob, Tbl.get?_insert_ne _ _ h]
theorem State.ring?_setRing_ne (s : State) {f r f' r' : Nat} (x : Ring) (h : ringNo f' r' ≠ ringNo f r) :
    (s.setRing f r x).ring? f' r' = s.ring? f' r' := by
  simp [State.ring?, State.setRing, Tbl.get?_insert_ne _ _ h]

end Machine
end Sys2Proof
end

