-- ==== Sys2Proof/Laws/Ops.lean ====
section
/-! SUPPORT. What each shared operation can change: its `_frame` lemma lists every field it leaves, and what it sets follows it. -/

namespace Sys2Proof.Machine

/-! ## Repetition -/

@[simp] theorem State.each_nil (s : State) (f : State → Nat → State) : s.each [] f = s := rfl
@[simp] theorem State.each_cons (s : State) (n : Nat) (l : List Nat) (f : State → Nat → State) :
    s.each (n :: l) f = (f s n).each l f := rfl

/-- What every application keeps, the repetition keeps. -/
theorem State.each_kept {α : Type} (p : State → α) (l : List Nat) (f : State → Nat → State)
    (h : ∀ s n, p (f s n) = p s) (s : State) : p (s.each l f) = p s := by
  induction l generalizing s with
  | nil => rfl
  | cons n l ih => rw [State.each_cons, ih, h]

theorem State.each_only_units (l : List Nat) (f : State → Nat → State)
    (h : ∀ s n, f s n = { s with units := (f s n).units }) (s : State) :
    s.each l f = { s with units := (s.each l f).units } := by
  induction l generalizing s with
  | nil => rfl
  | cons n l ih => rw [State.each_cons, ih, h]

/-! ## Frames -/

@[simp] theorem State.signal_frame (s : State) (f v : Nat) :
    (s.signal f v).glb = s.glb ∧ (s.signal f v).pins = s.pins ∧ (s.signal f v).otp = s.otp ∧
    (s.signal f v).vigil = s.vigil ∧ (s.signal f v).tmp = s.tmp ∧ (s.signal f v).lcs = s.lcs ∧ (s.signal f v).fns = s.fns ∧
    (s.signal f v).mbxPend = s.mbxPend ∧ (s.signal f v).rings = s.rings ∧ (s.signal f v).jobs = s.jobs ∧
    (s.signal f v).nextJob = s.nextJob ∧ (s.signal f v).admissions = s.admissions ∧ (s.signal f v).strands = s.strands ∧
    (s.signal f v).kst = s.kst ∧ (s.signal f v).frames = s.frames ∧ (s.signal f v).creels = s.creels ∧
    (s.signal f v).units = s.units ∧ (s.signal f v).cap = s.cap ∧ (s.signal f v).hdl = s.hdl ∧ (s.signal f v).trc = s.trc ∧
    (s.signal f v).sht = s.sht ∧ (s.signal f v).crx = s.crx ∧ (s.signal f v).rng = s.rng ∧ (s.signal f v).dge = s.dge ∧
    (s.signal f v).mcs = s.mcs ∧ (s.signal f v).hbm = s.hbm ∧ (s.signal f v).ply = s.ply ∧ (s.signal f v).spl = s.spl ∧
    (s.signal f v).smb = s.smb ∧ (s.signal f v).tap = s.tap ∧ (s.signal f v).free = s.free ∧
    (s.signal f v).pending = s.pending := by
  unfold State.signal; split <;> simp

@[simp] theorem State.hostError_frame (s : State) (b : Nat) :
    (s.hostError b).glb = s.glb ∧ (s.hostError b).pins = s.pins ∧ (s.hostError b).otp = s.otp ∧
    (s.hostError b).vigil = s.vigil ∧ (s.hostError b).tmp = s.tmp ∧ (s.hostError b).lcs = s.lcs ∧
    (s.hostError b).fns = s.fns ∧ (s.hostError b).mbxPend = s.mbxPend ∧ (s.hostError b).rings = s.rings ∧
    (s.hostError b).jobs = s.jobs ∧ (s.hostError b).nextJob = s.nextJob ∧ (s.hostError b).admissions = s.admissions ∧
    (s.hostError b).strands = s.strands ∧ (s.hostError b).kst = s.kst ∧ (s.hostError b).frames = s.frames ∧
    (s.hostError b).creels = s.creels ∧ (s.hostError b).units = s.units ∧ (s.hostError b).cap = s.cap ∧
    (s.hostError b).hdl = s.hdl ∧ (s.hostError b).trc = s.trc ∧ (s.hostError b).sht = s.sht ∧ (s.hostError b).crx = s.crx ∧
    (s.hostError b).rng = s.rng ∧ (s.hostError b).dge = s.dge ∧ (s.hostError b).mcs = s.mcs ∧ (s.hostError b).hbm = s.hbm ∧
    (s.hostError b).ply = s.ply ∧ (s.hostError b).spl = s.spl ∧ (s.hostError b).smb = s.smb ∧ (s.hostError b).tap = s.tap ∧
    (s.hostError b).free = s.free ∧ (s.hostError b).pending = s.pending := by
  simp [State.hostError]

@[simp] theorem State.readError_frame (s : State) (o : ReadOutcome) :
    (s.readError o).glb = s.glb ∧ (s.readError o).pins = s.pins ∧ (s.readError o).otp = s.otp ∧
    (s.readError o).vigil = s.vigil ∧ (s.readError o).tmp = s.tmp ∧ (s.readError o).lcs = s.lcs ∧
    (s.readError o).fns = s.fns ∧ (s.readError o).mbxPend = s.mbxPend ∧ (s.readError o).rings = s.rings ∧
    (s.readError o).jobs = s.jobs ∧ (s.readError o).nextJob = s.nextJob ∧ (s.readError o).admissions = s.admissions ∧
    (s.readError o).strands = s.strands ∧ (s.readError o).kst = s.kst ∧ (s.readError o).frames = s.frames ∧
    (s.readError o).creels = s.creels ∧ (s.readError o).units = s.units ∧ (s.readError o).cap = s.cap ∧
    (s.readError o).hdl = s.hdl ∧ (s.readError o).trc = s.trc ∧ (s.readError o).sht = s.sht ∧ (s.readError o).crx = s.crx ∧
    (s.readError o).rng = s.rng ∧ (s.readError o).dge = s.dge ∧ (s.readError o).mcs = s.mcs ∧ (s.readError o).hbm = s.hbm ∧
    (s.readError o).ply = s.ply ∧ (s.readError o).spl = s.spl ∧ (s.readError o).smb = s.smb ∧ (s.readError o).tap = s.tap ∧
    (s.readError o).free = s.free ∧ (s.readError o).pending = s.pending := by
  unfold State.readError; (repeat' split) <;> simp

@[simp] theorem State.setDl_frame (s : State) (l : Nat) (es : List DlEntry) :
    (s.setDl l es).glb = s.glb ∧ (s.setDl l es).pins = s.pins ∧ (s.setDl l es).host = s.host ∧ (s.setDl l es).otp = s.otp ∧
    (s.setDl l es).vigil = s.vigil ∧ (s.setDl l es).tmp = s.tmp ∧ (s.setDl l es).lcs = s.lcs ∧ (s.setDl l es).fns = s.fns ∧
    (s.setDl l es).mbxPend = s.mbxPend ∧ (s.setDl l es).rings = s.rings ∧ (s.setDl l es).jobs = s.jobs ∧
    (s.setDl l es).nextJob = s.nextJob ∧ (s.setDl l es).admissions = s.admissions ∧ (s.setDl l es).strands = s.strands ∧
    (s.setDl l es).kst = s.kst ∧ (s.setDl l es).frames = s.frames ∧ (s.setDl l es).creels = s.creels ∧
    (s.setDl l es).units = s.units ∧ (s.setDl l es).cap = s.cap ∧ (s.setDl l es).trc = s.trc ∧ (s.setDl l es).sht = s.sht ∧
    (s.setDl l es).crx = s.crx ∧ (s.setDl l es).rng = s.rng ∧ (s.setDl l es).dge = s.dge ∧ (s.setDl l es).mcs = s.mcs ∧
    (s.setDl l es).hbm = s.hbm ∧ (s.setDl l es).ply = s.ply ∧ (s.setDl l es).spl = s.spl ∧ (s.setDl l es).smb = s.smb ∧
    (s.setDl l es).tap = s.tap ∧ (s.setDl l es).free = s.free ∧ (s.setDl l es).pending = s.pending := by
  simp [State.setDl]

@[simp] theorem State.dlRemove_frame (s : State) (l : Nat) (c : Instr) :
    (s.dlRemove l c).glb = s.glb ∧ (s.dlRemove l c).pins = s.pins ∧ (s.dlRemove l c).host = s.host ∧
    (s.dlRemove l c).otp = s.otp ∧ (s.dlRemove l c).vigil = s.vigil ∧ (s.dlRemove l c).tmp = s.tmp ∧
    (s.dlRemove l c).lcs = s.lcs ∧ (s.dlRemove l c).fns = s.fns ∧ (s.dlRemove l c).mbxPend = s.mbxPend ∧
    (s.dlRemove l c).rings = s.rings ∧ (s.dlRemove l c).jobs = s.jobs ∧ (s.dlRemove l c).nextJob = s.nextJob ∧
    (s.dlRemove l c).admissions = s.admissions ∧ (s.dlRemove l c).strands = s.strands ∧ (s.dlRemove l c).kst = s.kst ∧
    (s.dlRemove l c).frames = s.frames ∧ (s.dlRemove l c).creels = s.creels ∧ (s.dlRemove l c).units = s.units ∧
    (s.dlRemove l c).cap = s.cap ∧ (s.dlRemove l c).trc = s.trc ∧ (s.dlRemove l c).sht = s.sht ∧
    (s.dlRemove l c).crx = s.crx ∧ (s.dlRemove l c).rng = s.rng ∧ (s.dlRemove l c).dge = s.dge ∧
    (s.dlRemove l c).mcs = s.mcs ∧ (s.dlRemove l c).hbm = s.hbm ∧ (s.dlRemove l c).ply = s.ply ∧
    (s.dlRemove l c).spl = s.spl ∧ (s.dlRemove l c).smb = s.smb ∧ (s.dlRemove l c).tap = s.tap ∧
    (s.dlRemove l c).free = s.free ∧ (s.dlRemove l c).pending = s.pending := by
  simp [State.dlRemove]

@[simp] theorem State.traceBuf_frame (s : State) (e : Ev) :
    (s.traceBuf e).glb = s.glb ∧ (s.traceBuf e).pins = s.pins ∧ (s.traceBuf e).host = s.host ∧ (s.traceBuf e).otp = s.otp ∧
    (s.traceBuf e).vigil = s.vigil ∧ (s.traceBuf e).tmp = s.tmp ∧ (s.traceBuf e).lcs = s.lcs ∧ (s.traceBuf e).fns = s.fns ∧
    (s.traceBuf e).mbxPend = s.mbxPend ∧ (s.traceBuf e).rings = s.rings ∧ (s.traceBuf e).jobs = s.jobs ∧
    (s.traceBuf e).nextJob = s.nextJob ∧ (s.traceBuf e).admissions = s.admissions ∧ (s.traceBuf e).strands = s.strands ∧
    (s.traceBuf e).kst = s.kst ∧ (s.traceBuf e).frames = s.frames ∧ (s.traceBuf e).creels = s.creels ∧
    (s.traceBuf e).units = s.units ∧ (s.traceBuf e).cap = s.cap ∧ (s.traceBuf e).hdl = s.hdl ∧ (s.traceBuf e).sht = s.sht ∧
    (s.traceBuf e).crx = s.crx ∧ (s.traceBuf e).rng = s.rng ∧ (s.traceBuf e).dge = s.dge ∧ (s.traceBuf e).mcs = s.mcs ∧
    (s.traceBuf e).hbm = s.hbm ∧ (s.traceBuf e).ply = s.ply ∧ (s.traceBuf e).spl = s.spl ∧ (s.traceBuf e).smb = s.smb ∧
    (s.traceBuf e).tap = s.tap ∧ (s.traceBuf e).pending = s.pending := by
  unfold State.traceBuf State.tracePort
  split
  · cases h : e.loc <;> (simp only; repeat' split) <;> simp [State.freeNum, State.freeBit]
  · simp

@[simp] theorem State.sendRingIrq_frame (s : State) (f r : Nat) :
    (s.sendRingIrq f r).glb = s.glb ∧ (s.sendRingIrq f r).pins = s.pins ∧ (s.sendRingIrq f r).otp = s.otp ∧
    (s.sendRingIrq f r).vigil = s.vigil ∧ (s.sendRingIrq f r).tmp = s.tmp ∧ (s.sendRingIrq f r).lcs = s.lcs ∧
    (s.sendRingIrq f r).fns = s.fns ∧ (s.sendRingIrq f r).mbxPend = s.mbxPend ∧ (s.sendRingIrq f r).jobs = s.jobs ∧
    (s.sendRingIrq f r).nextJob = s.nextJob ∧ (s.sendRingIrq f r).admissions = s.admissions ∧
    (s.sendRingIrq f r).strands = s.strands ∧ (s.sendRingIrq f r).kst = s.kst ∧ (s.sendRingIrq f r).frames = s.frames ∧
    (s.sendRingIrq f r).creels = s.creels ∧ (s.sendRingIrq f r).units = s.units ∧ (s.sendRingIrq f r).cap = s.cap ∧
    (s.sendRingIrq f r).trc = s.trc ∧ (s.sendRingIrq f r).sht = s.sht ∧ (s.sendRingIrq f r).crx = s.crx ∧
    (s.sendRingIrq f r).rng = s.rng ∧ (s.sendRingIrq f r).dge = s.dge ∧ (s.sendRingIrq f r).mcs = s.mcs ∧
    (s.sendRingIrq f r).hbm = s.hbm ∧ (s.sendRingIrq f r).ply = s.ply ∧ (s.sendRingIrq f r).spl = s.spl ∧
    (s.sendRingIrq f r).smb = s.smb ∧ (s.sendRingIrq f r).tap = s.tap ∧ (s.sendRingIrq f r).free = s.free ∧
    (s.sendRingIrq f r).pending = s.pending := by
  unfold State.sendRingIrq; split <;> simp

@[simp] theorem State.dlFree_frame (s : State) :
    s.dlFree.glb = s.glb ∧ s.dlFree.pins = s.pins ∧ s.dlFree.otp = s.otp ∧ s.dlFree.vigil = s.vigil ∧
    s.dlFree.tmp = s.tmp ∧ s.dlFree.lcs = s.lcs ∧ s.dlFree.fns = s.fns ∧ s.dlFree.mbxPend = s.mbxPend ∧
    s.dlFree.jobs = s.jobs ∧ s.dlFree.nextJob = s.nextJob ∧ s.dlFree.admissions = s.admissions ∧
    s.dlFree.strands = s.strands ∧ s.dlFree.kst = s.kst ∧ s.dlFree.frames = s.frames ∧ s.dlFree.creels = s.creels ∧
    s.dlFree.units = s.units ∧ s.dlFree.cap = s.cap ∧ s.dlFree.sht = s.sht ∧ s.dlFree.crx = s.crx ∧ s.dlFree.rng = s.rng ∧
    s.dlFree.dge = s.dge ∧ s.dlFree.mcs = s.mcs ∧ s.dlFree.hbm = s.hbm ∧ s.dlFree.ply = s.ply ∧ s.dlFree.spl = s.spl ∧
    s.dlFree.smb = s.smb ∧ s.dlFree.tap = s.tap ∧ s.dlFree.pending = s.pending := by
  unfold State.dlFree; try dsimp only
  (repeat' split) <;> simp

@[simp] theorem State.dlPut_frame (s : State) (l a : Nat) (c : Instr) :
    (s.dlPut l a c).glb = s.glb ∧ (s.dlPut l a c).pins = s.pins ∧ (s.dlPut l a c).otp = s.otp ∧
    (s.dlPut l a c).vigil = s.vigil ∧ (s.dlPut l a c).tmp = s.tmp ∧ (s.dlPut l a c).lcs = s.lcs ∧
    (s.dlPut l a c).fns = s.fns ∧ (s.dlPut l a c).mbxPend = s.mbxPend ∧ (s.dlPut l a c).jobs = s.jobs ∧
    (s.dlPut l a c).nextJob = s.nextJob ∧ (s.dlPut l a c).admissions = s.admissions ∧ (s.dlPut l a c).strands = s.strands ∧
    (s.dlPut l a c).kst = s.kst ∧ (s.dlPut l a c).frames = s.frames ∧ (s.dlPut l a c).creels = s.creels ∧
    (s.dlPut l a c).units = s.units ∧ (s.dlPut l a c).cap = s.cap ∧ (s.dlPut l a c).sht = s.sht ∧
    (s.dlPut l a c).crx = s.crx ∧ (s.dlPut l a c).rng = s.rng ∧ (s.dlPut l a c).dge = s.dge ∧ (s.dlPut l a c).mcs = s.mcs ∧
    (s.dlPut l a c).hbm = s.hbm ∧ (s.dlPut l a c).ply = s.ply ∧ (s.dlPut l a c).spl = s.spl ∧ (s.dlPut l a c).smb = s.smb ∧
    (s.dlPut l a c).tap = s.tap ∧ (s.dlPut l a c).pending = s.pending := by
  unfold State.dlPut; try dsimp only
  (repeat' split) <;> simp

@[simp] theorem State.countIrq_frame (s : State) (f r : Nat) :
    (s.countIrq f r).glb = s.glb ∧ (s.countIrq f r).pins = s.pins ∧ (s.countIrq f r).otp = s.otp ∧
    (s.countIrq f r).vigil = s.vigil ∧ (s.countIrq f r).tmp = s.tmp ∧ (s.countIrq f r).lcs = s.lcs ∧
    (s.countIrq f r).fns = s.fns ∧ (s.countIrq f r).mbxPend = s.mbxPend ∧ (s.countIrq f r).jobs = s.jobs ∧
    (s.countIrq f r).nextJob = s.nextJob ∧ (s.countIrq f r).admissions = s.admissions ∧
    (s.countIrq f r).strands = s.strands ∧ (s.countIrq f r).kst = s.kst ∧ (s.countIrq f r).frames = s.frames ∧
    (s.countIrq f r).creels = s.creels ∧ (s.countIrq f r).units = s.units ∧ (s.countIrq f r).cap = s.cap ∧
    (s.countIrq f r).sht = s.sht ∧ (s.countIrq f r).crx = s.crx ∧ (s.countIrq f r).rng = s.rng ∧
    (s.countIrq f r).dge = s.dge ∧ (s.countIrq f r).mcs = s.mcs ∧ (s.countIrq f r).hbm = s.hbm ∧
    (s.countIrq f r).ply = s.ply ∧ (s.countIrq f r).spl = s.spl ∧ (s.countIrq f r).smb = s.smb ∧
    (s.countIrq f r).tap = s.tap ∧ (s.countIrq f r).pending = s.pending := by
  unfold State.countIrq; try dsimp only
  (repeat' split) <;> simp

@[simp] theorem State.mirrorEntry_frame (s : State) (a b : List W64) :
    (s.mirrorEntry a b).glb = s.glb ∧ (s.mirrorEntry a b).pins = s.pins ∧ (s.mirrorEntry a b).otp = s.otp ∧
    (s.mirrorEntry a b).vigil = s.vigil ∧ (s.mirrorEntry a b).tmp = s.tmp ∧ (s.mirrorEntry a b).lcs = s.lcs ∧
    (s.mirrorEntry a b).fns = s.fns ∧ (s.mirrorEntry a b).mbxPend = s.mbxPend ∧ (s.mirrorEntry a b).jobs = s.jobs ∧
    (s.mirrorEntry a b).nextJob = s.nextJob ∧ (s.mirrorEntry a b).admissions = s.admissions ∧
    (s.mirrorEntry a b).strands = s.strands ∧ (s.mirrorEntry a b).kst = s.kst ∧ (s.mirrorEntry a b).frames = s.frames ∧
    (s.mirrorEntry a b).creels = s.creels ∧ (s.mirrorEntry a b).units = s.units ∧ (s.mirrorEntry a b).cap = s.cap ∧
    (s.mirrorEntry a b).sht = s.sht ∧ (s.mirrorEntry a b).crx = s.crx ∧ (s.mirrorEntry a b).rng = s.rng ∧
    (s.mirrorEntry a b).dge = s.dge ∧ (s.mirrorEntry a b).mcs = s.mcs ∧ (s.mirrorEntry a b).hbm = s.hbm ∧
    (s.mirrorEntry a b).ply = s.ply ∧ (s.mirrorEntry a b).spl = s.spl ∧ (s.mirrorEntry a b).smb = s.smb ∧
    (s.mirrorEntry a b).tap = s.tap ∧ (s.mirrorEntry a b).pending = s.pending := by
  unfold State.mirrorEntry; try dsimp only
  split <;> simp

@[simp] theorem State.mirrorFlush_frame (s : State) (n : Nat) :
    (s.mirrorFlush n).glb = s.glb ∧ (s.mirrorFlush n).pins = s.pins ∧ (s.mirrorFlush n).otp = s.otp ∧
    (s.mirrorFlush n).vigil = s.vigil ∧ (s.mirrorFlush n).tmp = s.tmp ∧ (s.mirrorFlush n).lcs = s.lcs ∧
    (s.mirrorFlush n).fns = s.fns ∧ (s.mirrorFlush n).mbxPend = s.mbxPend ∧ (s.mirrorFlush n).jobs = s.jobs ∧
    (s.mirrorFlush n).nextJob = s.nextJob ∧ (s.mirrorFlush n).admissions = s.admissions ∧
    (s.mirrorFlush n).strands = s.strands ∧ (s.mirrorFlush n).kst = s.kst ∧ (s.mirrorFlush n).frames = s.frames ∧
    (s.mirrorFlush n).creels = s.creels ∧ (s.mirrorFlush n).units = s.units ∧ (s.mirrorFlush n).cap = s.cap ∧
    (s.mirrorFlush n).sht = s.sht ∧ (s.mirrorFlush n).crx = s.crx ∧ (s.mirrorFlush n).rng = s.rng ∧
    (s.mirrorFlush n).dge = s.dge ∧ (s.mirrorFlush n).mcs = s.mcs ∧ (s.mirrorFlush n).hbm = s.hbm ∧
    (s.mirrorFlush n).ply = s.ply ∧ (s.mirrorFlush n).spl = s.spl ∧ (s.mirrorFlush n).smb = s.smb ∧
    (s.mirrorFlush n).tap = s.tap ∧ (s.mirrorFlush n).pending = s.pending := by
  induction n generalizing s with
  | zero => simp [State.mirrorFlush]
  | succ n ih => unfold State.mirrorFlush; split <;> simp [ih]

@[simp] theorem State.mirrorAll_frame (s : State) :
    s.mirrorAll.glb = s.glb ∧ s.mirrorAll.pins = s.pins ∧ s.mirrorAll.otp = s.otp ∧ s.mirrorAll.vigil = s.vigil ∧
    s.mirrorAll.tmp = s.tmp ∧ s.mirrorAll.lcs = s.lcs ∧ s.mirrorAll.fns = s.fns ∧ s.mirrorAll.mbxPend = s.mbxPend ∧
    s.mirrorAll.jobs = s.jobs ∧ s.mirrorAll.nextJob = s.nextJob ∧ s.mirrorAll.admissions = s.admissions ∧
    s.mirrorAll.strands = s.strands ∧ s.mirrorAll.kst = s.kst ∧ s.mirrorAll.frames = s.frames ∧
    s.mirrorAll.creels = s.creels ∧ s.mirrorAll.units = s.units ∧ s.mirrorAll.cap = s.cap ∧ s.mirrorAll.sht = s.sht ∧
    s.mirrorAll.crx = s.crx ∧ s.mirrorAll.rng = s.rng ∧ s.mirrorAll.dge = s.dge ∧ s.mirrorAll.mcs = s.mcs ∧
    s.mirrorAll.hbm = s.hbm ∧ s.mirrorAll.ply = s.ply ∧ s.mirrorAll.spl = s.spl ∧ s.mirrorAll.smb = s.smb ∧
    s.mirrorAll.tap = s.tap ∧ s.mirrorAll.pending = s.pending := by
  simp [State.mirrorAll]

@[simp] theorem State.dlInsert_frame (s : State) (l a : Nat) (c : Instr) :
    (s.dlInsert l a c).glb = s.glb ∧ (s.dlInsert l a c).pins = s.pins ∧ (s.dlInsert l a c).otp = s.otp ∧
    (s.dlInsert l a c).vigil = s.vigil ∧ (s.dlInsert l a c).tmp = s.tmp ∧ (s.dlInsert l a c).lcs = s.lcs ∧
    (s.dlInsert l a c).fns = s.fns ∧ (s.dlInsert l a c).mbxPend = s.mbxPend ∧ (s.dlInsert l a c).jobs = s.jobs ∧
    (s.dlInsert l a c).nextJob = s.nextJob ∧ (s.dlInsert l a c).admissions = s.admissions ∧
    (s.dlInsert l a c).strands = s.strands ∧ (s.dlInsert l a c).kst = s.kst ∧ (s.dlInsert l a c).frames = s.frames ∧
    (s.dlInsert l a c).creels = s.creels ∧ (s.dlInsert l a c).units = s.units ∧ (s.dlInsert l a c).cap = s.cap ∧
    (s.dlInsert l a c).sht = s.sht ∧ (s.dlInsert l a c).crx = s.crx ∧ (s.dlInsert l a c).rng = s.rng ∧
    (s.dlInsert l a c).dge = s.dge ∧ (s.dlInsert l a c).mcs = s.mcs ∧ (s.dlInsert l a c).hbm = s.hbm ∧
    (s.dlInsert l a c).ply = s.ply ∧ (s.dlInsert l a c).spl = s.spl ∧ (s.dlInsert l a c).smb = s.smb ∧
    (s.dlInsert l a c).tap = s.tap ∧ (s.dlInsert l a c).pending = s.pending := by
  simp [State.dlInsert]

@[simp] theorem State.trace_frame (s : State) (e : Ev) :
    (s.trace e).glb = s.glb ∧ (s.trace e).pins = s.pins ∧ (s.trace e).otp = s.otp ∧ (s.trace e).vigil = s.vigil ∧
    (s.trace e).tmp = s.tmp ∧ (s.trace e).lcs = s.lcs ∧ (s.trace e).fns = s.fns ∧ (s.trace e).mbxPend = s.mbxPend ∧
    (s.trace e).jobs = s.jobs ∧ (s.trace e).nextJob = s.nextJob ∧ (s.trace e).admissions = s.admissions ∧
    (s.trace e).strands = s.strands ∧ (s.trace e).kst = s.kst ∧ (s.trace e).frames = s.frames ∧
    (s.trace e).creels = s.creels ∧ (s.trace e).units = s.units ∧ (s.trace e).cap = s.cap ∧ (s.trace e).sht = s.sht ∧
    (s.trace e).crx = s.crx ∧ (s.trace e).rng = s.rng ∧ (s.trace e).dge = s.dge ∧ (s.trace e).mcs = s.mcs ∧
    (s.trace e).hbm = s.hbm ∧ (s.trace e).ply = s.ply ∧ (s.trace e).spl = s.spl ∧ (s.trace e).smb = s.smb ∧
    (s.trace e).tap = s.tap ∧ (s.trace e).pending = s.pending := by
  simp [State.trace]

@[simp] theorem State.notice_frame (s : State) (f c a b : Nat) :
    (s.notice f c a b).glb = s.glb ∧ (s.notice f c a b).pins = s.pins ∧ (s.notice f c a b).otp = s.otp ∧
    (s.notice f c a b).vigil = s.vigil ∧ (s.notice f c a b).tmp = s.tmp ∧ (s.notice f c a b).lcs = s.lcs ∧
    (s.notice f c a b).fns = s.fns ∧ (s.notice f c a b).mbxPend = s.mbxPend ∧ (s.notice f c a b).rings = s.rings ∧
    (s.notice f c a b).jobs = s.jobs ∧ (s.notice f c a b).nextJob = s.nextJob ∧
    (s.notice f c a b).admissions = s.admissions ∧ (s.notice f c a b).kst = s.kst ∧ (s.notice f c a b).frames = s.frames ∧
    (s.notice f c a b).creels = s.creels ∧ (s.notice f c a b).units = s.units ∧ (s.notice f c a b).cap = s.cap ∧
    (s.notice f c a b).hdl = s.hdl ∧ (s.notice f c a b).trc = s.trc ∧ (s.notice f c a b).sht = s.sht ∧
    (s.notice f c a b).crx = s.crx ∧ (s.notice f c a b).rng = s.rng ∧ (s.notice f c a b).dge = s.dge ∧
    (s.notice f c a b).mcs = s.mcs ∧ (s.notice f c a b).hbm = s.hbm ∧ (s.notice f c a b).ply = s.ply ∧
    (s.notice f c a b).spl = s.spl ∧ (s.notice f c a b).smb = s.smb ∧ (s.notice f c a b).tap = s.tap ∧
    (s.notice f c a b).free = s.free ∧ (s.notice f c a b).pending = s.pending := by
  unfold State.notice; try dsimp only
  (repeat' split) <;> simp

@[simp] theorem State.ogSettle_frame (s : State) (g : Nat) :
    (s.ogSettle g).glb = s.glb ∧ (s.ogSettle g).pins = s.pins ∧ (s.ogSettle g).host = s.host ∧ (s.ogSettle g).otp = s.otp ∧
    (s.ogSettle g).vigil = s.vigil ∧ (s.ogSettle g).tmp = s.tmp ∧ (s.ogSettle g).lcs = s.lcs ∧ (s.ogSettle g).fns = s.fns ∧
    (s.ogSettle g).mbxPend = s.mbxPend ∧ (s.ogSettle g).rings = s.rings ∧ (s.ogSettle g).jobs = s.jobs ∧
    (s.ogSettle g).nextJob = s.nextJob ∧ (s.ogSettle g).admissions = s.admissions ∧ (s.ogSettle g).strands = s.strands ∧
    (s.ogSettle g).kst = s.kst ∧ (s.ogSettle g).frames = s.frames ∧ (s.ogSettle g).creels = s.creels ∧
    (s.ogSettle g).units = s.units ∧ (s.ogSettle g).cap = s.cap ∧ (s.ogSettle g).trc = s.trc ∧ (s.ogSettle g).sht = s.sht ∧
    (s.ogSettle g).crx = s.crx ∧ (s.ogSettle g).rng = s.rng ∧ (s.ogSettle g).dge = s.dge ∧ (s.ogSettle g).mcs = s.mcs ∧
    (s.ogSettle g).hbm = s.hbm ∧ (s.ogSettle g).ply = s.ply ∧ (s.ogSettle g).spl = s.spl ∧ (s.ogSettle g).smb = s.smb ∧
    (s.ogSettle g).tap = s.tap ∧ (s.ogSettle g).free = s.free ∧ (s.ogSettle g).pending = s.pending := by
  simp [State.ogSettle]

@[simp] theorem State.removeJob_frame (s : State) (j : Nat) :
    (s.removeJob j).glb = s.glb ∧ (s.removeJob j).pins = s.pins ∧ (s.removeJob j).host = s.host ∧
    (s.removeJob j).otp = s.otp ∧ (s.removeJob j).vigil = s.vigil ∧ (s.removeJob j).tmp = s.tmp ∧
    (s.removeJob j).lcs = s.lcs ∧ (s.removeJob j).fns = s.fns ∧ (s.removeJob j).mbxPend = s.mbxPend ∧
    (s.removeJob j).rings = s.rings ∧ (s.removeJob j).nextJob = s.nextJob ∧ (s.removeJob j).admissions = s.admissions ∧
    (s.removeJob j).strands = s.strands ∧ (s.removeJob j).kst = s.kst ∧ (s.removeJob j).frames = s.frames ∧
    (s.removeJob j).creels = s.creels ∧ (s.removeJob j).units = s.units ∧ (s.removeJob j).cap = s.cap ∧
    (s.removeJob j).trc = s.trc ∧ (s.removeJob j).sht = s.sht ∧ (s.removeJob j).crx = s.crx ∧ (s.removeJob j).rng = s.rng ∧
    (s.removeJob j).dge = s.dge ∧ (s.removeJob j).mcs = s.mcs ∧ (s.removeJob j).hbm = s.hbm ∧ (s.removeJob j).ply = s.ply ∧
    (s.removeJob j).spl = s.spl ∧ (s.removeJob j).smb = s.smb ∧ (s.removeJob j).tap = s.tap ∧
    (s.removeJob j).free = s.free ∧ (s.removeJob j).pending = s.pending := by
  unfold State.removeJob; split <;> simp

@[simp] theorem State.modJob_frame (s : State) (j : Nat) (g : Job → Job) :
    (s.modJob j g).glb = s.glb ∧ (s.modJob j g).pins = s.pins ∧ (s.modJob j g).host = s.host ∧ (s.modJob j g).otp = s.otp ∧
    (s.modJob j g).vigil = s.vigil ∧ (s.modJob j g).tmp = s.tmp ∧ (s.modJob j g).lcs = s.lcs ∧ (s.modJob j g).fns = s.fns ∧
    (s.modJob j g).mbxPend = s.mbxPend ∧ (s.modJob j g).rings = s.rings ∧ (s.modJob j g).nextJob = s.nextJob ∧
    (s.modJob j g).admissions = s.admissions ∧ (s.modJob j g).strands = s.strands ∧ (s.modJob j g).kst = s.kst ∧
    (s.modJob j g).frames = s.frames ∧ (s.modJob j g).creels = s.creels ∧ (s.modJob j g).units = s.units ∧
    (s.modJob j g).cap = s.cap ∧ (s.modJob j g).hdl = s.hdl ∧ (s.modJob j g).trc = s.trc ∧ (s.modJob j g).sht = s.sht ∧
    (s.modJob j g).crx = s.crx ∧ (s.modJob j g).rng = s.rng ∧ (s.modJob j g).dge = s.dge ∧ (s.modJob j g).mcs = s.mcs ∧
    (s.modJob j g).hbm = s.hbm ∧ (s.modJob j g).ply = s.ply ∧ (s.modJob j g).spl = s.spl ∧ (s.modJob j g).smb = s.smb ∧
    (s.modJob j g).tap = s.tap ∧ (s.modJob j g).free = s.free ∧ (s.modJob j g).pending = s.pending := by
  unfold State.modJob; split <;> simp

@[simp] theorem State.modKey_frame (s : State) (k u : Nat) (g : KeyObj → KeyObj) :
    (s.modKey k u g).glb = s.glb ∧ (s.modKey k u g).pins = s.pins ∧ (s.modKey k u g).host = s.host ∧
    (s.modKey k u g).otp = s.otp ∧ (s.modKey k u g).vigil = s.vigil ∧ (s.modKey k u g).tmp = s.tmp ∧
    (s.modKey k u g).lcs = s.lcs ∧ (s.modKey k u g).fns = s.fns ∧ (s.modKey k u g).mbxPend = s.mbxPend ∧
    (s.modKey k u g).rings = s.rings ∧ (s.modKey k u g).jobs = s.jobs ∧ (s.modKey k u g).nextJob = s.nextJob ∧
    (s.modKey k u g).admissions = s.admissions ∧ (s.modKey k u g).strands = s.strands ∧
    (s.modKey k u g).frames = s.frames ∧ (s.modKey k u g).creels = s.creels ∧ (s.modKey k u g).units = s.units ∧
    (s.modKey k u g).cap = s.cap ∧ (s.modKey k u g).hdl = s.hdl ∧ (s.modKey k u g).trc = s.trc ∧
    (s.modKey k u g).sht = s.sht ∧ (s.modKey k u g).crx = s.crx ∧ (s.modKey k u g).rng = s.rng ∧
    (s.modKey k u g).dge = s.dge ∧ (s.modKey k u g).mcs = s.mcs ∧ (s.modKey k u g).hbm = s.hbm ∧
    (s.modKey k u g).ply = s.ply ∧ (s.modKey k u g).spl = s.spl ∧ (s.modKey k u g).smb = s.smb ∧
    (s.modKey k u g).tap = s.tap ∧ (s.modKey k u g).free = s.free ∧ (s.modKey k u g).pending = s.pending := by
  unfold State.modKey; (repeat' split) <;> simp

@[simp] theorem State.freeUnit_frame (s : State) (f c u : Nat) (b : Bool) :
    (s.freeUnit f c u b).glb = s.glb ∧ (s.freeUnit f c u b).pins = s.pins ∧ (s.freeUnit f c u b).host = s.host ∧
    (s.freeUnit f c u b).otp = s.otp ∧ (s.freeUnit f c u b).vigil = s.vigil ∧ (s.freeUnit f c u b).tmp = s.tmp ∧
    (s.freeUnit f c u b).lcs = s.lcs ∧ (s.freeUnit f c u b).fns = s.fns ∧ (s.freeUnit f c u b).mbxPend = s.mbxPend ∧
    (s.freeUnit f c u b).rings = s.rings ∧ (s.freeUnit f c u b).jobs = s.jobs ∧ (s.freeUnit f c u b).nextJob = s.nextJob ∧
    (s.freeUnit f c u b).admissions = s.admissions ∧ (s.freeUnit f c u b).strands = s.strands ∧
    (s.freeUnit f c u b).kst = s.kst ∧ (s.freeUnit f c u b).frames = s.frames ∧ (s.freeUnit f c u b).creels = s.creels ∧
    (s.freeUnit f c u b).cap = s.cap ∧ (s.freeUnit f c u b).hdl = s.hdl ∧ (s.freeUnit f c u b).trc = s.trc ∧
    (s.freeUnit f c u b).sht = s.sht ∧ (s.freeUnit f c u b).crx = s.crx ∧ (s.freeUnit f c u b).rng = s.rng ∧
    (s.freeUnit f c u b).dge = s.dge ∧ (s.freeUnit f c u b).mcs = s.mcs ∧ (s.freeUnit f c u b).hbm = s.hbm ∧
    (s.freeUnit f c u b).ply = s.ply ∧ (s.freeUnit f c u b).spl = s.spl ∧ (s.freeUnit f c u b).smb = s.smb ∧
    (s.freeUnit f c u b).tap = s.tap ∧ (s.freeUnit f c u b).free = s.free ∧ (s.freeUnit f c u b).pending = s.pending := by
  simp [State.freeUnit]

@[simp] theorem State.freeBank_frame (s : State) (j : Nat) :
    (s.freeBank j).glb = s.glb ∧ (s.freeBank j).pins = s.pins ∧ (s.freeBank j).host = s.host ∧ (s.freeBank j).otp = s.otp ∧
    (s.freeBank j).vigil = s.vigil ∧ (s.freeBank j).tmp = s.tmp ∧ (s.freeBank j).lcs = s.lcs ∧ (s.freeBank j).fns = s.fns ∧
    (s.freeBank j).mbxPend = s.mbxPend ∧ (s.freeBank j).rings = s.rings ∧ (s.freeBank j).nextJob = s.nextJob ∧
    (s.freeBank j).admissions = s.admissions ∧ (s.freeBank j).strands = s.strands ∧ (s.freeBank j).kst = s.kst ∧
    (s.freeBank j).frames = s.frames ∧ (s.freeBank j).creels = s.creels ∧ (s.freeBank j).cap = s.cap ∧
    (s.freeBank j).hdl = s.hdl ∧ (s.freeBank j).trc = s.trc ∧ (s.freeBank j).sht = s.sht ∧ (s.freeBank j).crx = s.crx ∧
    (s.freeBank j).rng = s.rng ∧ (s.freeBank j).dge = s.dge ∧ (s.freeBank j).mcs = s.mcs ∧ (s.freeBank j).hbm = s.hbm ∧
    (s.freeBank j).ply = s.ply ∧ (s.freeBank j).spl = s.spl ∧ (s.freeBank j).smb = s.smb ∧ (s.freeBank j).tap = s.tap ∧
    (s.freeBank j).free = s.free ∧ (s.freeBank j).pending = s.pending := by
  unfold State.freeBank; (repeat' split) <;> simp

@[simp] theorem State.shtDecide_frame (s : State) (i l n : Nat) :
    (s.shtDecide i l n).glb = s.glb ∧ (s.shtDecide i l n).pins = s.pins ∧ (s.shtDecide i l n).host = s.host ∧
    (s.shtDecide i l n).otp = s.otp ∧ (s.shtDecide i l n).vigil = s.vigil ∧ (s.shtDecide i l n).tmp = s.tmp ∧
    (s.shtDecide i l n).lcs = s.lcs ∧ (s.shtDecide i l n).fns = s.fns ∧ (s.shtDecide i l n).mbxPend = s.mbxPend ∧
    (s.shtDecide i l n).rings = s.rings ∧ (s.shtDecide i l n).jobs = s.jobs ∧ (s.shtDecide i l n).nextJob = s.nextJob ∧
    (s.shtDecide i l n).admissions = s.admissions ∧ (s.shtDecide i l n).strands = s.strands ∧
    (s.shtDecide i l n).kst = s.kst ∧ (s.shtDecide i l n).frames = s.frames ∧ (s.shtDecide i l n).creels = s.creels ∧
    (s.shtDecide i l n).units = s.units ∧ (s.shtDecide i l n).cap = s.cap ∧ (s.shtDecide i l n).hdl = s.hdl ∧
    (s.shtDecide i l n).trc = s.trc ∧ (s.shtDecide i l n).crx = s.crx ∧ (s.shtDecide i l n).rng = s.rng ∧
    (s.shtDecide i l n).dge = s.dge ∧ (s.shtDecide i l n).mcs = s.mcs ∧ (s.shtDecide i l n).hbm = s.hbm ∧
    (s.shtDecide i l n).ply = s.ply ∧ (s.shtDecide i l n).spl = s.spl ∧ (s.shtDecide i l n).smb = s.smb ∧
    (s.shtDecide i l n).tap = s.tap ∧ (s.shtDecide i l n).free = s.free ∧ (s.shtDecide i l n).pending = s.pending := by
  unfold State.shtDecide; (try dsimp only)
  (repeat' split) <;> simp

@[simp] theorem State.each_shtDecide_frame (s : State) (ls : List Nat) (i n : Nat) :
    (s.each ls (fun s l => s.shtDecide i l n)).glb = s.glb ∧ (s.each ls (fun s l => s.shtDecide i l n)).pins = s.pins ∧
    (s.each ls (fun s l => s.shtDecide i l n)).host = s.host ∧ (s.each ls (fun s l => s.shtDecide i l n)).otp = s.otp ∧
    (s.each ls (fun s l => s.shtDecide i l n)).vigil = s.vigil ∧ (s.each ls (fun s l => s.shtDecide i l n)).tmp = s.tmp ∧
    (s.each ls (fun s l => s.shtDecide i l n)).lcs = s.lcs ∧ (s.each ls (fun s l => s.shtDecide i l n)).fns = s.fns ∧
    (s.each ls (fun s l => s.shtDecide i l n)).mbxPend = s.mbxPend ∧
    (s.each ls (fun s l => s.shtDecide i l n)).rings = s.rings ∧ (s.each ls (fun s l => s.shtDecide i l n)).jobs = s.jobs ∧
    (s.each ls (fun s l => s.shtDecide i l n)).nextJob = s.nextJob ∧
    (s.each ls (fun s l => s.shtDecide i l n)).admissions = s.admissions ∧
    (s.each ls (fun s l => s.shtDecide i l n)).strands = s.strands ∧ (s.each ls (fun s l => s.shtDecide i l n)).kst = s.kst ∧
    (s.each ls (fun s l => s.shtDecide i l n)).frames = s.frames ∧
    (s.each ls (fun s l => s.shtDecide i l n)).creels = s.creels ∧
    (s.each ls (fun s l => s.shtDecide i l n)).units = s.units ∧ (s.each ls (fun s l => s.shtDecide i l n)).cap = s.cap ∧
    (s.each ls (fun s l => s.shtDecide i l n)).hdl = s.hdl ∧ (s.each ls (fun s l => s.shtDecide i l n)).trc = s.trc ∧
    (s.each ls (fun s l => s.shtDecide i l n)).crx = s.crx ∧ (s.each ls (fun s l => s.shtDecide i l n)).rng = s.rng ∧
    (s.each ls (fun s l => s.shtDecide i l n)).dge = s.dge ∧ (s.each ls (fun s l => s.shtDecide i l n)).mcs = s.mcs ∧
    (s.each ls (fun s l => s.shtDecide i l n)).hbm = s.hbm ∧ (s.each ls (fun s l => s.shtDecide i l n)).ply = s.ply ∧
    (s.each ls (fun s l => s.shtDecide i l n)).spl = s.spl ∧ (s.each ls (fun s l => s.shtDecide i l n)).smb = s.smb ∧
    (s.each ls (fun s l => s.shtDecide i l n)).tap = s.tap ∧ (s.each ls (fun s l => s.shtDecide i l n)).free = s.free ∧
    (s.each ls (fun s l => s.shtDecide i l n)).pending = s.pending := by
  simpa only [Prod.mk.injEq] using State.each_kept (fun s => (s.glb, s.pins, s.host, s.otp, s.vigil, s.tmp, s.lcs, s.fns, s.mbxPend, s.rings, s.jobs, s.nextJob, s.admissions, s.strands, s.kst, s.frames, s.creels, s.units, s.cap, s.hdl, s.trc, s.crx, s.rng, s.dge, s.mcs, s.hbm, s.ply, s.spl, s.smb, s.tap, s.free, s.pending)) ls _ (by simp) s

@[simp] theorem State.shtUpTo_frame (s : State) (i n k : Nat) :
    (s.shtUpTo i n k).glb = s.glb ∧ (s.shtUpTo i n k).pins = s.pins ∧ (s.shtUpTo i n k).host = s.host ∧
    (s.shtUpTo i n k).otp = s.otp ∧ (s.shtUpTo i n k).vigil = s.vigil ∧ (s.shtUpTo i n k).tmp = s.tmp ∧
    (s.shtUpTo i n k).lcs = s.lcs ∧ (s.shtUpTo i n k).fns = s.fns ∧ (s.shtUpTo i n k).mbxPend = s.mbxPend ∧
    (s.shtUpTo i n k).rings = s.rings ∧ (s.shtUpTo i n k).jobs = s.jobs ∧ (s.shtUpTo i n k).nextJob = s.nextJob ∧
    (s.shtUpTo i n k).admissions = s.admissions ∧ (s.shtUpTo i n k).strands = s.strands ∧ (s.shtUpTo i n k).kst = s.kst ∧
    (s.shtUpTo i n k).frames = s.frames ∧ (s.shtUpTo i n k).creels = s.creels ∧ (s.shtUpTo i n k).units = s.units ∧
    (s.shtUpTo i n k).cap = s.cap ∧ (s.shtUpTo i n k).hdl = s.hdl ∧ (s.shtUpTo i n k).trc = s.trc ∧
    (s.shtUpTo i n k).crx = s.crx ∧ (s.shtUpTo i n k).rng = s.rng ∧ (s.shtUpTo i n k).dge = s.dge ∧
    (s.shtUpTo i n k).mcs = s.mcs ∧ (s.shtUpTo i n k).hbm = s.hbm ∧ (s.shtUpTo i n k).ply = s.ply ∧
    (s.shtUpTo i n k).spl = s.spl ∧ (s.shtUpTo i n k).smb = s.smb ∧ (s.shtUpTo i n k).tap = s.tap ∧
    (s.shtUpTo i n k).free = s.free ∧ (s.shtUpTo i n k).pending = s.pending := by
  induction k generalizing s with
  | zero => simp [State.shtUpTo]
  | succ k ih =>
    unfold State.shtUpTo
    (repeat' split) <;> simp [ih]

@[simp] theorem State.shtAdvance_frame (s : State) (i n : Nat) :
    (s.shtAdvance i n).glb = s.glb ∧ (s.shtAdvance i n).pins = s.pins ∧ (s.shtAdvance i n).host = s.host ∧
    (s.shtAdvance i n).otp = s.otp ∧ (s.shtAdvance i n).vigil = s.vigil ∧ (s.shtAdvance i n).tmp = s.tmp ∧
    (s.shtAdvance i n).lcs = s.lcs ∧ (s.shtAdvance i n).fns = s.fns ∧ (s.shtAdvance i n).mbxPend = s.mbxPend ∧
    (s.shtAdvance i n).rings = s.rings ∧ (s.shtAdvance i n).jobs = s.jobs ∧ (s.shtAdvance i n).nextJob = s.nextJob ∧
    (s.shtAdvance i n).admissions = s.admissions ∧ (s.shtAdvance i n).strands = s.strands ∧
    (s.shtAdvance i n).kst = s.kst ∧ (s.shtAdvance i n).frames = s.frames ∧ (s.shtAdvance i n).creels = s.creels ∧
    (s.shtAdvance i n).units = s.units ∧ (s.shtAdvance i n).cap = s.cap ∧ (s.shtAdvance i n).hdl = s.hdl ∧
    (s.shtAdvance i n).trc = s.trc ∧ (s.shtAdvance i n).crx = s.crx ∧ (s.shtAdvance i n).rng = s.rng ∧
    (s.shtAdvance i n).dge = s.dge ∧ (s.shtAdvance i n).mcs = s.mcs ∧ (s.shtAdvance i n).hbm = s.hbm ∧
    (s.shtAdvance i n).ply = s.ply ∧ (s.shtAdvance i n).spl = s.spl ∧ (s.shtAdvance i n).smb = s.smb ∧
    (s.shtAdvance i n).tap = s.tap ∧ (s.shtAdvance i n).free = s.free ∧ (s.shtAdvance i n).pending = s.pending := by
  simp [State.shtAdvance]

@[simp] theorem State.laneDecide_frame (s : State) (i : Nat) :
    (s.laneDecide i).glb = s.glb ∧ (s.laneDecide i).pins = s.pins ∧ (s.laneDecide i).host = s.host ∧
    (s.laneDecide i).otp = s.otp ∧ (s.laneDecide i).vigil = s.vigil ∧ (s.laneDecide i).tmp = s.tmp ∧
    (s.laneDecide i).lcs = s.lcs ∧ (s.laneDecide i).fns = s.fns ∧ (s.laneDecide i).mbxPend = s.mbxPend ∧
    (s.laneDecide i).rings = s.rings ∧ (s.laneDecide i).jobs = s.jobs ∧ (s.laneDecide i).nextJob = s.nextJob ∧
    (s.laneDecide i).admissions = s.admissions ∧ (s.laneDecide i).strands = s.strands ∧ (s.laneDecide i).kst = s.kst ∧
    (s.laneDecide i).frames = s.frames ∧ (s.laneDecide i).creels = s.creels ∧ (s.laneDecide i).units = s.units ∧
    (s.laneDecide i).cap = s.cap ∧ (s.laneDecide i).hdl = s.hdl ∧ (s.laneDecide i).trc = s.trc ∧
    (s.laneDecide i).crx = s.crx ∧ (s.laneDecide i).rng = s.rng ∧ (s.laneDecide i).dge = s.dge ∧
    (s.laneDecide i).mcs = s.mcs ∧ (s.laneDecide i).hbm = s.hbm ∧ (s.laneDecide i).ply = s.ply ∧
    (s.laneDecide i).spl = s.spl ∧ (s.laneDecide i).smb = s.smb ∧ (s.laneDecide i).tap = s.tap ∧
    (s.laneDecide i).free = s.free ∧ (s.laneDecide i).pending = s.pending := by
  simp [State.laneDecide]

@[simp] theorem State.shtEnd_frame (s : State) (i l n : Nat) (g : ShtGrant) :
    (s.shtEnd i l n g).glb = s.glb ∧ (s.shtEnd i l n g).pins = s.pins ∧ (s.shtEnd i l n g).host = s.host ∧
    (s.shtEnd i l n g).otp = s.otp ∧ (s.shtEnd i l n g).vigil = s.vigil ∧ (s.shtEnd i l n g).tmp = s.tmp ∧
    (s.shtEnd i l n g).lcs = s.lcs ∧ (s.shtEnd i l n g).fns = s.fns ∧ (s.shtEnd i l n g).mbxPend = s.mbxPend ∧
    (s.shtEnd i l n g).rings = s.rings ∧ (s.shtEnd i l n g).jobs = s.jobs ∧ (s.shtEnd i l n g).nextJob = s.nextJob ∧
    (s.shtEnd i l n g).admissions = s.admissions ∧ (s.shtEnd i l n g).strands = s.strands ∧
    (s.shtEnd i l n g).kst = s.kst ∧ (s.shtEnd i l n g).frames = s.frames ∧ (s.shtEnd i l n g).creels = s.creels ∧
    (s.shtEnd i l n g).units = s.units ∧ (s.shtEnd i l n g).cap = s.cap ∧ (s.shtEnd i l n g).hdl = s.hdl ∧
    (s.shtEnd i l n g).trc = s.trc ∧ (s.shtEnd i l n g).crx = s.crx ∧ (s.shtEnd i l n g).rng = s.rng ∧
    (s.shtEnd i l n g).dge = s.dge ∧ (s.shtEnd i l n g).mcs = s.mcs ∧ (s.shtEnd i l n g).hbm = s.hbm ∧
    (s.shtEnd i l n g).ply = s.ply ∧ (s.shtEnd i l n g).spl = s.spl ∧ (s.shtEnd i l n g).smb = s.smb ∧
    (s.shtEnd i l n g).tap = s.tap ∧ (s.shtEnd i l n g).free = s.free ∧ (s.shtEnd i l n g).pending = s.pending := by
  unfold State.shtEnd; (try dsimp only)
  split <;> simp

@[simp] theorem State.shtAsk_frame (s : State) (i r c n : Nat) (a b d : Option Nat) :
    (s.shtAsk i r c n a b d).glb = s.glb ∧ (s.shtAsk i r c n a b d).pins = s.pins ∧
    (s.shtAsk i r c n a b d).host = s.host ∧ (s.shtAsk i r c n a b d).otp = s.otp ∧
    (s.shtAsk i r c n a b d).vigil = s.vigil ∧ (s.shtAsk i r c n a b d).tmp = s.tmp ∧
    (s.shtAsk i r c n a b d).lcs = s.lcs ∧ (s.shtAsk i r c n a b d).fns = s.fns ∧
    (s.shtAsk i r c n a b d).mbxPend = s.mbxPend ∧ (s.shtAsk i r c n a b d).rings = s.rings ∧
    (s.shtAsk i r c n a b d).jobs = s.jobs ∧ (s.shtAsk i r c n a b d).nextJob = s.nextJob ∧
    (s.shtAsk i r c n a b d).admissions = s.admissions ∧ (s.shtAsk i r c n a b d).strands = s.strands ∧
    (s.shtAsk i r c n a b d).kst = s.kst ∧ (s.shtAsk i r c n a b d).frames = s.frames ∧
    (s.shtAsk i r c n a b d).creels = s.creels ∧ (s.shtAsk i r c n a b d).units = s.units ∧
    (s.shtAsk i r c n a b d).cap = s.cap ∧ (s.shtAsk i r c n a b d).hdl = s.hdl ∧ (s.shtAsk i r c n a b d).trc = s.trc ∧
    (s.shtAsk i r c n a b d).crx = s.crx ∧ (s.shtAsk i r c n a b d).rng = s.rng ∧ (s.shtAsk i r c n a b d).dge = s.dge ∧
    (s.shtAsk i r c n a b d).mcs = s.mcs ∧ (s.shtAsk i r c n a b d).hbm = s.hbm ∧ (s.shtAsk i r c n a b d).ply = s.ply ∧
    (s.shtAsk i r c n a b d).spl = s.spl ∧ (s.shtAsk i r c n a b d).smb = s.smb ∧ (s.shtAsk i r c n a b d).tap = s.tap ∧
    (s.shtAsk i r c n a b d).free = s.free ∧ (s.shtAsk i r c n a b d).pending = s.pending := by
  unfold State.shtAsk; (try dsimp only)
  (repeat' split) <;> simp

@[simp] theorem State.ctxAsk_frame (s : State) (i r c : Nat) (l : Option Nat) :
    (s.ctxAsk i r c l).glb = s.glb ∧ (s.ctxAsk i r c l).pins = s.pins ∧ (s.ctxAsk i r c l).host = s.host ∧
    (s.ctxAsk i r c l).otp = s.otp ∧ (s.ctxAsk i r c l).vigil = s.vigil ∧ (s.ctxAsk i r c l).tmp = s.tmp ∧
    (s.ctxAsk i r c l).lcs = s.lcs ∧ (s.ctxAsk i r c l).fns = s.fns ∧ (s.ctxAsk i r c l).mbxPend = s.mbxPend ∧
    (s.ctxAsk i r c l).rings = s.rings ∧ (s.ctxAsk i r c l).jobs = s.jobs ∧ (s.ctxAsk i r c l).nextJob = s.nextJob ∧
    (s.ctxAsk i r c l).admissions = s.admissions ∧ (s.ctxAsk i r c l).strands = s.strands ∧
    (s.ctxAsk i r c l).kst = s.kst ∧ (s.ctxAsk i r c l).frames = s.frames ∧ (s.ctxAsk i r c l).creels = s.creels ∧
    (s.ctxAsk i r c l).units = s.units ∧ (s.ctxAsk i r c l).cap = s.cap ∧ (s.ctxAsk i r c l).hdl = s.hdl ∧
    (s.ctxAsk i r c l).trc = s.trc ∧ (s.ctxAsk i r c l).crx = s.crx ∧ (s.ctxAsk i r c l).rng = s.rng ∧
    (s.ctxAsk i r c l).dge = s.dge ∧ (s.ctxAsk i r c l).mcs = s.mcs ∧ (s.ctxAsk i r c l).hbm = s.hbm ∧
    (s.ctxAsk i r c l).ply = s.ply ∧ (s.ctxAsk i r c l).spl = s.spl ∧ (s.ctxAsk i r c l).smb = s.smb ∧
    (s.ctxAsk i r c l).tap = s.tap ∧ (s.ctxAsk i r c l).free = s.free ∧ (s.ctxAsk i r c l).pending = s.pending := by
  simp [State.ctxAsk]

@[simp] theorem State.ctxDrop_frame (s : State) (i : Nat) (p : Nat → Bool) (c : Nat) :
    (s.ctxDrop i p c).glb = s.glb ∧ (s.ctxDrop i p c).pins = s.pins ∧ (s.ctxDrop i p c).host = s.host ∧
    (s.ctxDrop i p c).otp = s.otp ∧ (s.ctxDrop i p c).vigil = s.vigil ∧ (s.ctxDrop i p c).tmp = s.tmp ∧
    (s.ctxDrop i p c).lcs = s.lcs ∧ (s.ctxDrop i p c).fns = s.fns ∧ (s.ctxDrop i p c).mbxPend = s.mbxPend ∧
    (s.ctxDrop i p c).rings = s.rings ∧ (s.ctxDrop i p c).jobs = s.jobs ∧ (s.ctxDrop i p c).nextJob = s.nextJob ∧
    (s.ctxDrop i p c).admissions = s.admissions ∧ (s.ctxDrop i p c).strands = s.strands ∧ (s.ctxDrop i p c).kst = s.kst ∧
    (s.ctxDrop i p c).frames = s.frames ∧ (s.ctxDrop i p c).creels = s.creels ∧ (s.ctxDrop i p c).units = s.units ∧
    (s.ctxDrop i p c).cap = s.cap ∧ (s.ctxDrop i p c).hdl = s.hdl ∧ (s.ctxDrop i p c).trc = s.trc ∧
    (s.ctxDrop i p c).crx = s.crx ∧ (s.ctxDrop i p c).rng = s.rng ∧ (s.ctxDrop i p c).dge = s.dge ∧
    (s.ctxDrop i p c).mcs = s.mcs ∧ (s.ctxDrop i p c).hbm = s.hbm ∧ (s.ctxDrop i p c).ply = s.ply ∧
    (s.ctxDrop i p c).spl = s.spl ∧ (s.ctxDrop i p c).smb = s.smb ∧ (s.ctxDrop i p c).tap = s.tap ∧
    (s.ctxDrop i p c).free = s.free ∧ (s.ctxDrop i p c).pending = s.pending := by
  unfold State.ctxDrop; (try dsimp only)
  split <;> simp

@[simp] theorem State.laneFree_frame (s : State) (i j : Nat) :
    (s.laneFree i j).glb = s.glb ∧ (s.laneFree i j).pins = s.pins ∧ (s.laneFree i j).host = s.host ∧
    (s.laneFree i j).otp = s.otp ∧ (s.laneFree i j).vigil = s.vigil ∧ (s.laneFree i j).tmp = s.tmp ∧
    (s.laneFree i j).lcs = s.lcs ∧ (s.laneFree i j).fns = s.fns ∧ (s.laneFree i j).mbxPend = s.mbxPend ∧
    (s.laneFree i j).rings = s.rings ∧ (s.laneFree i j).jobs = s.jobs ∧ (s.laneFree i j).nextJob = s.nextJob ∧
    (s.laneFree i j).admissions = s.admissions ∧ (s.laneFree i j).strands = s.strands ∧ (s.laneFree i j).kst = s.kst ∧
    (s.laneFree i j).frames = s.frames ∧ (s.laneFree i j).creels = s.creels ∧ (s.laneFree i j).units = s.units ∧
    (s.laneFree i j).cap = s.cap ∧ (s.laneFree i j).hdl = s.hdl ∧ (s.laneFree i j).trc = s.trc ∧
    (s.laneFree i j).crx = s.crx ∧ (s.laneFree i j).rng = s.rng ∧ (s.laneFree i j).dge = s.dge ∧
    (s.laneFree i j).mcs = s.mcs ∧ (s.laneFree i j).hbm = s.hbm ∧ (s.laneFree i j).ply = s.ply ∧
    (s.laneFree i j).spl = s.spl ∧ (s.laneFree i j).smb = s.smb ∧ (s.laneFree i j).tap = s.tap ∧
    (s.laneFree i j).free = s.free ∧ (s.laneFree i j).pending = s.pending := by
  simp [State.laneFree]

@[simp] theorem State.regAsk_frame (s : State) (n : Nat) :
    (s.regAsk n).glb = s.glb ∧ (s.regAsk n).pins = s.pins ∧ (s.regAsk n).host = s.host ∧ (s.regAsk n).otp = s.otp ∧
    (s.regAsk n).vigil = s.vigil ∧ (s.regAsk n).tmp = s.tmp ∧ (s.regAsk n).lcs = s.lcs ∧ (s.regAsk n).fns = s.fns ∧
    (s.regAsk n).mbxPend = s.mbxPend ∧ (s.regAsk n).rings = s.rings ∧ (s.regAsk n).jobs = s.jobs ∧
    (s.regAsk n).nextJob = s.nextJob ∧ (s.regAsk n).admissions = s.admissions ∧ (s.regAsk n).strands = s.strands ∧
    (s.regAsk n).kst = s.kst ∧ (s.regAsk n).frames = s.frames ∧ (s.regAsk n).creels = s.creels ∧
    (s.regAsk n).units = s.units ∧ (s.regAsk n).cap = s.cap ∧ (s.regAsk n).hdl = s.hdl ∧ (s.regAsk n).trc = s.trc ∧
    (s.regAsk n).crx = s.crx ∧ (s.regAsk n).rng = s.rng ∧ (s.regAsk n).dge = s.dge ∧ (s.regAsk n).mcs = s.mcs ∧
    (s.regAsk n).hbm = s.hbm ∧ (s.regAsk n).ply = s.ply ∧ (s.regAsk n).spl = s.spl ∧ (s.regAsk n).smb = s.smb ∧
    (s.regAsk n).tap = s.tap ∧ (s.regAsk n).free = s.free ∧ (s.regAsk n).pending = s.pending := by
  unfold State.regAsk; split <;> simp

@[simp] theorem State.regDrop_frame (s : State) (n : Nat) :
    (s.regDrop n).glb = s.glb ∧ (s.regDrop n).pins = s.pins ∧ (s.regDrop n).host = s.host ∧ (s.regDrop n).otp = s.otp ∧
    (s.regDrop n).vigil = s.vigil ∧ (s.regDrop n).tmp = s.tmp ∧ (s.regDrop n).lcs = s.lcs ∧ (s.regDrop n).fns = s.fns ∧
    (s.regDrop n).mbxPend = s.mbxPend ∧ (s.regDrop n).rings = s.rings ∧ (s.regDrop n).jobs = s.jobs ∧
    (s.regDrop n).nextJob = s.nextJob ∧ (s.regDrop n).admissions = s.admissions ∧ (s.regDrop n).strands = s.strands ∧
    (s.regDrop n).kst = s.kst ∧ (s.regDrop n).frames = s.frames ∧ (s.regDrop n).creels = s.creels ∧
    (s.regDrop n).units = s.units ∧ (s.regDrop n).cap = s.cap ∧ (s.regDrop n).hdl = s.hdl ∧ (s.regDrop n).trc = s.trc ∧
    (s.regDrop n).crx = s.crx ∧ (s.regDrop n).rng = s.rng ∧ (s.regDrop n).dge = s.dge ∧ (s.regDrop n).mcs = s.mcs ∧
    (s.regDrop n).hbm = s.hbm ∧ (s.regDrop n).ply = s.ply ∧ (s.regDrop n).spl = s.spl ∧ (s.regDrop n).smb = s.smb ∧
    (s.regDrop n).tap = s.tap ∧ (s.regDrop n).free = s.free ∧ (s.regDrop n).pending = s.pending := by
  simp [State.regDrop]

@[simp] theorem State.wipeTwin_frame (s : State) (k : Nat) (a : KeyObj) (r : Replacing) :
    (s.wipeTwin k a r).glb = s.glb ∧ (s.wipeTwin k a r).pins = s.pins ∧ (s.wipeTwin k a r).host = s.host ∧
    (s.wipeTwin k a r).otp = s.otp ∧ (s.wipeTwin k a r).vigil = s.vigil ∧ (s.wipeTwin k a r).tmp = s.tmp ∧
    (s.wipeTwin k a r).lcs = s.lcs ∧ (s.wipeTwin k a r).fns = s.fns ∧ (s.wipeTwin k a r).mbxPend = s.mbxPend ∧
    (s.wipeTwin k a r).rings = s.rings ∧ (s.wipeTwin k a r).jobs = s.jobs ∧ (s.wipeTwin k a r).nextJob = s.nextJob ∧
    (s.wipeTwin k a r).admissions = s.admissions ∧ (s.wipeTwin k a r).strands = s.strands ∧
    (s.wipeTwin k a r).kst = s.kst ∧ (s.wipeTwin k a r).frames = s.frames ∧ (s.wipeTwin k a r).creels = s.creels ∧
    (s.wipeTwin k a r).units = s.units ∧ (s.wipeTwin k a r).cap = s.cap ∧ (s.wipeTwin k a r).hdl = s.hdl ∧
    (s.wipeTwin k a r).trc = s.trc ∧ (s.wipeTwin k a r).sht = s.sht ∧ (s.wipeTwin k a r).crx = s.crx ∧
    (s.wipeTwin k a r).rng = s.rng ∧ (s.wipeTwin k a r).dge = s.dge ∧ (s.wipeTwin k a r).mcs = s.mcs ∧
    (s.wipeTwin k a r).hbm = s.hbm ∧ (s.wipeTwin k a r).spl = s.spl ∧ (s.wipeTwin k a r).smb = s.smb ∧
    (s.wipeTwin k a r).tap = s.tap ∧ (s.wipeTwin k a r).free = s.free ∧ (s.wipeTwin k a r).pending = s.pending := by
  unfold State.wipeTwin; split <;> simp [State.plySend]

@[simp] theorem State.endShadow_frame (s : State) (j : Nat) :
    (s.endShadow j).glb = s.glb ∧ (s.endShadow j).pins = s.pins ∧ (s.endShadow j).host = s.host ∧
    (s.endShadow j).otp = s.otp ∧ (s.endShadow j).vigil = s.vigil ∧ (s.endShadow j).tmp = s.tmp ∧
    (s.endShadow j).lcs = s.lcs ∧ (s.endShadow j).fns = s.fns ∧ (s.endShadow j).mbxPend = s.mbxPend ∧
    (s.endShadow j).rings = s.rings ∧ (s.endShadow j).jobs = s.jobs ∧ (s.endShadow j).nextJob = s.nextJob ∧
    (s.endShadow j).admissions = s.admissions ∧ (s.endShadow j).strands = s.strands ∧ (s.endShadow j).frames = s.frames ∧
    (s.endShadow j).creels = s.creels ∧ (s.endShadow j).units = s.units ∧ (s.endShadow j).cap = s.cap ∧
    (s.endShadow j).hdl = s.hdl ∧ (s.endShadow j).trc = s.trc ∧ (s.endShadow j).sht = s.sht ∧ (s.endShadow j).crx = s.crx ∧
    (s.endShadow j).rng = s.rng ∧ (s.endShadow j).dge = s.dge ∧ (s.endShadow j).mcs = s.mcs ∧ (s.endShadow j).hbm = s.hbm ∧
    (s.endShadow j).spl = s.spl ∧ (s.endShadow j).smb = s.smb ∧ (s.endShadow j).tap = s.tap ∧
    (s.endShadow j).free = s.free ∧ (s.endShadow j).pending = s.pending := by
  unfold State.endShadow; (repeat' split) <;> simp

@[simp] theorem State.sealCycles_frame (s : State) (j : Nat) :
    (s.sealCycles j).glb = s.glb ∧ (s.sealCycles j).pins = s.pins ∧ (s.sealCycles j).host = s.host ∧
    (s.sealCycles j).otp = s.otp ∧ (s.sealCycles j).vigil = s.vigil ∧ (s.sealCycles j).tmp = s.tmp ∧
    (s.sealCycles j).lcs = s.lcs ∧ (s.sealCycles j).fns = s.fns ∧ (s.sealCycles j).mbxPend = s.mbxPend ∧
    (s.sealCycles j).rings = s.rings ∧ (s.sealCycles j).nextJob = s.nextJob ∧ (s.sealCycles j).admissions = s.admissions ∧
    (s.sealCycles j).strands = s.strands ∧ (s.sealCycles j).kst = s.kst ∧ (s.sealCycles j).frames = s.frames ∧
    (s.sealCycles j).creels = s.creels ∧ (s.sealCycles j).units = s.units ∧ (s.sealCycles j).cap = s.cap ∧
    (s.sealCycles j).hdl = s.hdl ∧ (s.sealCycles j).trc = s.trc ∧ (s.sealCycles j).sht = s.sht ∧
    (s.sealCycles j).crx = s.crx ∧ (s.sealCycles j).rng = s.rng ∧ (s.sealCycles j).dge = s.dge ∧
    (s.sealCycles j).mcs = s.mcs ∧ (s.sealCycles j).hbm = s.hbm ∧ (s.sealCycles j).ply = s.ply ∧
    (s.sealCycles j).spl = s.spl ∧ (s.sealCycles j).smb = s.smb ∧ (s.sealCycles j).tap = s.tap ∧
    (s.sealCycles j).pending = s.pending := by
  unfold State.sealCycles State.freeNum; (try dsimp only); (repeat' split) <;> simp

@[simp] theorem State.takeGate_frame (s : State) (j : Nat) :
    (s.takeGate j).glb = s.glb ∧ (s.takeGate j).pins = s.pins ∧ (s.takeGate j).host = s.host ∧ (s.takeGate j).otp = s.otp ∧
    (s.takeGate j).vigil = s.vigil ∧ (s.takeGate j).tmp = s.tmp ∧ (s.takeGate j).lcs = s.lcs ∧ (s.takeGate j).fns = s.fns ∧
    (s.takeGate j).mbxPend = s.mbxPend ∧ (s.takeGate j).rings = s.rings ∧ (s.takeGate j).jobs = s.jobs ∧
    (s.takeGate j).nextJob = s.nextJob ∧ (s.takeGate j).admissions = s.admissions ∧ (s.takeGate j).strands = s.strands ∧
    (s.takeGate j).kst = s.kst ∧ (s.takeGate j).frames = s.frames ∧ (s.takeGate j).creels = s.creels ∧
    (s.takeGate j).units = s.units ∧ (s.takeGate j).cap = s.cap ∧ (s.takeGate j).hdl = s.hdl ∧ (s.takeGate j).trc = s.trc ∧
    (s.takeGate j).sht = s.sht ∧ (s.takeGate j).rng = s.rng ∧ (s.takeGate j).dge = s.dge ∧ (s.takeGate j).mcs = s.mcs ∧
    (s.takeGate j).hbm = s.hbm ∧ (s.takeGate j).ply = s.ply ∧ (s.takeGate j).spl = s.spl ∧ (s.takeGate j).smb = s.smb ∧
    (s.takeGate j).tap = s.tap ∧ (s.takeGate j).free = s.free ∧ (s.takeGate j).pending = s.pending := by
  unfold State.takeGate; (try dsimp only)
  (repeat' split) <;> simp

@[simp] theorem State.undeal_frame (s : State) (j : Nat) :
    (s.undeal j).glb = s.glb ∧ (s.undeal j).pins = s.pins ∧ (s.undeal j).host = s.host ∧ (s.undeal j).otp = s.otp ∧
    (s.undeal j).vigil = s.vigil ∧ (s.undeal j).tmp = s.tmp ∧ (s.undeal j).lcs = s.lcs ∧ (s.undeal j).fns = s.fns ∧
    (s.undeal j).mbxPend = s.mbxPend ∧ (s.undeal j).rings = s.rings ∧ (s.undeal j).jobs = s.jobs ∧
    (s.undeal j).nextJob = s.nextJob ∧ (s.undeal j).admissions = s.admissions ∧ (s.undeal j).strands = s.strands ∧
    (s.undeal j).kst = s.kst ∧ (s.undeal j).frames = s.frames ∧ (s.undeal j).units = s.units ∧ (s.undeal j).cap = s.cap ∧
    (s.undeal j).hdl = s.hdl ∧ (s.undeal j).trc = s.trc ∧ (s.undeal j).sht = s.sht ∧ (s.undeal j).crx = s.crx ∧
    (s.undeal j).rng = s.rng ∧ (s.undeal j).dge = s.dge ∧ (s.undeal j).mcs = s.mcs ∧ (s.undeal j).hbm = s.hbm ∧
    (s.undeal j).ply = s.ply ∧ (s.undeal j).spl = s.spl ∧ (s.undeal j).smb = s.smb ∧ (s.undeal j).tap = s.tap ∧
    (s.undeal j).free = s.free ∧ (s.undeal j).pending = s.pending := by
  simp [State.undeal]

@[simp] theorem State.unreserve_frame (s : State) (j : Nat) :
    (s.unreserve j).glb = s.glb ∧ (s.unreserve j).pins = s.pins ∧ (s.unreserve j).host = s.host ∧
    (s.unreserve j).otp = s.otp ∧ (s.unreserve j).vigil = s.vigil ∧ (s.unreserve j).tmp = s.tmp ∧
    (s.unreserve j).lcs = s.lcs ∧ (s.unreserve j).fns = s.fns ∧ (s.unreserve j).mbxPend = s.mbxPend ∧
    (s.unreserve j).rings = s.rings ∧ (s.unreserve j).nextJob = s.nextJob ∧ (s.unreserve j).admissions = s.admissions ∧
    (s.unreserve j).strands = s.strands ∧ (s.unreserve j).frames = s.frames ∧ (s.unreserve j).creels = s.creels ∧
    (s.unreserve j).units = s.units ∧ (s.unreserve j).cap = s.cap ∧ (s.unreserve j).hdl = s.hdl ∧
    (s.unreserve j).trc = s.trc ∧ (s.unreserve j).sht = s.sht ∧ (s.unreserve j).crx = s.crx ∧ (s.unreserve j).rng = s.rng ∧
    (s.unreserve j).dge = s.dge ∧ (s.unreserve j).mcs = s.mcs ∧ (s.unreserve j).hbm = s.hbm ∧ (s.unreserve j).ply = s.ply ∧
    (s.unreserve j).spl = s.spl ∧ (s.unreserve j).smb = s.smb ∧ (s.unreserve j).tap = s.tap ∧
    (s.unreserve j).free = s.free ∧ (s.unreserve j).pending = s.pending := by
  unfold State.unreserve; (repeat' split) <;> simp

@[simp] theorem State.unuse_frame (s : State) (j : Nat) :
    (s.unuse j).glb = s.glb ∧ (s.unuse j).pins = s.pins ∧ (s.unuse j).host = s.host ∧ (s.unuse j).otp = s.otp ∧
    (s.unuse j).vigil = s.vigil ∧ (s.unuse j).tmp = s.tmp ∧ (s.unuse j).lcs = s.lcs ∧ (s.unuse j).fns = s.fns ∧
    (s.unuse j).mbxPend = s.mbxPend ∧ (s.unuse j).rings = s.rings ∧ (s.unuse j).nextJob = s.nextJob ∧
    (s.unuse j).admissions = s.admissions ∧ (s.unuse j).strands = s.strands ∧ (s.unuse j).frames = s.frames ∧
    (s.unuse j).creels = s.creels ∧ (s.unuse j).units = s.units ∧ (s.unuse j).cap = s.cap ∧ (s.unuse j).hdl = s.hdl ∧
    (s.unuse j).trc = s.trc ∧ (s.unuse j).sht = s.sht ∧ (s.unuse j).crx = s.crx ∧ (s.unuse j).rng = s.rng ∧
    (s.unuse j).dge = s.dge ∧ (s.unuse j).mcs = s.mcs ∧ (s.unuse j).hbm = s.hbm ∧ (s.unuse j).ply = s.ply ∧
    (s.unuse j).spl = s.spl ∧ (s.unuse j).smb = s.smb ∧ (s.unuse j).tap = s.tap ∧ (s.unuse j).free = s.free ∧
    (s.unuse j).pending = s.pending := by
  unfold State.unuse; (repeat' split) <;> simp

@[simp] theorem State.burn_frame (s : State) (j : Nat) :
    (s.burn j).glb = s.glb ∧ (s.burn j).pins = s.pins ∧ (s.burn j).host = s.host ∧ (s.burn j).otp = s.otp ∧
    (s.burn j).vigil = s.vigil ∧ (s.burn j).tmp = s.tmp ∧ (s.burn j).lcs = s.lcs ∧ (s.burn j).fns = s.fns ∧
    (s.burn j).mbxPend = s.mbxPend ∧ (s.burn j).rings = s.rings ∧ (s.burn j).nextJob = s.nextJob ∧
    (s.burn j).admissions = s.admissions ∧ (s.burn j).strands = s.strands ∧ (s.burn j).frames = s.frames ∧
    (s.burn j).creels = s.creels ∧ (s.burn j).units = s.units ∧ (s.burn j).cap = s.cap ∧ (s.burn j).hdl = s.hdl ∧
    (s.burn j).trc = s.trc ∧ (s.burn j).sht = s.sht ∧ (s.burn j).crx = s.crx ∧ (s.burn j).rng = s.rng ∧
    (s.burn j).dge = s.dge ∧ (s.burn j).mcs = s.mcs ∧ (s.burn j).hbm = s.hbm ∧ (s.burn j).ply = s.ply ∧
    (s.burn j).spl = s.spl ∧ (s.burn j).smb = s.smb ∧ (s.burn j).tap = s.tap ∧ (s.burn j).free = s.free ∧
    (s.burn j).pending = s.pending := by
  unfold State.burn; (repeat' split) <;> simp

@[simp] theorem State.leaveS3_frame (s : State) (j : Nat) :
    (s.leaveS3 j).glb = s.glb ∧ (s.leaveS3 j).pins = s.pins ∧ (s.leaveS3 j).host = s.host ∧ (s.leaveS3 j).otp = s.otp ∧
    (s.leaveS3 j).vigil = s.vigil ∧ (s.leaveS3 j).tmp = s.tmp ∧ (s.leaveS3 j).lcs = s.lcs ∧ (s.leaveS3 j).fns = s.fns ∧
    (s.leaveS3 j).mbxPend = s.mbxPend ∧ (s.leaveS3 j).rings = s.rings ∧ (s.leaveS3 j).jobs = s.jobs ∧
    (s.leaveS3 j).nextJob = s.nextJob ∧ (s.leaveS3 j).admissions = s.admissions ∧ (s.leaveS3 j).strands = s.strands ∧
    (s.leaveS3 j).kst = s.kst ∧ (s.leaveS3 j).frames = s.frames ∧ (s.leaveS3 j).creels = s.creels ∧
    (s.leaveS3 j).units = s.units ∧ (s.leaveS3 j).cap = s.cap ∧ (s.leaveS3 j).trc = s.trc ∧ (s.leaveS3 j).sht = s.sht ∧
    (s.leaveS3 j).crx = s.crx ∧ (s.leaveS3 j).rng = s.rng ∧ (s.leaveS3 j).dge = s.dge ∧ (s.leaveS3 j).mcs = s.mcs ∧
    (s.leaveS3 j).hbm = s.hbm ∧ (s.leaveS3 j).ply = s.ply ∧ (s.leaveS3 j).spl = s.spl ∧ (s.leaveS3 j).smb = s.smb ∧
    (s.leaveS3 j).tap = s.tap ∧ (s.leaveS3 j).free = s.free ∧ (s.leaveS3 j).pending = s.pending := by
  simp [State.leaveS3]

@[simp] theorem State.freeUnits_frame (s : State) (j : Nat) (b : Bool) :
    (s.freeUnits j b).glb = s.glb ∧ (s.freeUnits j b).pins = s.pins ∧ (s.freeUnits j b).host = s.host ∧
    (s.freeUnits j b).otp = s.otp ∧ (s.freeUnits j b).vigil = s.vigil ∧ (s.freeUnits j b).tmp = s.tmp ∧
    (s.freeUnits j b).lcs = s.lcs ∧ (s.freeUnits j b).fns = s.fns ∧ (s.freeUnits j b).mbxPend = s.mbxPend ∧
    (s.freeUnits j b).rings = s.rings ∧ (s.freeUnits j b).nextJob = s.nextJob ∧
    (s.freeUnits j b).admissions = s.admissions ∧ (s.freeUnits j b).strands = s.strands ∧ (s.freeUnits j b).kst = s.kst ∧
    (s.freeUnits j b).frames = s.frames ∧ (s.freeUnits j b).creels = s.creels ∧ (s.freeUnits j b).cap = s.cap ∧
    (s.freeUnits j b).hdl = s.hdl ∧ (s.freeUnits j b).trc = s.trc ∧ (s.freeUnits j b).crx = s.crx ∧
    (s.freeUnits j b).rng = s.rng ∧ (s.freeUnits j b).dge = s.dge ∧ (s.freeUnits j b).mcs = s.mcs ∧
    (s.freeUnits j b).hbm = s.hbm ∧ (s.freeUnits j b).ply = s.ply ∧ (s.freeUnits j b).spl = s.spl ∧
    (s.freeUnits j b).smb = s.smb ∧ (s.freeUnits j b).tap = s.tap ∧ (s.freeUnits j b).free = s.free ∧
    (s.freeUnits j b).pending = s.pending := by
  have h : ∀ (l : List Nat) (f c : Nat) (s : State), (s.each l (fun s u => s.freeUnit f c u b)) =
      { s with units := (s.each l (fun s u => s.freeUnit f c u b)).units } := fun l f c s =>
    State.each_only_units l _ (fun _ _ => rfl) s
  unfold State.freeUnits; try dsimp only
  (repeat' split) <;> simp <;> rw [h] <;> simp

@[simp] theorem State.refuse_frame (s : State) (j a b c : Nat) :
    (s.refuse j a b c).glb = s.glb ∧ (s.refuse j a b c).pins = s.pins ∧ (s.refuse j a b c).host = s.host ∧
    (s.refuse j a b c).otp = s.otp ∧ (s.refuse j a b c).vigil = s.vigil ∧ (s.refuse j a b c).tmp = s.tmp ∧
    (s.refuse j a b c).lcs = s.lcs ∧ (s.refuse j a b c).fns = s.fns ∧ (s.refuse j a b c).mbxPend = s.mbxPend ∧
    (s.refuse j a b c).rings = s.rings ∧ (s.refuse j a b c).nextJob = s.nextJob ∧
    (s.refuse j a b c).admissions = s.admissions ∧ (s.refuse j a b c).strands = s.strands ∧
    (s.refuse j a b c).frames = s.frames ∧ (s.refuse j a b c).cap = s.cap ∧ (s.refuse j a b c).trc = s.trc ∧
    (s.refuse j a b c).rng = s.rng ∧ (s.refuse j a b c).dge = s.dge ∧ (s.refuse j a b c).mcs = s.mcs ∧
    (s.refuse j a b c).hbm = s.hbm ∧ (s.refuse j a b c).ply = s.ply ∧ (s.refuse j a b c).spl = s.spl ∧
    (s.refuse j a b c).smb = s.smb ∧ (s.refuse j a b c).tap = s.tap ∧ (s.refuse j a b c).free = s.free ∧
    (s.refuse j a b c).pending = s.pending := by
  unfold State.refuse; try dsimp only
  split <;> simp

@[simp] theorem State.failWith_frame (s : State) (j a b : Nat) :
    (s.failWith j a b).glb = s.glb ∧ (s.failWith j a b).pins = s.pins ∧ (s.failWith j a b).host = s.host ∧
    (s.failWith j a b).otp = s.otp ∧ (s.failWith j a b).vigil = s.vigil ∧ (s.failWith j a b).tmp = s.tmp ∧
    (s.failWith j a b).lcs = s.lcs ∧ (s.failWith j a b).fns = s.fns ∧ (s.failWith j a b).mbxPend = s.mbxPend ∧
    (s.failWith j a b).rings = s.rings ∧ (s.failWith j a b).nextJob = s.nextJob ∧
    (s.failWith j a b).admissions = s.admissions ∧ (s.failWith j a b).strands = s.strands ∧
    (s.failWith j a b).kst = s.kst ∧ (s.failWith j a b).frames = s.frames ∧ (s.failWith j a b).creels = s.creels ∧
    (s.failWith j a b).units = s.units ∧ (s.failWith j a b).cap = s.cap ∧ (s.failWith j a b).hdl = s.hdl ∧
    (s.failWith j a b).trc = s.trc ∧ (s.failWith j a b).sht = s.sht ∧ (s.failWith j a b).crx = s.crx ∧
    (s.failWith j a b).rng = s.rng ∧ (s.failWith j a b).dge = s.dge ∧ (s.failWith j a b).mcs = s.mcs ∧
    (s.failWith j a b).hbm = s.hbm ∧ (s.failWith j a b).ply = s.ply ∧ (s.failWith j a b).spl = s.spl ∧
    (s.failWith j a b).smb = s.smb ∧ (s.failWith j a b).tap = s.tap ∧ (s.failWith j a b).free = s.free ∧
    (s.failWith j a b).pending = s.pending := by
  simp [State.failWith]

@[simp] theorem State.done_frame (s : State) (j : Nat) (r : Bytes) :
    (s.done j r).glb = s.glb ∧ (s.done j r).pins = s.pins ∧ (s.done j r).host = s.host ∧ (s.done j r).otp = s.otp ∧
    (s.done j r).vigil = s.vigil ∧ (s.done j r).tmp = s.tmp ∧ (s.done j r).lcs = s.lcs ∧ (s.done j r).fns = s.fns ∧
    (s.done j r).mbxPend = s.mbxPend ∧ (s.done j r).rings = s.rings ∧ (s.done j r).nextJob = s.nextJob ∧
    (s.done j r).admissions = s.admissions ∧ (s.done j r).strands = s.strands ∧ (s.done j r).kst = s.kst ∧
    (s.done j r).frames = s.frames ∧ (s.done j r).creels = s.creels ∧ (s.done j r).units = s.units ∧
    (s.done j r).cap = s.cap ∧ (s.done j r).trc = s.trc ∧ (s.done j r).sht = s.sht ∧ (s.done j r).rng = s.rng ∧
    (s.done j r).dge = s.dge ∧ (s.done j r).mcs = s.mcs ∧ (s.done j r).hbm = s.hbm ∧ (s.done j r).ply = s.ply ∧
    (s.done j r).spl = s.spl ∧ (s.done j r).smb = s.smb ∧ (s.done j r).tap = s.tap ∧ (s.done j r).pending = s.pending := by
  unfold State.done; try dsimp only
  (repeat' split) <;> simp

@[simp] theorem State.doneErr_frame (s : State) (j a b : Nat) :
    (s.doneErr j a b).glb = s.glb ∧ (s.doneErr j a b).pins = s.pins ∧ (s.doneErr j a b).host = s.host ∧
    (s.doneErr j a b).otp = s.otp ∧ (s.doneErr j a b).vigil = s.vigil ∧ (s.doneErr j a b).tmp = s.tmp ∧
    (s.doneErr j a b).lcs = s.lcs ∧ (s.doneErr j a b).fns = s.fns ∧ (s.doneErr j a b).mbxPend = s.mbxPend ∧
    (s.doneErr j a b).rings = s.rings ∧ (s.doneErr j a b).nextJob = s.nextJob ∧
    (s.doneErr j a b).admissions = s.admissions ∧ (s.doneErr j a b).strands = s.strands ∧
    (s.doneErr j a b).frames = s.frames ∧ (s.doneErr j a b).creels = s.creels ∧ (s.doneErr j a b).units = s.units ∧
    (s.doneErr j a b).cap = s.cap ∧ (s.doneErr j a b).trc = s.trc ∧ (s.doneErr j a b).sht = s.sht ∧
    (s.doneErr j a b).rng = s.rng ∧ (s.doneErr j a b).dge = s.dge ∧ (s.doneErr j a b).mcs = s.mcs ∧
    (s.doneErr j a b).hbm = s.hbm ∧ (s.doneErr j a b).spl = s.spl ∧ (s.doneErr j a b).smb = s.smb ∧
    (s.doneErr j a b).tap = s.tap ∧ (s.doneErr j a b).free = s.free ∧ (s.doneErr j a b).pending = s.pending := by
  unfold State.doneErr; try dsimp only
  split <;> simp

@[simp] theorem State.doneShort_frame (s : State) (j n : Nat) :
    (s.doneShort j n).glb = s.glb ∧ (s.doneShort j n).pins = s.pins ∧ (s.doneShort j n).host = s.host ∧
    (s.doneShort j n).otp = s.otp ∧ (s.doneShort j n).vigil = s.vigil ∧ (s.doneShort j n).tmp = s.tmp ∧
    (s.doneShort j n).lcs = s.lcs ∧ (s.doneShort j n).fns = s.fns ∧ (s.doneShort j n).mbxPend = s.mbxPend ∧
    (s.doneShort j n).rings = s.rings ∧ (s.doneShort j n).nextJob = s.nextJob ∧
    (s.doneShort j n).admissions = s.admissions ∧ (s.doneShort j n).strands = s.strands ∧
    (s.doneShort j n).frames = s.frames ∧ (s.doneShort j n).creels = s.creels ∧ (s.doneShort j n).units = s.units ∧
    (s.doneShort j n).cap = s.cap ∧ (s.doneShort j n).trc = s.trc ∧ (s.doneShort j n).sht = s.sht ∧
    (s.doneShort j n).rng = s.rng ∧ (s.doneShort j n).dge = s.dge ∧ (s.doneShort j n).mcs = s.mcs ∧
    (s.doneShort j n).hbm = s.hbm ∧ (s.doneShort j n).spl = s.spl ∧ (s.doneShort j n).smb = s.smb ∧
    (s.doneShort j n).tap = s.tap ∧ (s.doneShort j n).free = s.free ∧ (s.doneShort j n).pending = s.pending := by
  simp [State.doneShort]

@[simp] theorem State.waitPhase_frame (s : State) (j p : Nat) :
    (s.waitPhase j p).glb = s.glb ∧ (s.waitPhase j p).pins = s.pins ∧ (s.waitPhase j p).otp = s.otp ∧
    (s.waitPhase j p).vigil = s.vigil ∧ (s.waitPhase j p).tmp = s.tmp ∧ (s.waitPhase j p).lcs = s.lcs ∧
    (s.waitPhase j p).fns = s.fns ∧ (s.waitPhase j p).mbxPend = s.mbxPend ∧ (s.waitPhase j p).nextJob = s.nextJob ∧
    (s.waitPhase j p).admissions = s.admissions ∧ (s.waitPhase j p).strands = s.strands ∧ (s.waitPhase j p).kst = s.kst ∧
    (s.waitPhase j p).frames = s.frames ∧ (s.waitPhase j p).creels = s.creels ∧ (s.waitPhase j p).units = s.units ∧
    (s.waitPhase j p).cap = s.cap ∧ (s.waitPhase j p).sht = s.sht ∧ (s.waitPhase j p).rng = s.rng ∧
    (s.waitPhase j p).dge = s.dge ∧ (s.waitPhase j p).mcs = s.mcs ∧ (s.waitPhase j p).hbm = s.hbm ∧
    (s.waitPhase j p).ply = s.ply ∧ (s.waitPhase j p).spl = s.spl ∧ (s.waitPhase j p).smb = s.smb ∧
    (s.waitPhase j p).tap = s.tap ∧ (s.waitPhase j p).pending = s.pending := by
  unfold State.waitPhase; try dsimp only
  (repeat' split) <;> simp

theorem State.foldl_kept {α β : Type} (p : State → α) (l : List β) (f : State → β → State)
    (h : ∀ s n, p (f s n) = p s) (s : State) : p (l.foldl f s) = p s := by
  induction l generalizing s with
  | nil => rfl
  | cons n l ih => rw [List.foldl_cons, ih, h]

@[simp] theorem State.keySettle_frame (s : State) :
    s.keySettle.glb = s.glb ∧ s.keySettle.pins = s.pins ∧ s.keySettle.host = s.host ∧ s.keySettle.otp = s.otp ∧
    s.keySettle.vigil = s.vigil ∧ s.keySettle.tmp = s.tmp ∧ s.keySettle.lcs = s.lcs ∧ s.keySettle.fns = s.fns ∧
    s.keySettle.mbxPend = s.mbxPend ∧ s.keySettle.rings = s.rings ∧ s.keySettle.nextJob = s.nextJob ∧
    s.keySettle.admissions = s.admissions ∧ s.keySettle.strands = s.strands ∧ s.keySettle.frames = s.frames ∧
    s.keySettle.creels = s.creels ∧ s.keySettle.units = s.units ∧ s.keySettle.cap = s.cap ∧ s.keySettle.hdl = s.hdl ∧
    s.keySettle.trc = s.trc ∧ s.keySettle.sht = s.sht ∧ s.keySettle.crx = s.crx ∧ s.keySettle.rng = s.rng ∧
    s.keySettle.dge = s.dge ∧ s.keySettle.mcs = s.mcs ∧ s.keySettle.hbm = s.hbm ∧ s.keySettle.ply = s.ply ∧
    s.keySettle.spl = s.spl ∧ s.keySettle.smb = s.smb ∧ s.keySettle.tap = s.tap ∧ s.keySettle.free = s.free ∧
    s.keySettle.pending = s.pending := by
  unfold State.keySettle; (try dsimp only)
  simpa only [Prod.mk.injEq] using State.foldl_kept (fun s => (s.glb, s.pins, s.host, s.otp, s.vigil, s.tmp, s.lcs, s.fns, s.mbxPend, s.rings, s.nextJob, s.admissions, s.strands, s.frames, s.creels, s.units, s.cap, s.hdl, s.trc, s.sht, s.crx, s.rng, s.dge, s.mcs, s.hbm, s.ply, s.spl, s.smb, s.tap, s.free, s.pending)) _ _
    (by intros; (repeat' split) <;> simp) _

@[simp] theorem State.dropOne_frame (s : State) (j : Nat) :
    (s.dropOne j).glb = s.glb ∧ (s.dropOne j).pins = s.pins ∧ (s.dropOne j).host = s.host ∧ (s.dropOne j).otp = s.otp ∧
    (s.dropOne j).vigil = s.vigil ∧ (s.dropOne j).tmp = s.tmp ∧ (s.dropOne j).lcs = s.lcs ∧ (s.dropOne j).fns = s.fns ∧
    (s.dropOne j).mbxPend = s.mbxPend ∧ (s.dropOne j).rings = s.rings ∧ (s.dropOne j).nextJob = s.nextJob ∧
    (s.dropOne j).admissions = s.admissions ∧ (s.dropOne j).strands = s.strands ∧ (s.dropOne j).frames = s.frames ∧
    (s.dropOne j).cap = s.cap ∧ (s.dropOne j).trc = s.trc ∧ (s.dropOne j).rng = s.rng ∧ (s.dropOne j).dge = s.dge ∧
    (s.dropOne j).mcs = s.mcs ∧ (s.dropOne j).hbm = s.hbm ∧ (s.dropOne j).spl = s.spl ∧ (s.dropOne j).smb = s.smb ∧
    (s.dropOne j).tap = s.tap ∧ (s.dropOne j).free = s.free ∧ (s.dropOne j).pending = s.pending := by
  simp [State.dropOne]

@[simp] theorem State.each_dropOne_frame (s : State) (l : List Nat) :
    (s.each l (State.dropOne)).glb = s.glb ∧ (s.each l (State.dropOne)).pins = s.pins ∧
    (s.each l (State.dropOne)).host = s.host ∧ (s.each l (State.dropOne)).otp = s.otp ∧
    (s.each l (State.dropOne)).vigil = s.vigil ∧ (s.each l (State.dropOne)).tmp = s.tmp ∧
    (s.each l (State.dropOne)).lcs = s.lcs ∧ (s.each l (State.dropOne)).fns = s.fns ∧
    (s.each l (State.dropOne)).mbxPend = s.mbxPend ∧ (s.each l (State.dropOne)).rings = s.rings ∧
    (s.each l (State.dropOne)).nextJob = s.nextJob ∧ (s.each l (State.dropOne)).admissions = s.admissions ∧
    (s.each l (State.dropOne)).strands = s.strands ∧ (s.each l (State.dropOne)).frames = s.frames ∧
    (s.each l (State.dropOne)).cap = s.cap ∧ (s.each l (State.dropOne)).trc = s.trc ∧
    (s.each l (State.dropOne)).rng = s.rng ∧ (s.each l (State.dropOne)).dge = s.dge ∧
    (s.each l (State.dropOne)).mcs = s.mcs ∧ (s.each l (State.dropOne)).hbm = s.hbm ∧
    (s.each l (State.dropOne)).spl = s.spl ∧ (s.each l (State.dropOne)).smb = s.smb ∧
    (s.each l (State.dropOne)).tap = s.tap ∧ (s.each l (State.dropOne)).free = s.free ∧
    (s.each l (State.dropOne)).pending = s.pending := by
  simpa only [Prod.mk.injEq] using State.each_kept (fun s => (s.glb, s.pins, s.host, s.otp, s.vigil, s.tmp, s.lcs, s.fns, s.mbxPend, s.rings, s.nextJob, s.admissions, s.strands, s.frames, s.cap, s.trc, s.rng, s.dge, s.mcs, s.hbm, s.spl, s.smb, s.tap, s.free, s.pending)) l _ (by simp) s

@[simp] theorem State.cancelCtx_frame (s : State) (c : Nat) :
    (s.cancelCtx c).glb = s.glb ∧ (s.cancelCtx c).pins = s.pins ∧ (s.cancelCtx c).host = s.host ∧
    (s.cancelCtx c).otp = s.otp ∧ (s.cancelCtx c).vigil = s.vigil ∧ (s.cancelCtx c).tmp = s.tmp ∧
    (s.cancelCtx c).lcs = s.lcs ∧ (s.cancelCtx c).fns = s.fns ∧ (s.cancelCtx c).mbxPend = s.mbxPend ∧
    (s.cancelCtx c).rings = s.rings ∧ (s.cancelCtx c).nextJob = s.nextJob ∧ (s.cancelCtx c).admissions = s.admissions ∧
    (s.cancelCtx c).strands = s.strands ∧ (s.cancelCtx c).frames = s.frames ∧ (s.cancelCtx c).cap = s.cap ∧
    (s.cancelCtx c).trc = s.trc ∧ (s.cancelCtx c).rng = s.rng ∧ (s.cancelCtx c).dge = s.dge ∧ (s.cancelCtx c).mcs = s.mcs ∧
    (s.cancelCtx c).hbm = s.hbm ∧ (s.cancelCtx c).spl = s.spl ∧ (s.cancelCtx c).smb = s.smb ∧ (s.cancelCtx c).tap = s.tap ∧
    (s.cancelCtx c).free = s.free ∧ (s.cancelCtx c).pending = s.pending := by
  simp [State.cancelCtx]

@[simp] theorem State.drop_frame (s : State) (j : Nat) :
    (s.drop j).glb = s.glb ∧ (s.drop j).pins = s.pins ∧ (s.drop j).host = s.host ∧ (s.drop j).otp = s.otp ∧
    (s.drop j).vigil = s.vigil ∧ (s.drop j).tmp = s.tmp ∧ (s.drop j).lcs = s.lcs ∧ (s.drop j).fns = s.fns ∧
    (s.drop j).mbxPend = s.mbxPend ∧ (s.drop j).rings = s.rings ∧ (s.drop j).nextJob = s.nextJob ∧
    (s.drop j).admissions = s.admissions ∧ (s.drop j).strands = s.strands ∧ (s.drop j).frames = s.frames ∧
    (s.drop j).cap = s.cap ∧ (s.drop j).trc = s.trc ∧ (s.drop j).rng = s.rng ∧ (s.drop j).dge = s.dge ∧
    (s.drop j).mcs = s.mcs ∧ (s.drop j).hbm = s.hbm ∧ (s.drop j).spl = s.spl ∧ (s.drop j).smb = s.smb ∧
    (s.drop j).tap = s.tap ∧ (s.drop j).free = s.free ∧ (s.drop j).pending = s.pending := by
  unfold State.drop; (repeat' split) <;> simp

@[simp] theorem State.each_drop_frame (s : State) (l : List Nat) :
    (s.each l (State.drop)).glb = s.glb ∧ (s.each l (State.drop)).pins = s.pins ∧ (s.each l (State.drop)).host = s.host ∧
    (s.each l (State.drop)).otp = s.otp ∧ (s.each l (State.drop)).vigil = s.vigil ∧ (s.each l (State.drop)).tmp = s.tmp ∧
    (s.each l (State.drop)).lcs = s.lcs ∧ (s.each l (State.drop)).fns = s.fns ∧
    (s.each l (State.drop)).mbxPend = s.mbxPend ∧ (s.each l (State.drop)).rings = s.rings ∧
    (s.each l (State.drop)).nextJob = s.nextJob ∧ (s.each l (State.drop)).admissions = s.admissions ∧
    (s.each l (State.drop)).strands = s.strands ∧ (s.each l (State.drop)).frames = s.frames ∧
    (s.each l (State.drop)).cap = s.cap ∧ (s.each l (State.drop)).trc = s.trc ∧ (s.each l (State.drop)).rng = s.rng ∧
    (s.each l (State.drop)).dge = s.dge ∧ (s.each l (State.drop)).mcs = s.mcs ∧ (s.each l (State.drop)).hbm = s.hbm ∧
    (s.each l (State.drop)).spl = s.spl ∧ (s.each l (State.drop)).smb = s.smb ∧ (s.each l (State.drop)).tap = s.tap ∧
    (s.each l (State.drop)).free = s.free ∧ (s.each l (State.drop)).pending = s.pending := by
  simpa only [Prod.mk.injEq] using State.each_kept (fun s => (s.glb, s.pins, s.host, s.otp, s.vigil, s.tmp, s.lcs, s.fns, s.mbxPend, s.rings, s.nextJob, s.admissions, s.strands, s.frames, s.cap, s.trc, s.rng, s.dge, s.mcs, s.hbm, s.spl, s.smb, s.tap, s.free, s.pending)) l _ (by simp) s

@[simp] theorem State.dropEntries_frame (s : State) (f r : Nat) :
    (s.dropEntries f r).glb = s.glb ∧ (s.dropEntries f r).pins = s.pins ∧ (s.dropEntries f r).host = s.host ∧
    (s.dropEntries f r).otp = s.otp ∧ (s.dropEntries f r).vigil = s.vigil ∧ (s.dropEntries f r).tmp = s.tmp ∧
    (s.dropEntries f r).lcs = s.lcs ∧ (s.dropEntries f r).fns = s.fns ∧ (s.dropEntries f r).mbxPend = s.mbxPend ∧
    (s.dropEntries f r).jobs = s.jobs ∧ (s.dropEntries f r).nextJob = s.nextJob ∧
    (s.dropEntries f r).admissions = s.admissions ∧ (s.dropEntries f r).strands = s.strands ∧
    (s.dropEntries f r).kst = s.kst ∧ (s.dropEntries f r).creels = s.creels ∧ (s.dropEntries f r).units = s.units ∧
    (s.dropEntries f r).cap = s.cap ∧ (s.dropEntries f r).trc = s.trc ∧ (s.dropEntries f r).sht = s.sht ∧
    (s.dropEntries f r).crx = s.crx ∧ (s.dropEntries f r).rng = s.rng ∧ (s.dropEntries f r).dge = s.dge ∧
    (s.dropEntries f r).mcs = s.mcs ∧ (s.dropEntries f r).hbm = s.hbm ∧ (s.dropEntries f r).ply = s.ply ∧
    (s.dropEntries f r).spl = s.spl ∧ (s.dropEntries f r).smb = s.smb ∧ (s.dropEntries f r).tap = s.tap ∧
    (s.dropEntries f r).free = s.free ∧ (s.dropEntries f r).pending = s.pending := by
  unfold State.dropEntries; (try dsimp only); split <;> simp

@[simp] theorem State.each_dropEntries_frame (s : State) (l : List Nat) (f : Nat) :
    (s.each l (fun s r => s.dropEntries f r)).glb = s.glb ∧ (s.each l (fun s r => s.dropEntries f r)).pins = s.pins ∧
    (s.each l (fun s r => s.dropEntries f r)).host = s.host ∧ (s.each l (fun s r => s.dropEntries f r)).otp = s.otp ∧
    (s.each l (fun s r => s.dropEntries f r)).vigil = s.vigil ∧ (s.each l (fun s r => s.dropEntries f r)).tmp = s.tmp ∧
    (s.each l (fun s r => s.dropEntries f r)).lcs = s.lcs ∧ (s.each l (fun s r => s.dropEntries f r)).fns = s.fns ∧
    (s.each l (fun s r => s.dropEntries f r)).mbxPend = s.mbxPend ∧
    (s.each l (fun s r => s.dropEntries f r)).jobs = s.jobs ∧
    (s.each l (fun s r => s.dropEntries f r)).nextJob = s.nextJob ∧
    (s.each l (fun s r => s.dropEntries f r)).admissions = s.admissions ∧
    (s.each l (fun s r => s.dropEntries f r)).strands = s.strands ∧ (s.each l (fun s r => s.dropEntries f r)).kst = s.kst ∧
    (s.each l (fun s r => s.dropEntries f r)).creels = s.creels ∧
    (s.each l (fun s r => s.dropEntries f r)).units = s.units ∧ (s.each l (fun s r => s.dropEntries f r)).cap = s.cap ∧
    (s.each l (fun s r => s.dropEntries f r)).trc = s.trc ∧ (s.each l (fun s r => s.dropEntries f r)).sht = s.sht ∧
    (s.each l (fun s r => s.dropEntries f r)).crx = s.crx ∧ (s.each l (fun s r => s.dropEntries f r)).rng = s.rng ∧
    (s.each l (fun s r => s.dropEntries f r)).dge = s.dge ∧ (s.each l (fun s r => s.dropEntries f r)).mcs = s.mcs ∧
    (s.each l (fun s r => s.dropEntries f r)).hbm = s.hbm ∧ (s.each l (fun s r => s.dropEntries f r)).ply = s.ply ∧
    (s.each l (fun s r => s.dropEntries f r)).spl = s.spl ∧ (s.each l (fun s r => s.dropEntries f r)).smb = s.smb ∧
    (s.each l (fun s r => s.dropEntries f r)).tap = s.tap ∧ (s.each l (fun s r => s.dropEntries f r)).free = s.free ∧
    (s.each l (fun s r => s.dropEntries f r)).pending = s.pending := by
  simpa only [Prod.mk.injEq] using State.each_kept (fun s => (s.glb, s.pins, s.host, s.otp, s.vigil, s.tmp, s.lcs, s.fns, s.mbxPend, s.jobs, s.nextJob, s.admissions, s.strands, s.kst, s.creels, s.units, s.cap, s.trc, s.sht, s.crx, s.rng, s.dge, s.mcs, s.hbm, s.ply, s.spl, s.smb, s.tap, s.free, s.pending)) l _ (by simp) s

@[simp] theorem State.recordFault_frame (s : State) (f r a b c : Nat) :
    (s.recordFault f r a b c).glb = s.glb ∧ (s.recordFault f r a b c).pins = s.pins ∧
    (s.recordFault f r a b c).host = s.host ∧ (s.recordFault f r a b c).otp = s.otp ∧
    (s.recordFault f r a b c).vigil = s.vigil ∧ (s.recordFault f r a b c).tmp = s.tmp ∧
    (s.recordFault f r a b c).lcs = s.lcs ∧ (s.recordFault f r a b c).mbxPend = s.mbxPend ∧
    (s.recordFault f r a b c).rings = s.rings ∧ (s.recordFault f r a b c).jobs = s.jobs ∧
    (s.recordFault f r a b c).nextJob = s.nextJob ∧ (s.recordFault f r a b c).admissions = s.admissions ∧
    (s.recordFault f r a b c).strands = s.strands ∧ (s.recordFault f r a b c).kst = s.kst ∧
    (s.recordFault f r a b c).frames = s.frames ∧ (s.recordFault f r a b c).creels = s.creels ∧
    (s.recordFault f r a b c).units = s.units ∧ (s.recordFault f r a b c).cap = s.cap ∧
    (s.recordFault f r a b c).hdl = s.hdl ∧ (s.recordFault f r a b c).trc = s.trc ∧ (s.recordFault f r a b c).sht = s.sht ∧
    (s.recordFault f r a b c).crx = s.crx ∧ (s.recordFault f r a b c).rng = s.rng ∧ (s.recordFault f r a b c).dge = s.dge ∧
    (s.recordFault f r a b c).mcs = s.mcs ∧ (s.recordFault f r a b c).hbm = s.hbm ∧ (s.recordFault f r a b c).ply = s.ply ∧
    (s.recordFault f r a b c).spl = s.spl ∧ (s.recordFault f r a b c).smb = s.smb ∧ (s.recordFault f r a b c).tap = s.tap ∧
    (s.recordFault f r a b c).free = s.free ∧ (s.recordFault f r a b c).pending = s.pending := by
  simp [State.recordFault]

@[simp] theorem State.each_burn_frame (s : State) (l : List Nat) :
    (s.each l (State.burn)).glb = s.glb ∧ (s.each l (State.burn)).pins = s.pins ∧ (s.each l (State.burn)).host = s.host ∧
    (s.each l (State.burn)).otp = s.otp ∧ (s.each l (State.burn)).vigil = s.vigil ∧ (s.each l (State.burn)).tmp = s.tmp ∧
    (s.each l (State.burn)).lcs = s.lcs ∧ (s.each l (State.burn)).fns = s.fns ∧
    (s.each l (State.burn)).mbxPend = s.mbxPend ∧ (s.each l (State.burn)).rings = s.rings ∧
    (s.each l (State.burn)).nextJob = s.nextJob ∧ (s.each l (State.burn)).admissions = s.admissions ∧
    (s.each l (State.burn)).strands = s.strands ∧ (s.each l (State.burn)).frames = s.frames ∧
    (s.each l (State.burn)).creels = s.creels ∧ (s.each l (State.burn)).units = s.units ∧
    (s.each l (State.burn)).cap = s.cap ∧ (s.each l (State.burn)).hdl = s.hdl ∧ (s.each l (State.burn)).trc = s.trc ∧
    (s.each l (State.burn)).sht = s.sht ∧ (s.each l (State.burn)).crx = s.crx ∧ (s.each l (State.burn)).rng = s.rng ∧
    (s.each l (State.burn)).dge = s.dge ∧ (s.each l (State.burn)).mcs = s.mcs ∧ (s.each l (State.burn)).hbm = s.hbm ∧
    (s.each l (State.burn)).ply = s.ply ∧ (s.each l (State.burn)).spl = s.spl ∧ (s.each l (State.burn)).smb = s.smb ∧
    (s.each l (State.burn)).tap = s.tap ∧ (s.each l (State.burn)).free = s.free ∧
    (s.each l (State.burn)).pending = s.pending := by
  simpa only [Prod.mk.injEq] using State.each_kept (fun s => (s.glb, s.pins, s.host, s.otp, s.vigil, s.tmp, s.lcs, s.fns, s.mbxPend, s.rings, s.nextJob, s.admissions, s.strands, s.frames, s.creels, s.units, s.cap, s.hdl, s.trc, s.sht, s.crx, s.rng, s.dge, s.mcs, s.hbm, s.ply, s.spl, s.smb, s.tap, s.free, s.pending)) l _ (by simp) s

@[simp] theorem State.each_takeGate_frame (s : State) (l : List Nat) :
    (s.each l (State.takeGate)).glb = s.glb ∧ (s.each l (State.takeGate)).pins = s.pins ∧
    (s.each l (State.takeGate)).host = s.host ∧ (s.each l (State.takeGate)).otp = s.otp ∧
    (s.each l (State.takeGate)).vigil = s.vigil ∧ (s.each l (State.takeGate)).tmp = s.tmp ∧
    (s.each l (State.takeGate)).lcs = s.lcs ∧ (s.each l (State.takeGate)).fns = s.fns ∧
    (s.each l (State.takeGate)).mbxPend = s.mbxPend ∧ (s.each l (State.takeGate)).rings = s.rings ∧
    (s.each l (State.takeGate)).jobs = s.jobs ∧ (s.each l (State.takeGate)).nextJob = s.nextJob ∧
    (s.each l (State.takeGate)).admissions = s.admissions ∧ (s.each l (State.takeGate)).strands = s.strands ∧
    (s.each l (State.takeGate)).kst = s.kst ∧ (s.each l (State.takeGate)).frames = s.frames ∧
    (s.each l (State.takeGate)).creels = s.creels ∧ (s.each l (State.takeGate)).units = s.units ∧
    (s.each l (State.takeGate)).cap = s.cap ∧ (s.each l (State.takeGate)).hdl = s.hdl ∧
    (s.each l (State.takeGate)).trc = s.trc ∧ (s.each l (State.takeGate)).sht = s.sht ∧
    (s.each l (State.takeGate)).rng = s.rng ∧ (s.each l (State.takeGate)).dge = s.dge ∧
    (s.each l (State.takeGate)).mcs = s.mcs ∧ (s.each l (State.takeGate)).hbm = s.hbm ∧
    (s.each l (State.takeGate)).ply = s.ply ∧ (s.each l (State.takeGate)).spl = s.spl ∧
    (s.each l (State.takeGate)).smb = s.smb ∧ (s.each l (State.takeGate)).tap = s.tap ∧
    (s.each l (State.takeGate)).free = s.free ∧ (s.each l (State.takeGate)).pending = s.pending := by
  simpa only [Prod.mk.injEq] using State.each_kept (fun s => (s.glb, s.pins, s.host, s.otp, s.vigil, s.tmp, s.lcs, s.fns, s.mbxPend, s.rings, s.jobs, s.nextJob, s.admissions, s.strands, s.kst, s.frames, s.creels, s.units, s.cap, s.hdl, s.trc, s.sht, s.rng, s.dge, s.mcs, s.hbm, s.ply, s.spl, s.smb, s.tap, s.free, s.pending)) l _ (by simp) s

@[simp] theorem State.each_ogSettle_frame (s : State) (l : List Nat) :
    (s.each l (State.ogSettle)).glb = s.glb ∧ (s.each l (State.ogSettle)).pins = s.pins ∧
    (s.each l (State.ogSettle)).host = s.host ∧ (s.each l (State.ogSettle)).otp = s.otp ∧
    (s.each l (State.ogSettle)).vigil = s.vigil ∧ (s.each l (State.ogSettle)).tmp = s.tmp ∧
    (s.each l (State.ogSettle)).lcs = s.lcs ∧ (s.each l (State.ogSettle)).fns = s.fns ∧
    (s.each l (State.ogSettle)).mbxPend = s.mbxPend ∧ (s.each l (State.ogSettle)).rings = s.rings ∧
    (s.each l (State.ogSettle)).jobs = s.jobs ∧ (s.each l (State.ogSettle)).nextJob = s.nextJob ∧
    (s.each l (State.ogSettle)).admissions = s.admissions ∧ (s.each l (State.ogSettle)).strands = s.strands ∧
    (s.each l (State.ogSettle)).kst = s.kst ∧ (s.each l (State.ogSettle)).frames = s.frames ∧
    (s.each l (State.ogSettle)).creels = s.creels ∧ (s.each l (State.ogSettle)).units = s.units ∧
    (s.each l (State.ogSettle)).cap = s.cap ∧ (s.each l (State.ogSettle)).trc = s.trc ∧
    (s.each l (State.ogSettle)).sht = s.sht ∧ (s.each l (State.ogSettle)).crx = s.crx ∧
    (s.each l (State.ogSettle)).rng = s.rng ∧ (s.each l (State.ogSettle)).dge = s.dge ∧
    (s.each l (State.ogSettle)).mcs = s.mcs ∧ (s.each l (State.ogSettle)).hbm = s.hbm ∧
    (s.each l (State.ogSettle)).ply = s.ply ∧ (s.each l (State.ogSettle)).spl = s.spl ∧
    (s.each l (State.ogSettle)).smb = s.smb ∧ (s.each l (State.ogSettle)).tap = s.tap ∧
    (s.each l (State.ogSettle)).free = s.free ∧ (s.each l (State.ogSettle)).pending = s.pending := by
  simpa only [Prod.mk.injEq] using State.each_kept (fun s => (s.glb, s.pins, s.host, s.otp, s.vigil, s.tmp, s.lcs, s.fns, s.mbxPend, s.rings, s.jobs, s.nextJob, s.admissions, s.strands, s.kst, s.frames, s.creels, s.units, s.cap, s.trc, s.sht, s.crx, s.rng, s.dge, s.mcs, s.hbm, s.ply, s.spl, s.smb, s.tap, s.free, s.pending)) l _ (by simp) s

@[simp] theorem State.dropAll_frame (s : State) :
    s.dropAll.glb = s.glb ∧ s.dropAll.pins = s.pins ∧ s.dropAll.host = s.host ∧ s.dropAll.otp = s.otp ∧
    s.dropAll.vigil = s.vigil ∧ s.dropAll.tmp = s.tmp ∧ s.dropAll.lcs = s.lcs ∧ s.dropAll.fns = s.fns ∧
    s.dropAll.mbxPend = s.mbxPend ∧ s.dropAll.nextJob = s.nextJob ∧ s.dropAll.admissions = s.admissions ∧
    s.dropAll.strands = s.strands ∧ s.dropAll.units = s.units ∧ s.dropAll.cap = s.cap ∧ s.dropAll.trc = s.trc ∧
    s.dropAll.rng = s.rng ∧ s.dropAll.dge = s.dge ∧ s.dropAll.mcs = s.mcs ∧ s.dropAll.hbm = s.hbm ∧ s.dropAll.ply = s.ply ∧
    s.dropAll.spl = s.spl ∧ s.dropAll.smb = s.smb ∧ s.dropAll.tap = s.tap ∧ s.dropAll.free = s.free ∧
    s.dropAll.pending = s.pending := by
  simp [State.dropAll]

@[simp] theorem State.haltDevice_frame (s : State) (c : Byte) :
    (s.haltDevice c).pins = s.pins ∧ (s.haltDevice c).host = s.host ∧ (s.haltDevice c).otp = s.otp ∧
    (s.haltDevice c).vigil = s.vigil ∧ (s.haltDevice c).tmp = s.tmp ∧ (s.haltDevice c).lcs = s.lcs ∧
    (s.haltDevice c).fns = s.fns ∧ (s.haltDevice c).mbxPend = s.mbxPend ∧ (s.haltDevice c).nextJob = s.nextJob ∧
    (s.haltDevice c).admissions = s.admissions ∧ (s.haltDevice c).strands = s.strands ∧ (s.haltDevice c).cap = s.cap ∧
    (s.haltDevice c).trc = s.trc ∧ (s.haltDevice c).rng = s.rng ∧ (s.haltDevice c).dge = s.dge ∧
    (s.haltDevice c).mcs = s.mcs ∧ (s.haltDevice c).hbm = s.hbm ∧ (s.haltDevice c).ply = s.ply ∧
    (s.haltDevice c).spl = s.spl ∧ (s.haltDevice c).smb = s.smb ∧ (s.haltDevice c).tap = s.tap ∧
    (s.haltDevice c).free = s.free ∧ (s.haltDevice c).pending = s.pending := by
  simp [State.haltDevice, State.dropAll, State.wipeEngines, State.wipeCache]

@[simp] theorem State.structFault_frame (s : State) (f r a b c : Nat) :
    (s.structFault f r a b c).pins = s.pins ∧ (s.structFault f r a b c).otp = s.otp ∧
    (s.structFault f r a b c).vigil = s.vigil ∧ (s.structFault f r a b c).tmp = s.tmp ∧
    (s.structFault f r a b c).lcs = s.lcs ∧ (s.structFault f r a b c).mbxPend = s.mbxPend ∧
    (s.structFault f r a b c).nextJob = s.nextJob ∧ (s.structFault f r a b c).admissions = s.admissions ∧
    (s.structFault f r a b c).cap = s.cap ∧ (s.structFault f r a b c).trc = s.trc ∧ (s.structFault f r a b c).rng = s.rng ∧
    (s.structFault f r a b c).dge = s.dge ∧ (s.structFault f r a b c).mcs = s.mcs ∧ (s.structFault f r a b c).hbm = s.hbm ∧
    (s.structFault f r a b c).spl = s.spl ∧ (s.structFault f r a b c).smb = s.smb ∧ (s.structFault f r a b c).tap = s.tap ∧
    (s.structFault f r a b c).free = s.free ∧ (s.structFault f r a b c).pending = s.pending := by
  unfold State.structFault; (try dsimp only)
  (repeat' split) <;> simp

@[simp] theorem State.destroyRing_frame (s : State) (f r : Nat) :
    (s.destroyRing f r).glb = s.glb ∧ (s.destroyRing f r).pins = s.pins ∧ (s.destroyRing f r).host = s.host ∧
    (s.destroyRing f r).otp = s.otp ∧ (s.destroyRing f r).vigil = s.vigil ∧ (s.destroyRing f r).tmp = s.tmp ∧
    (s.destroyRing f r).lcs = s.lcs ∧ (s.destroyRing f r).fns = s.fns ∧ (s.destroyRing f r).mbxPend = s.mbxPend ∧
    (s.destroyRing f r).nextJob = s.nextJob ∧ (s.destroyRing f r).admissions = s.admissions ∧
    (s.destroyRing f r).strands = s.strands ∧ (s.destroyRing f r).cap = s.cap ∧ (s.destroyRing f r).trc = s.trc ∧
    (s.destroyRing f r).rng = s.rng ∧ (s.destroyRing f r).dge = s.dge ∧ (s.destroyRing f r).mcs = s.mcs ∧
    (s.destroyRing f r).hbm = s.hbm ∧ (s.destroyRing f r).spl = s.spl ∧ (s.destroyRing f r).smb = s.smb ∧
    (s.destroyRing f r).tap = s.tap ∧ (s.destroyRing f r).free = s.free ∧ (s.destroyRing f r).pending = s.pending := by
  unfold State.destroyRing; (try dsimp only); split
  · simp
  · split <;> simp

@[simp] theorem State.removeRing_frame (s : State) (f r : Nat) :
    (s.removeRing f r).glb = s.glb ∧ (s.removeRing f r).pins = s.pins ∧ (s.removeRing f r).host = s.host ∧
    (s.removeRing f r).otp = s.otp ∧ (s.removeRing f r).vigil = s.vigil ∧ (s.removeRing f r).tmp = s.tmp ∧
    (s.removeRing f r).lcs = s.lcs ∧ (s.removeRing f r).fns = s.fns ∧ (s.removeRing f r).mbxPend = s.mbxPend ∧
    (s.removeRing f r).nextJob = s.nextJob ∧ (s.removeRing f r).admissions = s.admissions ∧
    (s.removeRing f r).strands = s.strands ∧ (s.removeRing f r).cap = s.cap ∧ (s.removeRing f r).trc = s.trc ∧
    (s.removeRing f r).rng = s.rng ∧ (s.removeRing f r).dge = s.dge ∧ (s.removeRing f r).mcs = s.mcs ∧
    (s.removeRing f r).hbm = s.hbm ∧ (s.removeRing f r).spl = s.spl ∧ (s.removeRing f r).smb = s.smb ∧
    (s.removeRing f r).tap = s.tap ∧ (s.removeRing f r).free = s.free ∧ (s.removeRing f r).pending = s.pending := by
  simp [State.removeRing]

@[simp] theorem State.lateNotice_frame (s : State) (f : Nat) :
    (s.lateNotice f).glb = s.glb ∧ (s.lateNotice f).pins = s.pins ∧ (s.lateNotice f).otp = s.otp ∧
    (s.lateNotice f).vigil = s.vigil ∧ (s.lateNotice f).tmp = s.tmp ∧ (s.lateNotice f).lcs = s.lcs ∧
    (s.lateNotice f).mbxPend = s.mbxPend ∧ (s.lateNotice f).rings = s.rings ∧ (s.lateNotice f).jobs = s.jobs ∧
    (s.lateNotice f).nextJob = s.nextJob ∧ (s.lateNotice f).admissions = s.admissions ∧ (s.lateNotice f).kst = s.kst ∧
    (s.lateNotice f).frames = s.frames ∧ (s.lateNotice f).creels = s.creels ∧ (s.lateNotice f).units = s.units ∧
    (s.lateNotice f).cap = s.cap ∧ (s.lateNotice f).hdl = s.hdl ∧ (s.lateNotice f).trc = s.trc ∧
    (s.lateNotice f).sht = s.sht ∧ (s.lateNotice f).crx = s.crx ∧ (s.lateNotice f).rng = s.rng ∧
    (s.lateNotice f).dge = s.dge ∧ (s.lateNotice f).mcs = s.mcs ∧ (s.lateNotice f).hbm = s.hbm ∧
    (s.lateNotice f).ply = s.ply ∧ (s.lateNotice f).spl = s.spl ∧ (s.lateNotice f).smb = s.smb ∧
    (s.lateNotice f).tap = s.tap ∧ (s.lateNotice f).free = s.free ∧ (s.lateNotice f).pending = s.pending := by
  unfold State.lateNotice; (try dsimp only); split <;> simp

@[simp] theorem State.discardLate_frame (s : State) (j : Nat) :
    (s.discardLate j).glb = s.glb ∧ (s.discardLate j).pins = s.pins ∧ (s.discardLate j).otp = s.otp ∧
    (s.discardLate j).vigil = s.vigil ∧ (s.discardLate j).tmp = s.tmp ∧ (s.discardLate j).lcs = s.lcs ∧
    (s.discardLate j).mbxPend = s.mbxPend ∧ (s.discardLate j).nextJob = s.nextJob ∧
    (s.discardLate j).admissions = s.admissions ∧ (s.discardLate j).frames = s.frames ∧ (s.discardLate j).cap = s.cap ∧
    (s.discardLate j).rng = s.rng ∧ (s.discardLate j).dge = s.dge ∧ (s.discardLate j).mcs = s.mcs ∧
    (s.discardLate j).hbm = s.hbm ∧ (s.discardLate j).spl = s.spl ∧ (s.discardLate j).smb = s.smb ∧
    (s.discardLate j).tap = s.tap ∧ (s.discardLate j).pending = s.pending := by
  unfold State.discardLate; (try dsimp only); split <;> simp

@[simp] theorem State.wipeWarm_frame (s : State) (q : Nat → Bool) :
    (s.wipeWarm q).glb = s.glb ∧ (s.wipeWarm q).pins = s.pins ∧ (s.wipeWarm q).host = s.host ∧ (s.wipeWarm q).otp = s.otp ∧
    (s.wipeWarm q).vigil = s.vigil ∧ (s.wipeWarm q).tmp = s.tmp ∧ (s.wipeWarm q).lcs = s.lcs ∧ (s.wipeWarm q).fns = s.fns ∧
    (s.wipeWarm q).mbxPend = s.mbxPend ∧ (s.wipeWarm q).rings = s.rings ∧ (s.wipeWarm q).jobs = s.jobs ∧
    (s.wipeWarm q).nextJob = s.nextJob ∧ (s.wipeWarm q).admissions = s.admissions ∧ (s.wipeWarm q).strands = s.strands ∧
    (s.wipeWarm q).kst = s.kst ∧ (s.wipeWarm q).frames = s.frames ∧ (s.wipeWarm q).creels = s.creels ∧
    (s.wipeWarm q).cap = s.cap ∧ (s.wipeWarm q).hdl = s.hdl ∧ (s.wipeWarm q).trc = s.trc ∧ (s.wipeWarm q).sht = s.sht ∧
    (s.wipeWarm q).crx = s.crx ∧ (s.wipeWarm q).rng = s.rng ∧ (s.wipeWarm q).dge = s.dge ∧ (s.wipeWarm q).mcs = s.mcs ∧
    (s.wipeWarm q).hbm = s.hbm ∧ (s.wipeWarm q).ply = s.ply ∧ (s.wipeWarm q).spl = s.spl ∧ (s.wipeWarm q).smb = s.smb ∧
    (s.wipeWarm q).tap = s.tap ∧ (s.wipeWarm q).free = s.free ∧ (s.wipeWarm q).pending = s.pending := by
  simp [State.wipeWarm]

@[simp] theorem State.wipeCache_frame (s : State) :
    s.wipeCache.glb = s.glb ∧ s.wipeCache.pins = s.pins ∧ s.wipeCache.host = s.host ∧ s.wipeCache.otp = s.otp ∧
    s.wipeCache.vigil = s.vigil ∧ s.wipeCache.tmp = s.tmp ∧ s.wipeCache.lcs = s.lcs ∧ s.wipeCache.fns = s.fns ∧
    s.wipeCache.mbxPend = s.mbxPend ∧ s.wipeCache.rings = s.rings ∧ s.wipeCache.jobs = s.jobs ∧
    s.wipeCache.nextJob = s.nextJob ∧ s.wipeCache.admissions = s.admissions ∧ s.wipeCache.strands = s.strands ∧
    s.wipeCache.frames = s.frames ∧ s.wipeCache.creels = s.creels ∧ s.wipeCache.units = s.units ∧ s.wipeCache.cap = s.cap ∧
    s.wipeCache.hdl = s.hdl ∧ s.wipeCache.trc = s.trc ∧ s.wipeCache.sht = s.sht ∧ s.wipeCache.crx = s.crx ∧
    s.wipeCache.rng = s.rng ∧ s.wipeCache.dge = s.dge ∧ s.wipeCache.mcs = s.mcs ∧ s.wipeCache.hbm = s.hbm ∧
    s.wipeCache.ply = s.ply ∧ s.wipeCache.spl = s.spl ∧ s.wipeCache.smb = s.smb ∧ s.wipeCache.tap = s.tap ∧
    s.wipeCache.free = s.free ∧ s.wipeCache.pending = s.pending := by
  simp [State.wipeCache]

@[simp] theorem State.wipeEngines_frame (s : State) :
    s.wipeEngines.glb = s.glb ∧ s.wipeEngines.pins = s.pins ∧ s.wipeEngines.host = s.host ∧ s.wipeEngines.otp = s.otp ∧
    s.wipeEngines.vigil = s.vigil ∧ s.wipeEngines.tmp = s.tmp ∧ s.wipeEngines.lcs = s.lcs ∧ s.wipeEngines.fns = s.fns ∧
    s.wipeEngines.mbxPend = s.mbxPend ∧ s.wipeEngines.rings = s.rings ∧ s.wipeEngines.jobs = s.jobs ∧
    s.wipeEngines.nextJob = s.nextJob ∧ s.wipeEngines.admissions = s.admissions ∧ s.wipeEngines.strands = s.strands ∧
    s.wipeEngines.kst = s.kst ∧ s.wipeEngines.frames = s.frames ∧ s.wipeEngines.creels = s.creels ∧
    s.wipeEngines.cap = s.cap ∧ s.wipeEngines.hdl = s.hdl ∧ s.wipeEngines.trc = s.trc ∧ s.wipeEngines.sht = s.sht ∧
    s.wipeEngines.crx = s.crx ∧ s.wipeEngines.rng = s.rng ∧ s.wipeEngines.dge = s.dge ∧ s.wipeEngines.mcs = s.mcs ∧
    s.wipeEngines.hbm = s.hbm ∧ s.wipeEngines.ply = s.ply ∧ s.wipeEngines.spl = s.spl ∧ s.wipeEngines.smb = s.smb ∧
    s.wipeEngines.tap = s.tap ∧ s.wipeEngines.free = s.free ∧ s.wipeEngines.pending = s.pending := by
  simp [State.wipeEngines]

@[simp] theorem State.wipeCrixaG_frame (s : State) :
    s.wipeCrixaG.glb = s.glb ∧ s.wipeCrixaG.pins = s.pins ∧ s.wipeCrixaG.host = s.host ∧ s.wipeCrixaG.otp = s.otp ∧
    s.wipeCrixaG.vigil = s.vigil ∧ s.wipeCrixaG.tmp = s.tmp ∧ s.wipeCrixaG.lcs = s.lcs ∧ s.wipeCrixaG.fns = s.fns ∧
    s.wipeCrixaG.mbxPend = s.mbxPend ∧ s.wipeCrixaG.rings = s.rings ∧ s.wipeCrixaG.jobs = s.jobs ∧
    s.wipeCrixaG.nextJob = s.nextJob ∧ s.wipeCrixaG.admissions = s.admissions ∧ s.wipeCrixaG.strands = s.strands ∧
    s.wipeCrixaG.kst = s.kst ∧ s.wipeCrixaG.frames = s.frames ∧ s.wipeCrixaG.creels = s.creels ∧
    s.wipeCrixaG.units = s.units ∧ s.wipeCrixaG.cap = s.cap ∧ s.wipeCrixaG.hdl = s.hdl ∧ s.wipeCrixaG.trc = s.trc ∧
    s.wipeCrixaG.sht = s.sht ∧ s.wipeCrixaG.rng = s.rng ∧ s.wipeCrixaG.dge = s.dge ∧ s.wipeCrixaG.mcs = s.mcs ∧
    s.wipeCrixaG.hbm = s.hbm ∧ s.wipeCrixaG.ply = s.ply ∧ s.wipeCrixaG.spl = s.spl ∧ s.wipeCrixaG.smb = s.smb ∧
    s.wipeCrixaG.tap = s.tap ∧ s.wipeCrixaG.free = s.free ∧ s.wipeCrixaG.pending = s.pending := by
  simp [State.wipeCrixaG]

@[simp] theorem State.overtake_frame (s : State) (j : Nat) :
    (s.overtake j).glb = s.glb ∧ (s.overtake j).pins = s.pins ∧ (s.overtake j).host = s.host ∧ (s.overtake j).otp = s.otp ∧
    (s.overtake j).vigil = s.vigil ∧ (s.overtake j).tmp = s.tmp ∧ (s.overtake j).lcs = s.lcs ∧ (s.overtake j).fns = s.fns ∧
    (s.overtake j).mbxPend = s.mbxPend ∧ (s.overtake j).rings = s.rings ∧ (s.overtake j).nextJob = s.nextJob ∧
    (s.overtake j).admissions = s.admissions ∧ (s.overtake j).strands = s.strands ∧ (s.overtake j).frames = s.frames ∧
    (s.overtake j).cap = s.cap ∧ (s.overtake j).trc = s.trc ∧ (s.overtake j).rng = s.rng ∧ (s.overtake j).dge = s.dge ∧
    (s.overtake j).mcs = s.mcs ∧ (s.overtake j).hbm = s.hbm ∧ (s.overtake j).spl = s.spl ∧ (s.overtake j).smb = s.smb ∧
    (s.overtake j).tap = s.tap ∧ (s.overtake j).free = s.free ∧ (s.overtake j).pending = s.pending := by
  unfold State.overtake; (repeat' split) <;> simp

@[simp] theorem State.resetPage_frame (s : State) (f : Nat) :
    (s.resetPage f).glb = s.glb ∧ (s.resetPage f).pins = s.pins ∧ (s.resetPage f).otp = s.otp ∧
    (s.resetPage f).vigil = s.vigil ∧ (s.resetPage f).tmp = s.tmp ∧ (s.resetPage f).lcs = s.lcs ∧
    (s.resetPage f).mbxPend = s.mbxPend ∧ (s.resetPage f).rings = s.rings ∧ (s.resetPage f).jobs = s.jobs ∧
    (s.resetPage f).nextJob = s.nextJob ∧ (s.resetPage f).admissions = s.admissions ∧ (s.resetPage f).strands = s.strands ∧
    (s.resetPage f).kst = s.kst ∧ (s.resetPage f).frames = s.frames ∧ (s.resetPage f).creels = s.creels ∧
    (s.resetPage f).units = s.units ∧ (s.resetPage f).cap = s.cap ∧ (s.resetPage f).hdl = s.hdl ∧
    (s.resetPage f).trc = s.trc ∧ (s.resetPage f).sht = s.sht ∧ (s.resetPage f).crx = s.crx ∧ (s.resetPage f).rng = s.rng ∧
    (s.resetPage f).dge = s.dge ∧ (s.resetPage f).mcs = s.mcs ∧ (s.resetPage f).hbm = s.hbm ∧ (s.resetPage f).ply = s.ply ∧
    (s.resetPage f).spl = s.spl ∧ (s.resetPage f).smb = s.smb ∧ (s.resetPage f).tap = s.tap ∧
    (s.resetPage f).free = s.free ∧ (s.resetPage f).pending = s.pending := by
  simp [State.resetPage]

@[simp] theorem State.each_overtake_frame (s : State) (l : List Nat) :
    (s.each l (State.overtake)).glb = s.glb ∧ (s.each l (State.overtake)).pins = s.pins ∧
    (s.each l (State.overtake)).host = s.host ∧ (s.each l (State.overtake)).otp = s.otp ∧
    (s.each l (State.overtake)).vigil = s.vigil ∧ (s.each l (State.overtake)).tmp = s.tmp ∧
    (s.each l (State.overtake)).lcs = s.lcs ∧ (s.each l (State.overtake)).fns = s.fns ∧
    (s.each l (State.overtake)).mbxPend = s.mbxPend ∧ (s.each l (State.overtake)).rings = s.rings ∧
    (s.each l (State.overtake)).nextJob = s.nextJob ∧ (s.each l (State.overtake)).admissions = s.admissions ∧
    (s.each l (State.overtake)).strands = s.strands ∧ (s.each l (State.overtake)).frames = s.frames ∧
    (s.each l (State.overtake)).cap = s.cap ∧ (s.each l (State.overtake)).trc = s.trc ∧
    (s.each l (State.overtake)).rng = s.rng ∧ (s.each l (State.overtake)).dge = s.dge ∧
    (s.each l (State.overtake)).mcs = s.mcs ∧ (s.each l (State.overtake)).hbm = s.hbm ∧
    (s.each l (State.overtake)).spl = s.spl ∧ (s.each l (State.overtake)).smb = s.smb ∧
    (s.each l (State.overtake)).tap = s.tap ∧ (s.each l (State.overtake)).free = s.free ∧
    (s.each l (State.overtake)).pending = s.pending := by
  simpa only [Prod.mk.injEq] using State.each_kept (fun s => (s.glb, s.pins, s.host, s.otp, s.vigil, s.tmp, s.lcs, s.fns, s.mbxPend, s.rings, s.nextJob, s.admissions, s.strands, s.frames, s.cap, s.trc, s.rng, s.dge, s.mcs, s.hbm, s.spl, s.smb, s.tap, s.free, s.pending)) l _ (by simp) s

@[simp] theorem State.advanceGen_frame (s : State) (f : Nat) (g : BitVec 16) :
    (s.advanceGen f g).glb = s.glb ∧ (s.advanceGen f g).pins = s.pins ∧ (s.advanceGen f g).host = s.host ∧
    (s.advanceGen f g).otp = s.otp ∧ (s.advanceGen f g).vigil = s.vigil ∧ (s.advanceGen f g).tmp = s.tmp ∧
    (s.advanceGen f g).lcs = s.lcs ∧ (s.advanceGen f g).fns = s.fns ∧ (s.advanceGen f g).mbxPend = s.mbxPend ∧
    (s.advanceGen f g).rings = s.rings ∧ (s.advanceGen f g).nextJob = s.nextJob ∧
    (s.advanceGen f g).admissions = s.admissions ∧ (s.advanceGen f g).frames = s.frames ∧ (s.advanceGen f g).cap = s.cap ∧
    (s.advanceGen f g).trc = s.trc ∧ (s.advanceGen f g).rng = s.rng ∧ (s.advanceGen f g).dge = s.dge ∧
    (s.advanceGen f g).mcs = s.mcs ∧ (s.advanceGen f g).hbm = s.hbm ∧ (s.advanceGen f g).spl = s.spl ∧
    (s.advanceGen f g).smb = s.smb ∧ (s.advanceGen f g).tap = s.tap ∧ (s.advanceGen f g).free = s.free ∧
    (s.advanceGen f g).pending = s.pending := by
  simp [State.advanceGen]

@[simp] theorem State.abortTo_frame (s : State) (j a b : Nat) :
    (s.abortTo j a b).glb = s.glb ∧ (s.abortTo j a b).pins = s.pins ∧ (s.abortTo j a b).host = s.host ∧
    (s.abortTo j a b).otp = s.otp ∧ (s.abortTo j a b).vigil = s.vigil ∧ (s.abortTo j a b).tmp = s.tmp ∧
    (s.abortTo j a b).lcs = s.lcs ∧ (s.abortTo j a b).fns = s.fns ∧ (s.abortTo j a b).mbxPend = s.mbxPend ∧
    (s.abortTo j a b).rings = s.rings ∧ (s.abortTo j a b).nextJob = s.nextJob ∧
    (s.abortTo j a b).admissions = s.admissions ∧ (s.abortTo j a b).strands = s.strands ∧
    (s.abortTo j a b).frames = s.frames ∧ (s.abortTo j a b).cap = s.cap ∧ (s.abortTo j a b).trc = s.trc ∧
    (s.abortTo j a b).rng = s.rng ∧ (s.abortTo j a b).dge = s.dge ∧ (s.abortTo j a b).mcs = s.mcs ∧
    (s.abortTo j a b).hbm = s.hbm ∧ (s.abortTo j a b).spl = s.spl ∧ (s.abortTo j a b).smb = s.smb ∧
    (s.abortTo j a b).tap = s.tap ∧ (s.abortTo j a b).pending = s.pending := by
  unfold State.abortTo State.freeNum; (try dsimp only); (repeat' split) <;> simp

@[simp] theorem State.endReplacements_frame (s : State) :
    s.endReplacements.glb = s.glb ∧ s.endReplacements.pins = s.pins ∧ s.endReplacements.host = s.host ∧
    s.endReplacements.otp = s.otp ∧ s.endReplacements.vigil = s.vigil ∧ s.endReplacements.tmp = s.tmp ∧
    s.endReplacements.lcs = s.lcs ∧ s.endReplacements.fns = s.fns ∧ s.endReplacements.mbxPend = s.mbxPend ∧
    s.endReplacements.rings = s.rings ∧ s.endReplacements.jobs = s.jobs ∧ s.endReplacements.nextJob = s.nextJob ∧
    s.endReplacements.admissions = s.admissions ∧ s.endReplacements.strands = s.strands ∧
    s.endReplacements.frames = s.frames ∧ s.endReplacements.creels = s.creels ∧ s.endReplacements.units = s.units ∧
    s.endReplacements.cap = s.cap ∧ s.endReplacements.hdl = s.hdl ∧ s.endReplacements.trc = s.trc ∧
    s.endReplacements.sht = s.sht ∧ s.endReplacements.crx = s.crx ∧ s.endReplacements.rng = s.rng ∧
    s.endReplacements.dge = s.dge ∧ s.endReplacements.mcs = s.mcs ∧ s.endReplacements.hbm = s.hbm ∧
    s.endReplacements.ply = s.ply ∧ s.endReplacements.spl = s.spl ∧ s.endReplacements.smb = s.smb ∧
    s.endReplacements.tap = s.tap ∧ s.endReplacements.free = s.free ∧ s.endReplacements.pending = s.pending := by
  simp [State.endReplacements]
/-! ## How a command's job ends -/

theorem State.job?_of_jobs {s t : State} (h : s.jobs = t.jobs) (j : Nat) : s.job? j = t.job? j := by
  simp [State.job?, h]

@[simp] theorem State.settle_job? (s : State) (j : Nat) : s.settle.job? j = s.job? j :=
  State.job?_of_jobs (by simp) j

@[simp] theorem State.modJob_job? (s : State) (j : Nat) (f : Job → Job) : (s.modJob j f).job? j = (s.job? j).map f := by
  unfold State.modJob; split <;> simp_all

theorem State.modJob_job?_ne (s : State) {i j : Nat} (f : Job → Job) (h : i ≠ j) : (s.modJob j f).job? i = s.job? i := by
  unfold State.modJob; split
  · rfl
  · exact State.job?_setJob_ne _ _ h

@[simp] theorem State.leaveS3_job? (s : State) (j i : Nat) : (s.leaveS3 j).job? i = s.job? i :=
  State.job?_of_jobs (by simp) i

/-- Returning a reservation changes nothing of a job but its mark. -/
theorem State.unreserve_job? {s : State} {j : Nat} {x : Job} (h : s.job? j = some x) :
    ∃ b, (s.unreserve j).job? j = some { x with reserved := b } := by
  unfold State.unreserve
  simp only [h]
  split
  · exact ⟨false, State.job?_setJob _ _ _⟩
  · exact ⟨x.reserved, h⟩

theorem State.burn_job? {s : State} {j : Nat} {x : Job} (h : s.job? j = some x) :
    ∃ i w, (s.burn j).job? j = some { x with index := i, newTree := w } := by
  unfold State.burn
  simp only [h]
  split
  · exact ⟨none, false, State.job?_setJob _ _ _⟩
  · exact ⟨x.index, x.newTree, h⟩

@[simp] theorem State.laneFree_job? (s : State) (n j i : Nat) : (s.laneFree n j).job? i = s.job? i :=
  State.job?_of_jobs (by simp) i

@[simp] theorem State.takeGate_job? (s : State) (j i : Nat) : (s.takeGate j).job? i = s.job? i :=
  State.job?_of_jobs (by simp) i

@[simp] theorem State.undeal_job? (s : State) (j i : Nat) : (s.undeal j).job? i = s.job? i := rfl

theorem State.freeBank_job? {s : State} {j : Nat} {x : Job} (h : s.job? j = some x) :
    ∃ b, (s.freeBank j).job? j = some { x with bank := b } := by
  unfold State.freeBank
  simp only [h]
  split
  · exact ⟨none, State.job?_setJob _ _ _⟩
  · exact ⟨x.bank, h⟩

@[simp] theorem State.freeUnit_job? (s : State) (f c u : Nat) (b : Bool) (j : Nat) :
    (s.freeUnit f c u b).job? j = s.job? j := rfl

@[simp] theorem State.each_freeUnit_job? (l : List Nat) (f c : Nat) (b : Bool) (s : State) (j : Nat) :
    (s.each l (fun s u => s.freeUnit f c u b)).job? j = s.job? j :=
  State.each_kept (fun s => s.job? j) l (fun s u => s.freeUnit f c u b) (fun _ _ => rfl) s

/-- A job whose units are released holds none. -/
theorem State.freeUnits_job? {s : State} {j : Nat} {x : Job} {b : Bool} (h : s.job? j = some x) :
    ∃ k, (s.freeUnits j b).job? j = some { x with bank := k, spns := [], carder := false, dslot := none, hashed := 0, fan := [] } := by
  obtain ⟨k, hk⟩ := State.freeBank_job? h
  refine ⟨k, ?_⟩
  unfold State.freeUnits
  have hl : (((s.freeBank j).laneFree 3 j).laneFree 4 j).job? j = some { x with bank := k } := by simpa using hk
  simp only [hl, State.modJob_job?]
  (repeat' split) <;> simp [hk]

@[simp] theorem State.endShadow_job? (s : State) (j i : Nat) : (s.endShadow j).job? i = s.job? i :=
  State.job?_of_jobs (by simp) i

@[simp] theorem State.sealCycles_job?_ne (s : State) {i j : Nat} (h : i ≠ j) : (s.sealCycles j).job? i = s.job? i := by
  unfold State.sealCycles State.freeNum; dsimp only
  (repeat' split) <;> first | rfl | exact (State.job?_setJob_ne _ _ h).trans (State.job?_of_jobs (by rfl) i)

/-- Counting the seal island's time touches a job's CTIME and ENGINE only. -/
theorem State.sealCycles_job? {s : State} {j : Nat} {x : Job} (h : s.job? j = some x) :
    ∃ c e, (s.sealCycles j).job? j = some { x with cycles := c, engine := e } := by
  unfold State.sealCycles State.freeNum
  simp only [h]
  split
  · exact ⟨_, _, State.job?_setJob _ _ _⟩
  · exact ⟨x.cycles, x.engine, h⟩

/-- A job that S3 or S4 refuses ends with the status given and nothing computed (R22). -/
theorem State.refuse_ends {s : State} {j m d r : Nat} {x : Job} (h : s.job? j = some x) :
    ∃ y, (s.refuse j m d r).job? j = some y ∧ y.stage = .s6 ∧ y.major = m ∧ y.detail = d ∧ y.resLen = r ∧ y.result = [] ∧
      y.cycles = 0 := by
  obtain ⟨b, hb⟩ := State.unreserve_job? (s := ((s.takeGate j).leaveS3 j).undeal j) (j := j) (x := x) (by simpa using h)
  obtain ⟨i, w, hi⟩ := State.burn_job? hb
  obtain ⟨k, hk⟩ := State.freeUnits_job? (b := false) hi
  unfold State.refuse
  simp only [h]
  exact ⟨_, by rw [State.modJob_job?, hk]; rfl, rfl, rfl, rfl, rfl, rfl, rfl⟩

/-- A command that ends OK: its result, if the host left room for it. -/
theorem State.done_ends (s : State) (j : Nat) (x : Job) (r : Bytes) (h : s.job? j = some x) (hc : r.length ≤ x.outCap) :
    (s.done j r).EndedWith j r := by
  obtain ⟨c, e, hs⟩ := State.sealCycles_job? (s := (s.takeGate j).leaveS3 j) (j := j) (x := x) (by simpa using h)
  unfold State.done
  simp only [h]
  exact ⟨_, by rw [State.modJob_job?, hs]; rfl, rfl, if_pos (decide_eq_true hc), if_pos (decide_eq_true hc),
    if_pos (decide_eq_true hc), rfl⟩

/-- A command whose result is longer than the host's buffer: INPUT 0x0003 and the size it needs (R71). -/
theorem State.done_short (s : State) (j : Nat) (x : Job) (r : Bytes) (h : s.job? j = some x) (hc : x.outCap < r.length) :
    (s.done j r).Ended j 2 3 r.length := by
  obtain ⟨c, e, hs⟩ := State.sealCycles_job? (s := (s.takeGate j).leaveS3 j) (j := j) (x := x) (by simpa using h)
  have hn : ¬ decide (r.length ≤ x.outCap) = true := by simpa using hc
  unfold State.done
  simp only [h]
  exact ⟨_, by rw [State.modJob_job?, hs]; rfl, rfl, if_neg hn, if_neg hn, rfl, if_neg hn⟩

/-- A command that ends with a status has no output (R22). -/
theorem State.doneErr_ends (s : State) (j m d : Nat) (x : Job) (h : s.job? j = some x) :
    (s.doneErr j m d).Ended j m d 0 := by
  obtain ⟨b, hb⟩ := State.unreserve_job? (s := ((s.endShadow j).takeGate j).leaveS3 j) (j := j) (x := x) (by simpa using h)
  unfold State.doneErr
  simp only [h]
  exact ⟨_, by rw [State.modJob_job?, hb]; rfl, rfl, rfl, rfl, rfl, rfl⟩

/-- A command whose output buffer is too small reports the size it needs. -/
theorem State.doneShort_ends (s : State) (j n : Nat) (x : Job) (h : s.job? j = some x) :
    (s.doneShort j n).Ended j 2 3 n := by
  obtain ⟨y, hy, h1, h2, h3, -, h4⟩ := State.doneErr_ends s j 2 3 x h
  unfold State.doneShort
  exact ⟨{ y with resLen := n }, by rw [State.modJob_job?, hy]; rfl, h1, h2, h3, rfl, h4⟩

theorem State.settle_ended {s : State} {j m d n : Nat} (h : s.Ended j m d n) : s.settle.Ended j m d n := by
  obtain ⟨y, hy, hr⟩ := h; exact ⟨y, by simpa using hy, hr⟩

theorem State.settle_endedWith {s : State} {j : Nat} {r : Bytes} (h : s.EndedWith j r) : s.settle.EndedWith j r := by
  obtain ⟨y, hy, hr⟩ := h; exact ⟨y, by simpa using hy, hr⟩

/-- A raised command's job is in the device. -/
theorem State.cmdJob_job? {s : State} {j op : Nat} {x : Job} (h : s.cmdJob j op = some x) : s.job? j = some x := by
  unfold State.cmdJob at h
  split at h
  · split at h
    · simp_all
    · simp at h
  · simp at h

/-! ## The delay lists leave the ready tokens and the registers of the Heddle -/

@[simp] theorem State.setDl_ready (s : State) (l : Nat) (es : List DlEntry) : (s.setDl l es).hdl.ready = s.hdl.ready := rfl
@[simp] theorem State.dlRemove_ready (s : State) (l : Nat) (c : Instr) : (s.dlRemove l c).hdl.ready = s.hdl.ready := rfl
@[simp] theorem State.sendRingIrq_ready (s : State) (f r : Nat) : (s.sendRingIrq f r).hdl.ready = s.hdl.ready := by
  unfold State.sendRingIrq; split <;> simp
@[simp] theorem State.dlFree_ready (s : State) : s.dlFree.hdl.ready = s.hdl.ready := by
  unfold State.dlFree; dsimp only; (repeat' split) <;> simp
@[simp] theorem State.dlPut_ready (s : State) (l a : Nat) (c : Instr) : (s.dlPut l a c).hdl.ready = s.hdl.ready := by
  unfold State.dlPut; dsimp only; (repeat' split) <;> simp
@[simp] theorem State.countIrq_ready (s : State) (f r : Nat) : (s.countIrq f r).hdl.ready = s.hdl.ready := by
  unfold State.countIrq; dsimp only; (repeat' split) <;> simp
@[simp] theorem State.mirrorEntry_ready (s : State) (a b : List W64) : (s.mirrorEntry a b).hdl.ready = s.hdl.ready := by
  unfold State.mirrorEntry; dsimp only; split <;> simp
@[simp] theorem State.mirrorFlush_ready (s : State) (n : Nat) : (s.mirrorFlush n).hdl.ready = s.hdl.ready := by
  induction n generalizing s with
  | zero => simp [State.mirrorFlush]
  | succ n ih => unfold State.mirrorFlush; split <;> simp [ih]
@[simp] theorem State.mirrorAll_ready (s : State) : s.mirrorAll.hdl.ready = s.hdl.ready := by simp [State.mirrorAll]
@[simp] theorem State.dlInsert_ready (s : State) (l a : Nat) (c : Instr) : (s.dlInsert l a c).hdl.ready = s.hdl.ready := by
  simp [State.dlInsert]
@[simp] theorem State.trace_ready (s : State) (e : Ev) : (s.trace e).hdl.ready = s.hdl.ready := by simp [State.trace]

/-! ## GLB_MODE -/

theorem State.settle_settled (s : State) : s.settle.Settled := by
  unfold State.settle State.Settled
  split
  · next h => exact h.symm
  · rfl

theorem State.modeNow_mem (s : State) : s.modeNow ∈ modeCodes := by
  unfold State.modeNow
  dsimp only
  (repeat' split) <;> decide

end Sys2Proof.Machine
end

