-- ==== Sys2Proof/Tests/Slice0.lean ====
section
/-! SUPPORT. Tests: an ill-formed term for each check of WellFormed, the spec's worked examples, small tests of single
commands, and for each statement of Certificates/Slice0/Obligations.lean a theorem that shows its hypotheses met together,
clause by clause. Expected values come from spec/, by hand. -/

open Sys2Proof Sys2Proof.Machine

set_option maxRecDepth 20000

namespace Sys2Proof.Tests

/-! ## Helpers -/

/-- The device in SERVICE, eight VFs enabled. -/
def up : State := { State.reset with
  pins := { State.reset.pins with perst := false }
  glb := { State.reset.glb with phase := .running, mode := 0x5A, prev := 0x3C, step := 12, ringsOpen := true }
  hbm := { State.reset.hbm with lost := false, trained := true }
  host := { numVfs := 8 } }

/-- The outcome is a next state with a property. -/
def ok (o : Host.Outcome State Fault Refusal) (p : State → Bool) : Bool :=
  match o with
  | .next t => p t
  | _ => false

/-- A job of the manager's ring 0 at a stage, its buffers staged. -/
def mk (op : Nat) (st : Stage) (param cap : Nat) (inp aux : Bytes := []) (handle : Nat := 0) : Job := {
  fn := 0, ring := 0, start := 0, n := 1, seq := 7, opcode := op, cls := 3, order := false, irq := false
  words := [BitVec.ofNat 64 (handle * 2 ^ 32), 0, BitVec.ofNat 64 (cap * 2 ^ 32 + inp.length), 0, 0,
    BitVec.ofNat 64 (param * 2 ^ 32 + aux.length)]
  exts := [], deadline := none, gen := 0, stage := st
  input := if inp = [] then none else some inp
  aux := if aux = [] then none else some aux }

/-- Job 1 of `up`. -/
def upJ (x : Job) : State := up.setJob 1 x

/-- A job's status, by its number. -/
def ended (t : State) (j major detail : Nat) : Bool :=
  match t.job? j with
  | some y => (y.stage = .s6 || y.stage = .ended) && y.major = major && y.detail = detail
  | none => false

/-! ## WellFormed: each check refuses an ill-formed term -/

theorem test_wf_frame : wellFormed (.dispatch 4) = false ∧ wellFormed (.dispatch 3) = true := by decide
theorem test_wf_creel : wellFormed (.dvfsStep 0 11) = false ∧ wellFormed (.dvfsStep 0 10) = true := by decide
theorem test_wf_spindle : wellFormed (.warmKeyTimeout 0 0 12) = false ∧ wellFormed (.warmKeyTimeout 0 0 11) = true := by decide
theorem test_wf_unit : wellFormed (.nextJob 0 0 13) = false ∧ wellFormed (.nextJob 0 0 12) = true := by decide
theorem test_wf_core : wellFormed (.nop 5) = false ∧ wellFormed (.nop 4) = true := by decide
theorem test_wf_strand : wellFormed (.vfFlr 0) = false ∧ wellFormed (.vfFlr 1024) = false ∧ wellFormed (.vfFlr 1023) = true := by
  decide
theorem test_wf_fn : wellFormed (.admCfgDisable 1024) = false ∧ wellFormed (.admCfgDisable 0) = true := by decide
theorem test_wf_ring : wellFormed (.entryFetch 0 256) = false ∧ wellFormed (.entryFetch 0 255) = true := by decide
theorem test_wf_vec : wellFormed (.vectorUnmask 0 256) = false ∧ wellFormed (.vectorUnmask 0 255) = true := by decide
theorem test_wf_source : wellFormed (.sourceRestore 3 []) = false ∧ wellFormed (.sourceRestore 2 [3]) = false := by decide
theorem test_wf_tamper : wellFormed (.tamperSourceClear 0) = false ∧ wellFormed (.tamperSourceClear 0x1A) = false := by decide
theorem test_wf_inst : wellFormed (.drbgReseed 6) = false ∧ wellFormed (.drbgReseed 5) = true := by decide
theorem test_wf_shuttle : wellFormed (.shtReqWrite 8 0 0 {}) = false ∧ wellFormed (.shtReqWrite 7 15 0 {}) = true := by decide
theorem test_wf_request_slot : wellFormed (.shtReqWrite 0 16 0 {}) = false := by decide
theorem test_wf_digest_slot : wellFormed (.dgeCtlAbort 47 1) = false ∧ wellFormed (.dgeCtlAbort 64 1) = false := by decide
theorem test_wf_ply : wellFormed (.plyLinkDown 2) = false ∧ wellFormed (.plyLinkDown 1) = true := by decide
theorem test_wf_vfs : wellFormed (.vfEnableClear 1024) = false ∧ wellFormed (.vfEnableClear 1023) = true := by decide
theorem test_wf_cause : wellFormed (.machineCheck 0 0 0 0) = false ∧ wellFormed (.machineCheck 0 0 0 6) = false := by decide
theorem test_wf_key_index : wellFormed (.keyExpiry 0 262144) = false ∧ wellFormed (.keyExpiry 0 262143) = true := by decide
theorem test_wf_ctx : wellFormed (.callTake 32) = false ∧ wellFormed (.callTake 31) = true := by decide
theorem test_wf_lane : wellFormed (.shuttleRelease 0 16 0) = false ∧ wellFormed (.shuttleRelease 0 15 0) = true := by decide
theorem test_wf_entry : wellFormed (.entryReadCompletion 0 0 .ok [0]) = false ∧
    wellFormed (.entryReadCompletion 0 0 .error []) = true := by decide
theorem test_wf_outs : wellFormed (.noiseSample 2 [] []) = false ∧ wellFormed (.noiseSample 2 [true] []) = true := by decide

/-! ## The spec's worked examples -/

/-- R16: the ENGINE codes of its examples. -/
theorem test_engine_codes : engineCode 2 7 5 = 0x9D40 ∧ engineCode 1 10 12 = 0x6B00 ∧ engineCode 3 15 15 = 0xFFC0 := by decide

/-- The job of Table 3.14, as computed. -/
def exDecaps : Job := { mk 0x1122 .s6 0 32 with
  seq := 0x42, irq := true, engine := engineCode 1 4 9, cycles := 180000, resLen := 32 }

/-- Table 3.15. -/
theorem test_completion_words : completionWord exDecaps true true = 0x0042524000000006 ∧
    completionWord7 exDecaps = 0x000002C000000020 := by decide

/-- Table 3.15, the refused variant. -/
theorem test_completion_refused : completionWord { exDecaps with engine := engineCode 1 15 15, major := 2, detail := 1 } true true =
    0x00427FC000010206 := by decide

/-- Table 3.18: a chained completion; CTIME of 1,327,104 cycles. -/
theorem test_completion_chain :
    completionWord { exDecaps with seq := 0x43, engine := engineCode 0 6 2, fFanout := true } false true = 0x0043188000000022 ∧
    completionWord { exDecaps with seq := 0x43, engine := engineCode 0 6 2, fFanout := true } true false = 0x0043188000000024 ∧
    ctime 1327104 = 5184 := by decide

/-- Table 3.14's entry, and the ring it lies in. -/
def exEntry : List W64 := [0x004200001122020F, 0x01523453000001F4, 0x0000004020000000, 0x0000002000000440, 0x0000004020001000,
  0, 0, 0]

/-- The token of the entry of Table 3.14. -/
def exToken : Token := { fn := 5, ring := 3, cls := 2, start := 17, entries := [exEntry], bellAt := 1280000000 }

/-- S2 makes of it the job the text describes, with its deadline. -/
theorem test_parse_entry : ((up.jobOf exToken).opcode = 0x1122 ∧ (up.jobOf exToken).seq = 0x42 ∧ (up.jobOf exToken).cls = 2 ∧
    (up.jobOf exToken).irq = true ∧ (up.jobOf exToken).handle = 0x01523453 ∧ (up.jobOf exToken).inLen = 1088 ∧
    (up.jobOf exToken).outCap = 32 ∧ (up.jobOf exToken).deadline = some 1280000500) ∧ chainFault [exEntry] = none := by decide

/-- The ring of the text: 256 entries, DONE 18. -/
def exRing : Ring := { base := 0x0000004010000000, log2 := 8, vec := 2, tail := 18, done := 18, fetched := 18, home := 1 }

/-- TAIL 0x200 with DONE 18 is structural fault 0x0B with SLOT 0 (text below Table 3.17). -/
theorem test_doorbell_example : ok (exec (.doorbellWrite 5 3 8 0x200) (up.setRing 5 3 exRing)) (fun t =>
    (t.page 5).halted && fld (t.page 5).fault.toNat 0 8 = 0x0B && fld (t.page 5).fault.toNat 16 16 = 0 &&
    fld (t.page 5).fault.toNat 32 8 = 3) = true := by decide

/-- Table 6.24's job: hybrid encapsulation of 0x8111 to an inline key. -/
def exHybrid : Job := mk 0x8111 .s5 0 1152

/-- Table 6.24: 33,400 cycles and 330,000 cycles are CTIME 1,420. -/
theorem test_hybrid_ctime : opCycles exHybrid none 0 0 = some 363400 ∧ ctime 363400 = 1420 := by decide

/-- R71, Table 7.13: ECDH on P-256, 240,000 cycles, CTIME 938; the check phase alone 1,504 cycles, CTIME 6. -/
theorem test_ecdh_ctime : opCycles (mk 0x1911 .s5 0 32) none 0 0 = some 240000 ∧ ctime 240000 = 938 ∧ ctime 1504 = 6 := by decide

/-- Table 9.13: 2,148 cycles are CTIME 9. -/
theorem test_posting_ctime : ctime 2148 = 9 ∧ ctime 0 = 0 ∧ ctime 1 = 1 ∧ ctime 256 = 1 ∧ ctime 257 = 2 := by decide

/-- R480: the addresses the text works out, and Table 12.13: SHT_REQ4 of instance 0 after reset. -/
theorem test_addresses : locate .bar2 0 0x01A4000 = .creel 2 8 0 ∧ locate .bar2 0 0x0053140 = .sht 3 0x140 ∧
    up.regAt (locate .bar2 0 0x0050140) = 0x00001000FFFF0007 := by decide

/-- R452: TMP_EVT = 0x1200 reads 0xFFFF_EDFF in its shadow. -/
theorem test_shadow : ({ up with tmp := { up.tmp with evt := 0x1200 } } : State).regAt (.shadow (.tmp 0x08)) % 2 ^ 32 = 0xFFFFEDFF := by
  decide

/-- R362: CMP of equal words sets Z and C; the smallest number less 1 overflows. -/
theorem test_flags : nzcvSub 5 5 = { n := false, z := true, c := true, v := false } ∧
    nzcvSub 0x8000000000000000 1 = { n := false, z := false, c := true, v := true } := by decide

/-! ## The block, power, rings -/

/-- The strand of the examples: strand 5, enabled, with the ordering groups 0x050 to 0x053. -/
def up5 : State := up.setStrand 5 { state := .enabled, gen := 1, level := 2 ^ 21
                                    quota := { maxRings := 4, ceil := 3, inflight := 8, rate := 1000, burst := 16
                                               keyEntries := 64, cacheKib := 16, ogBase := 0x050, ogCount := 4 } }

/-- The powered-off device, GATHER, and GATHER with a DRS in OTP. -/
def off : State := { State.reset with pins := { State.reset.pins with mainPower := false } }
def gath : State := { up with glb := { up.glb with phase := .gather, mode := 0x3C, ringsOpen := false } }
def gathDrs : State := { gath with
  rng := { gath.rng with state := 1 }
  vigil := { gath.vigil with nonce := some (zeros 32) }
  otp := { gath.otp with drs0 := { data := [1], valid := 0xA5 } } }
/-- GATHER of a device without a nonce, its instances seeded; and the environment of both. -/
def gathNew : State := { gathDrs with
  rng := { gathDrs.rng with insts := (List.range 6).map (fun i => (i, { seeded := true })) }
  vigil := gath.vigil }
def gEnv : GatherEnv := { slot0Spoils := false, slot1Spoils := false, ports := [] }

theorem witness_EmptyQueuePassesAMicrosecond : (up.pending = [] ∧ up.ticking = true) ∧
    (State.reset.pending = [] ∧ State.reset.ticking = false) := by decide

/-- R34: each condition in its place of the order. -/
theorem witness_ModeOrder :
    ({ up with glb := { up.glb with phase := .vigil } } : State).glb.phase = .vigil ∧
    ({ up with glb := { up.glb with zeroized := true } } : State).modeNow = 0xC3 ∧
    ({ up with glb := { up.glb with halted := true, debug := true } } : State).modeNow = 0xAA ∧
    State.reset.modeNow = 0x33 ∧ gath.modeNow = 0x3C ∧
    ({ gath with glb := { gath.glb with unseeded := true } } : State).modeNow = 0x55 ∧
    ({ up with glb := { up.glb with debug := true, raw := true } } : State).modeNow = 0xA5 ∧
    ({ up with glb := { up.glb with raw := true, update := true } } : State).modeNow = 0x99 ∧
    ({ up with glb := { up.glb with update := true, drain := .standalone } } : State).modeNow = 0x96 ∧
    ({ up with glb := { up.glb with drain := .standalone, unseeded := true } } : State).modeNow = 0x69 ∧
    ({ up with glb := { up.glb with unseeded := true } } : State).modeNow = 0x55 ∧ up.modeNow = 0x5A ∧ up.capped = false ∧
    (up.modeNow = up.glb.mode ∧ gath.modeNow ≠ up.glb.mode) := by decide

theorem witness_EveryStepReportsItsMode : step { up with pending := [.nop 0] } = exec (.nop 0) up := by rfl

/-- A transition to ordinal 3 whose drain has ended. -/
def upLcRun : State := { up with lcs := { up.lcs with run := some { job := 0, target := 3, at_ := 1 } } }

theorem witness_ResetCommands : (off.pins.mainPower = false) ∧ (up.pins.mainPower = true ∧ up.glb.tripped = false) ∧
    (({ up with glb := { up.glb with tripped := true } } : State).glb.tripped = true ∧ up.hbm.lost = false) ∧
    (State.reset.pins.mainPower = true ∧ State.reset.glb.phase = .held ∧ State.reset.glb.nextCause = 0 ∧
      State.reset.glb.tripped = false) ∧ up.jobs = [] ∧
    (up.glb.phase ≠ .held) ∧ (up.barsOpen = true) ∧ (State.reset.pins.cell = true) ∧ up.lcs.run = none ∧
    (upLcRun.pins.mainPower = true ∧ upLcRun.lcs.run = some { job := 0, target := 3, at_ := 1 }) := by decide

/-- R426: the byte of the worked example of chapter 16, cut after three of its four 1 bits. -/
theorem test_otp_cut : topBits 3 0x96 = 0x94 ∧ topBits 9 0x96 = 0x96 ∧ topBits 0 0x96 = 0 := by decide

/-- R43: a device reset by GLB_RESET needs the key 0x9528. -/
theorem test_glb_reset : ok (exec (.glbResetWrite 0x9528) up) (fun t => t.glb.phase = .held && t.glb.nextCause = 2) = true ∧
    ok (exec (.glbResetWrite 0x9529) up) (fun t => t.glb.phase = .running) = true := by decide

theorem test_power_on : ok (exec .powerOn off) (fun t => t.pins.mainPower && t.glb.phase = .held && t.glb.nextCause = 0) = true ∧
    ok (exec .mainPowerLoss up) (fun t => t.glb.mode = 0x0F && !t.pins.mainPower) = true := by decide

theorem witness_PowerUpCommands : (State.reset.pins.mainPower = true ∧ State.reset.glb.phase = .held ∧
      State.reset.glb.tripped = false) ∧
    (gath.live = true ∧ gath.glb.phase = .gather ∧ gath.rng.state = 0) ∧
    (gathDrs.live = true ∧ gathDrs.glb.phase = .gather ∧ gathDrs.rng.state = 1 ∧ gathDrs.glb.ringsOpen = false ∧
      gathDrs.otp.drs0.kind = 1 ∧ gathDrs.gatherDraws gEnv = false ∧ gathNew.gatherDraws gEnv = true ∧ gathNew.serves 4 = true ∧
      gathNew.rng.state = 1 ∧ gathNew.otp.drs0.kind = 1) ∧
    (up.awake = true ∧ up.glb.halted = false ∧ up.glb.zeroized = false) ∧
    (up.ticking = true ∧ ({ up with tmp := { up.tmp with loaded := true } } : State).tmp.loaded = true) := by decide

/-- R46: released from reset, a blank device does not pass KINDLE: it halts with a FAIL code; R48. -/
theorem test_kindle : ok (exec (.perstNRelease { fail := 1, heldCreels := [], width := 16, speed := 6, flit := true }) State.reset)
    (fun t => t.glb.halted && t.glb.mode = 0xAA) = true := by decide

/-- R46, R37: gathering ends in SERVICE and rings are accepted. -/
theorem test_gather : ok (exec (.gatherComplete gEnv) gathDrs)
    (fun t => t.glb.mode = 0x5A && t.glb.ringsOpen && t.glb.step = 12) = true := by decide

/-- A ring of 16 entries: TAIL 5, DONE 2, nothing fetched yet. -/
def ring16 : Ring := { base := 0x40000000, log2 := 4, tail := 5, done := 2, fetched := 2 }
def upR : State := up.setRing 0 1 ring16

/-- Both bounds of R63: b = a = 3, b = 16 taken, b = 17 and b = 2 outside; accesses of 2, 4 and 8 bytes. -/
theorem witness_DoorbellWrites :
    (upR.barsOpen = true ∧ upR.fnThere 0 = true ∧ 2 < ringLimit 0 ∧ upR.ring? 0 2 = none) ∧
    ((2 : Nat) ≠ 4 ∧ (2 : Nat) ≠ 8 ∧ upR.glb.halted = false) ∧
    (1 < ringLimit 0 ∧ upR.ring? 0 1 = some ring16 ∧ upR.glb.ringsOpen = true ∧ ring16.destroying = false ∧
      ring16.mirror = false ∧ (upR.page 0).halted = false ∧ (ring16.tail - ring16.done).toNat = 3 ∧
      ((18 : W32) - ring16.done).toNat = 2 ^ ring16.log2 ∧ ((19 : W32) - ring16.done).toNat = 2 ^ ring16.log2 + 1 ∧
      ((4 : W32) - ring16.done).toNat < 3) := by decide

theorem test_doorbell_bounds :
    ok (exec (.doorbellWrite 0 1 8 18) upR) (fun t => (t.ring? 0 1).map (·.tail) = some 18) = true ∧
    ok (exec (.doorbellWrite 0 1 8 5) upR) (fun t => t.ring? 0 1 = some ring16 && !t.glb.halted) = true ∧
    ok (exec (.doorbellWrite 0 1 8 19) upR) (fun t => (t.page 0).halted && t.glb.mode = 0xAA) = true ∧
    ok (exec (.doorbellWrite 0 1 8 4) upR) (fun t => (t.page 0).halted) = true ∧
    ok (exec (.doorbellWrite 0 1 4 6) upR) (fun t => (t.page 0).dbDrop = 1) = true ∧
    ok (exec (.doorbellWrite 0 1 2 6) upR) (fun t => t.host.ur && (t.page 0).dbDrop = 0) = true := by decide

theorem witness_DoorbellKeepsRingBounds : upR.ring? 0 1 = some ring16 ∧ (ring16.tail - ring16.done).toNat ≤ 2 ^ ring16.log2 ∧
    ok (exec (.doorbellWrite 0 1 8 18) upR) (fun t => (t.ring? 0 1).isSome) = true := by decide

/-- The ring of the examples with its entry covered, read, as a token, and in the parse buffer. -/
def ring5 : Ring := { exRing with done := 17, fetched := 17 }
def upF : State := up5.setRing 5 3 ring5
def upRead : State := up5.setRing 5 3 { ring5 with fetched := 18, reading := [17] }
def upTok : State := { upF with hdl := { upF.hdl with ready := [exToken] } }
def upParse : State := upF.setFrame 1 { (upF.frame 1) with parse := [exToken] }

theorem witness_EntriesBecomeJobs :
    (upF.ring? 5 3 = some ring5 ∧ upF.mayFetch 5 3 = true ∧ ring5.destroying = false ∧ ring5.mirror = false ∧
      ring5.fetched ≠ ring5.tail ∧ upF.ringHeld 5 3 ring5 < 64 ∧ upF.allHeld < 8192 ∧ upF.fetchTurn 5 3 = true) ∧
    (ReadOutcome.poison ≠ .ok ∧ ReadOutcome.poison ≠ .short ∧ (5 : Nat) ≠ 0) ∧
    ((upRead.ring? 5 3).map (·.reading) = some [17] ∧ (upRead.ring? 5 3).map (·.held) = some [] ∧ exEntry.length = 8 ∧
      fld (ew exEntry 0) 0 3 = 7) ∧
    (upTok.live = true ∧ (upTok.chooseClass 1).map (·.1) = some 2 ∧
      (∃ x, upTok.chooseClass 1 = some (2, x) ∧
        nextAfter 64 (x.rrPtr.getD 2 63) (fun q => (upTok.tokensOf 1 2).any (fun t => queueOf t.fn = q)) = some 5 ∧
        (upTok.tokensOf 1 2).find? (fun t => queueOf t.fn = 5) = some exToken ∧ x.parseLen + exToken.entries.length ≤ 64)) ∧
    (upParse.live = true ∧ (upParse.frame 1).parse = [exToken] ∧ chainFault exToken.entries = none) :=
  ⟨by decide, by decide, by decide, ⟨by decide, by decide, ⟨_, rfl, by decide, by decide, by decide⟩⟩, by decide⟩

/-- A frame whose event token of an ended job waits, and one without. -/
theorem witness_event_waits : (upTok.setJob 1 { mk 0x7120 .ended 1 8 with place := some (1, 0) }).eventWaits 1 = true ∧
    upTok.eventWaits 1 = false := by decide

/-- R65, R62: the entry's address is BASE plus 64 times its slot. -/
theorem test_fetch : ok (exec (.entryFetch 5 3) upF) (fun t => t.host.out = [.readReq 5 (0x4010000000 + 64 * 17) 64]) = true ∧
    ok (exec (.entryReadCompletion 5 3 .ok exEntry) upRead) (fun t => t.hdl.ready.map (·.cls) = [2]) = true := by decide

/-- R68, R86: dispatch and parse make the job; a poisoned read of an entry is fault 0x0C. -/
theorem test_parse : ok (exec (.dispatch 1) upTok) (fun t => (t.frame 1).parse = [exToken] && t.hdl.ready = []) = true ∧
    ok (exec (.parse 1) upParse) (fun t => (t.jobs.map (fun e => e.2.opcode)) = [0x1122]) = true ∧
    ok (exec (.entryReadCompletion 5 3 .poison []) upRead) (fun t => fld (t.page 5).fault.toNat 0 8 = 0x0C) = true := by decide

theorem witness_DispatchServesWaitingClass : ∃ x, upTok.chooseClass 1 = some (2, x) := ⟨_, rfl⟩

/-- A ring with a pending completion, its vector masked and not; an IRQ_SET job. -/
def upIrq : State := upR.setRing 0 1 { ring16 with pendIrq := 1, vec := 2, timer := true }
def upIrqOpen : State := { upIrq with host := { upIrq.host with msix := [(2, { addr := 0xFEE00000, ctrl := 0 })] } }
def irqJob : Job := mk 0xF004 .firmware 1 0 (leBytes 8 (255 + 256 * 256 + 7 * 2 ^ 20))
def upIrqSet : State := upR.setJob 1 irqJob

theorem witness_InterruptCommands :
    (upIrq.ring? 0 1 = some { ring16 with pendIrq := 1, vec := 2, timer := true } ∧ upIrq.masked 0 2 = true ∧
      upIrqOpen.masked 0 2 = false ∧
      (upIrq.dl 3).any (fun e => e.cmd = .coalesceTimeout 0 1 && decide (upIrq.now < e.at_)) = false) ∧
    (upIrq.barsOpen = true ∧ upIrq.fnThere 0 = true ∧ 255 < vecLimit 0) ∧
    (upIrqSet.cmdJob 1 0xF004 = some irqJob ∧ (irqFields (leAt irqJob.block 0 8)).vec < vecLimit irqJob.fn ∧
      fld irqJob.param 0 8 ≠ 0 ∧ 0 < (irqFields (leAt irqJob.block 0 8)).cnt ∧ (irqFields (leAt irqJob.block 0 8)).cnt ≤ 256 ∧
      upIrqSet.ring? irqJob.fn (fld irqJob.param 0 8) = some ring16 ∧ ring16.destroying = false ∧ ring16.pendIrq = 0) := by
  decide

/-- R83: a masked vector's message waits in the PBA and goes out when the mask is cleared. -/
theorem test_interrupts : ok (exec (.coalesceTimeout 0 1) upIrqOpen) (fun t => t.host.out = [.msix 0 2]) = true ∧
    ok (exec (.coalesceTimeout 0 1) upIrq) (fun t => t.host.out = [] && t.host.pba.getD 2 false) = true ∧
    ok (exec (.irqSet 1) upIrqSet) (fun t => (t.ring? 0 1).map (fun g => (g.vec, g.cnt, g.tmo)) = some (255, 256, 7) &&
      ended t 1 0 0) = true := by decide

/-- A RING_CREATE block. -/
def rcb (base ring log2 ceil ogrp vec cnt : Nat) : Bytes :=
  leBytes 8 base ++ leBytes 8 (ring + log2 * 2 ^ 8 + ceil * 2 ^ 16 + ogrp * 2 ^ 20) ++ leBytes 8 (vec + cnt * 2 ^ 8)

/-- Strand 5's RING_CREATE of ring 3 (Table 4.5), of size 2^17, and of a ring that is being destroyed. -/
def rcJob (b : Bytes) : Job := { mk 0xF002 .firmware 0 0 b with fn := 5 }
def rcOk : Job := rcJob (rcb 0x4010000000 3 8 3 0x050 2 1)
def rcBig : Job := rcJob (rcb 0x4010000000 63 17 3 0x053 15 256)
def rcBusy : Job := rcJob (rcb 0x4010000000 63 16 3 0x053 15 256)
def upBusy : State := (up5.setJob 1 rcBusy).setRing 5 63 { ring5 with destroying := true }
def rdJob (r : Nat) : Job := { mk 0xF003 .firmware r 0 with fn := 5 }

/-- The words of Table 4.5. -/
theorem test_ring_create_block : leAt (rcb 0x4010000000 3 8 3 0x050 2 1) 8 8 = 0x05030803 ∧
    leAt (rcb 0x4010000000 3 8 3 0x050 2 1) 16 8 = 0x0102 := by decide

theorem witness_RingLifetimeCommands :
    (up5.barsOpen = true ∧ up5.fnThere 5 = true ∧ bitOf (0x80500004 : W32).toNat 31 = true ∧ (up5.page 5).admOn = false ∧
      up5.ring? 5 0 = none ∧ up5.glb.ringsOpen = true ∧ up5.ogOk 5 (fld (0x80500004 : W32).toNat 16 12) = true ∧
      (up5.strand 5).state ≠ .disabled ∧ 4 ≤ fld (0x80500004 : W32).toNat 0 5 ∧ fld (0x80500010 : W32).toNat 0 5 ≤ 16 ∧
      16 < fld (0x80500011 : W32).toNat 0 5 ∧ up5.ogOk 5 (fld (0x80530011 : W32).toNat 16 12) = true) ∧
    (((up5.setPage 5 { admCfg := 0x80500004 }).setRing 5 0 ring5).barsOpen = true ∧
      (((up5.setPage 5 { admCfg := 0x80500004 }).setRing 5 0 ring5).page 5).admOn = true ∧
      ((up5.setPage 5 { admCfg := 0x80500004 }).setRing 5 0 ring5).ring? 5 0 = some ring5) ∧
    (upBusy.ring? 5 63 = some { ring5 with destroying := true } ∧
      (upBusy.jobs.any (fun e => e.2.fn = 5 && e.2.ring = 63 && e.2.sub.isNone)) = false) ∧
    ((up5.setJob 1 rcOk).cmdJob 1 0xF002 = some rcOk ∧ (up5.setJob 1 rcOk).ringCreateError 5 rcOk.block = none) ∧
    ((up5.setJob 1 rcBig).cmdJob 1 0xF002 = some rcBig ∧ fld (leAt rcBig.block 8 8) 0 8 = 63 ∧ ringLimit 5 = 64 ∧
      fld (leAt rcBig.block 8 8) 8 5 = 17) ∧
    (upBusy.cmdJob 1 0xF002 = some rcBusy ∧ leAt rcBusy.block 8 1 = 63 ∧ fld (leAt rcBusy.block 8 8) 8 5 = 16 ∧
      leAt rcBusy.block 0 8 % 4096 = 0 ∧ upBusy.ogOk 5 (fld (leAt rcBusy.block 8 8) 20 12) = true ∧
      (irqFields (leAt rcBusy.block 16 8)).vec = 15 ∧ vecLimit 5 = 16 ∧ (irqFields (leAt rcBusy.block 16 8)).cnt = 256 ∧
      fld (leAt rcBusy.block 8 8) 18 2 = 0) ∧
    ((up5.setJob 1 (rdJob 63)).cmdJob 1 0xF003 = some (rdJob 63) ∧ (rdJob 63).destroyFn = 5 ∧
      (up5.setJob 1 (rdJob 63)).ring? 5 63 = none ∧
      ((up5.setJob 1 (rdJob 63)).setRing 5 63 ring5).ring? 5 63 = some ring5 ∧ ring5.destroying = false) := by
  decide

theorem test_ring_create : ok (exec (.ringCreate 1) (up5.setJob 1 rcOk)) (fun t => ended t 1 0 0 &&
      (t.ring? 5 3).map (fun g => (g.base, g.log2, g.ceil, g.ogrp, g.vec, g.cnt)) = some (0x4010000000, 8, 3, 0x050, 2, 1)) = true ∧
    ok (exec (.ringCreate 1) (up5.setJob 1 rcBig)) (fun t => ended t 1 2 0x0102) = true ∧
    ok (exec (.ringCreate 1) upBusy) (fun t => ended t 1 0x0F 0x0101) = true := by decide

theorem test_ring_destroy : ok (exec (.ringDestroy 1) (up5.setJob 1 (rdJob 63))) (fun t => ended t 1 0x0B 0x0102) = true ∧
    ok (exec (.ringTeardownEnd 5 63) upBusy) (fun t => t.ring? 5 63 = none) = true ∧
    ok (exec (.admCfgEnable 5 0x80500006) up5) (fun t => (t.ring? 5 0).map (·.log2) = some 6) = true := by decide

/-- CAP_QUERY, two TRACE_CTRL jobs, and a trace record that waits for its entry. -/
def capJob : Job := mk 0xF001 .firmware 0 64
def trcJob (m : Nat) : Job := mk 0xF501 .firmware 0 0 (leBytes 8 (1 + m * 2 ^ 32))
def upMir : State := { upR with trc := { upR.trc with mirQ := [[1, 2, 3, 4]], mirrorRing := 1 } }

theorem witness_QueryAndTraceCommands :
    ((upJ capJob).cmdJob 1 0xF001 = some capJob ∧ 64 ≤ capJob.outCap) ∧
    ((upJ (trcJob 31)).cmdJob 1 0xF501 = some (trcJob 31) ∧ fld (leAt (trcJob 31).block 0 8) 32 32 = 31 ∧
      bitOf (leAt (trcJob 31).block 0 8) 1 = false ∧ bitOf (leAt (trcJob 31).block 0 8) 2 = false) ∧
    ((upJ (trcJob 32)).cmdJob 1 0xF501 = some (trcJob 32) ∧ fld (leAt (trcJob 32).block 0 8) 32 32 = 32) ∧
    (upMir.trc.mirQ = [[1, 2, 3, 4]] ∧ upMir.ring? 0 upMir.trc.mirrorRing = some ring16 ∧ ring16.cnt = 1 ∧
      upMir.masked 0 ring16.vec = true) := by decide

theorem test_trace_ctrl : ok (exec (.traceCtrl 1) (upJ (trcJob 31))) (fun t => t.trc.enable && t.trc.mask = 31) = true ∧
    ok (exec (.traceCtrl 1) (upJ (trcJob 32))) (fun t => ended t 1 2 4) = true := by decide

/-! ## The pipeline -/

/-- MODMUL of three one-word numbers at S3: modulus 97, 5 times 6; on the manager's ring 1. -/
def mulIn : Bytes := leBytes 8 97 ++ leBytes 8 5 ++ leBytes 8 6
def mulS3 : Job := { mk 0x7120 .s3 1 8 mulIn with ring := 1, input := none }
def mulBad : Job := { mulS3 with words := [0, 0, BitVec.ofNat 64 (7 * 2 ^ 32 + 24), 0, 0, BitVec.ofNat 64 (1 * 2 ^ 32)] }
def drainS3 : Job := mk 0xF201 .s3 0 0
/-- An applet image with one record, and a call of it. -/
def img1 : AppletImg := { aver := 1, recs := [{ start := 0, entries := 1, forerunner := false, tlim := 1000 }], code := [] }
def callS3 : Job := { mk 0xA000 .s3 0 8 with ring := 1 }
def upCall : State := { upJ callS3 with crx := { (upJ callS3).crx with img := some img1 } }

theorem witness_AdmissionCommands :
    ((upJ mulBad).job? 1 = some mulBad ∧ (upJ mulBad).live = true ∧ mulBad.stage = .s3 ∧ mulBad.checked = false ∧ mulBad.fetching = false ∧
      (upJ mulBad).isNext 1 mulBad = true ∧ mulBad.opClass ≠ 10 ∧ (upJ mulBad).verdict 1 mulBad = .refuse 2 3 8) ∧
    ((upJ drainS3).job? 1 = some drainS3 ∧ drainS3.stage = .s3 ∧ (upJ drainS3).isNext 1 drainS3 = true ∧
      drainS3.opClass = 15 ∧ (upJ drainS3).lateNow drainS3 = false ∧ (upJ drainS3).verdict 1 drainS3 = .go none) ∧
    ((upJ mulS3).job? 1 = some mulS3 ∧ (upJ mulS3).isNext 1 mulS3 = true ∧ mulS3.opClass = 7 ∧
      (upJ mulS3).verdict 1 mulS3 = .go none ∧ (upJ mulS3).dealTarget { mulS3 with key := none } = .creel 0 0) ∧
    (upCall.job? 1 = some callS3 ∧ upCall.isNext 1 callS3 = true ∧ callS3.opClass = 10 ∧
      upCall.verdict 1 callS3 = .go none) := by decide

/-- R71: a result above the host's buffer ends with INPUT 0x0003 and the size needed. -/
theorem test_admit : ok (exec (.admitStep 1 .decide) (upJ mulBad)) (fun t => ended t 1 2 3 &&
      ((t.job? 1).map (·.resLen)) = some 8) = true ∧
    ok (exec (.admitStep 1 .decide) (upJ mulS3)) (fun t => (t.creel 0 0).deque = [1]) = true := by decide

/-- The same job in its deque, claimed, staged, computing, and past its deadline. -/
def mulDq : Job := { mulS3 with stage := .deque 0 0, checked := true }
def upDq : State := (upJ mulDq).setCreel 0 0 { (up.creel 0 0) with deque := [1] }
def mulLate : Job := { mulDq with deadline := some 0 }
/-- The deque of another creel of the frame, of another frame, and an idle spindle beside them; the carder busy. -/
def upNear : State := (up.setJob 1 { mulDq with stage := .deque 0 1 }).setCreel 0 1 { (up.creel 0 1) with deque := [1, 1, 1] }
def upFar : State := ((up.setJob 1 { mulDq with stage := .deque 1 1, opcode := 0x1111 }).setCreel 1 1 { (up.creel 1 1) with
  deque := [1, 1, 1] }).setFrame 0 { (up.frame 0) with cfg := 0x00002001 + 0x100 }
def heldDq : Job := { mulDq with mask := 1, thief := some (0, 0, 12) }
def upTaken : State := (upJ heldDq).setCreel 0 0 { (up.creel 0 0) with deque := [1], maskHeld := true }
def auxS4 : Job := { mulS3 with stage := .s4, words := mulS3.words.set 5 (BitVec.ofNat 64 (2 ^ 32 + 2)) }
def upLate : State := (upJ mulLate).setCreel 0 0 { (up.creel 0 0) with deque := [1] }
def mulS4 : Job := { mulS3 with stage := .s4, checked := true, place := some (0, 0), carder := true, bank := some 3 }
def mulS4ok : Job := { mulS4 with input := some mulIn }
def mulS5 : Job := { mulS4ok with stage := .s5 }

theorem witness_ClaimAndStageCommands :
    (upDq.live = true ∧ upDq.idle 0 0 12 = true ∧ upDq.ownPick 0 0 12 = some 1) ∧
    (upLate.job? 1 = some mulLate ∧ mulLate.stage = .deque 0 0 ∧ upLate.lateNow mulLate = true) ∧
    (upDq.job? 1 = some mulDq ∧ mulDq.stage = .deque 0 0 ∧ upDq.lateNow mulDq = false ∧
      upDq.claimUnit 1 mulDq 0 0 = some 12 ∧ (upDq.claim 1 0 0 12).isSome = true ∧
      upDq.firstAdmitted (1 :: ([] : List Nat).filter (upDq.contends mulDq 0 0 12)) = some 1) ∧
    (upNear.live = true ∧ upNear.idle 0 0 12 = true ∧ upNear.ownPick 0 0 12 = none ∧ upNear.nearVictim 0 0 12 = some 1 ∧
      upFar.ownPick 0 0 3 = none ∧ upFar.idle 0 0 3 = true ∧ upFar.nearVictim 0 0 3 = none ∧ upFar.farPick 0 0 3 = some (1, 1) ∧
      up.idle 0 0 12 = true ∧ up.ownPick 0 0 12 = none ∧ up.nearVictim 0 0 12 = none ∧ up.farPick 0 0 12 = none) ∧
    (upTaken.job? 1 = some heldDq ∧ heldDq.stage = .deque 0 0 ∧ upTaken.lateNow heldDq = false ∧
      upTaken.claimUnit 1 heldDq 0 0 = some 12 ∧ (upTaken.claim 1 0 0 12).isNone = true) ∧
    ((upJ auxS4).job? 1 = some auxS4 ∧ auxS4.stage = .s4 ∧ auxS4.aux = none ∧ auxS4.auxLen = 2) ∧
    ((upJ mulS4).job? 1 = some mulS4 ∧ mulS4.stage = .s4 ∧ mulS4.input = none ∧ mulS4.inLen = 24 ∧ mulIn.length = 24) ∧
    ((upJ mulS5).job? 1 = some mulS5 ∧ mulS5.stage = .s5 ∧ mulS5.place = some (0, 0) ∧ mulS5.bank = some 3) := by decide

theorem test_claim : ok (exec (.stageInClaim 1 []) upDq) (fun t => ((t.job? 1).map (fun y => (y.stage, y.carder))) =
      some (.s4, true) && (t.creel 0 0).deque = [] && (t.unit 0 0 12).job = some 1) = true ∧
    ok (exec (.stageInClaim 1 []) upLate) (fun t => ended t 1 5 1) = true := by decide

/-- R71, Table 3.7: a short read of the input is DMA 1, a time-out DMA 6. -/
theorem test_stage_in : ok (exec (.dmaReadCompletion 1 .input .ok 0 [1]) (upJ mulS4)) (fun t => ended t 1 6 1) = true ∧
    ok (exec (.dmaReadCompletion 1 .input .timeout 1 []) (upJ mulS4)) (fun t => ended t 1 6 6) = true := by decide

/-- A finished job, a fan-out of one spindle, and a frame with 32 jobs in S6. -/
def fanJob : Job := { mk 0x2112 .s5 0 3309 [1] with
  fan := [{ spn := 2, attempt := some (acceptedAttempt (mk 0x2112 .s5 0 3309 [1])), accepted := false }], spns := [2] }
def mulDone : Job := { mulS5 with stage := .ended, result := leBytes 8 30, resLen := 8 }
def rawDone : Job := { mulDone with sub := some (3, 1) }
def upFull : State := (List.range 32).foldl (fun s i => s.setJob (i + 2) { mulDone with stage := .s6, result := [] }) (upJ mulDone)

theorem witness_ComputeCommands :
    ((upJ mulS4ok).job? 1 = some mulS4ok ∧ (upJ mulS4ok).live = true ∧ mulS4ok.stage = .s4 ∧ mulS4ok.checked = true ∧
      mulS4ok.staged = true ∧ (upJ mulS4ok).lateNow mulS4ok = false ∧
      (upJ { mulS4ok with deadline := some 0 }).lateNow { mulS4ok with deadline := some 0 } = true ∧ mulS4ok.key = none ∧
      drawsOf mulS4ok none = 0 ∧ mulS4ok.opClass ≠ 9 ∧ opCheck mulS4ok none = none ∧ assignsIndex mulS4ok = false ∧
      (upJ mulS4ok).bankLent mulS4ok = false ∧ hashes mulS4ok = false) ∧
    ((upJ fanJob).job? 1 = some fanJob ∧ fanJob.stage = .s5 ∧ fanJob.winner = none ∧
      fanJob.fan = [{ spn := 2, attempt := some (acceptedAttempt fanJob), accepted := false }]) ∧
    ((upJ mulDone).job? 1 = some mulDone ∧ mulDone.stage = .ended ∧ (upJ mulDone).live = true ∧
      (upJ mulDone).inS6 ((upJ mulDone).sealFrame mulDone) < 32 ∧
      (upJ mulDone).retireUsed ((upJ mulDone).sealFrame mulDone) + mulDone.result.length ≤ 2 ^ 26 ∧
      upFull.inS6 (upFull.sealFrame mulDone) = 32 ∧ upFull.job? 1 = some mulDone ∧
      ¬ (mulDone.fam = 0x2A ∧ mulDone.opOp = 1 ∧ mulDone.major = 0 ∧ mulDone.hashed = 1) ∧ ¬ (mulDone.opClass = 7 ∧ mulDone.sub.isSome) ∧
      (rawDone.stage = .ended ∧ rawDone.opClass = 7 ∧ rawDone.sub.isSome ∧ rawDone.fam ≠ 0x2A)) :=
  ⟨by decide, ⟨rfl, rfl, rfl, rfl⟩, by decide⟩

/-- R204: a raw job of an applet goes back to its core without S6. -/
theorem test_raw_done : ok (exec (.evDone 1 false) (upJ rawDone)) (fun t => (t.job? 1).map (·.stage) = some .s7wait) = true := by decide

/-- Which attempt is accepted is the algorithm's (log 3): where it is not the first, a spindle goes on with the next. -/
def fanJob0 : Job := { fanJob with fan := [{ spn := 2, attempt := some 0, accepted := false }], nextAttempt := 1 }
theorem witness_attempt (h : 0 < acceptedAttempt fanJob0) : (upJ fanJob0).job? 1 = some fanJob0 ∧ fanJob0.stage = .s5 ∧
    fanJob0.winner = none ∧ fanJob0.fan = [{ spn := 2, attempt := some 0, accepted := false }] ∧ 0 < acceptedAttempt fanJob0 ∧
    fanJob0.nextAttempt < 1000 := ⟨rfl, rfl, rfl, rfl, h, by decide⟩

theorem test_compute : ok (exec (.computeStart 1) (upJ mulS4ok)) (fun t => (t.job? 1).map (·.stage) = some .s5) = true ∧
    ok (exec (.evDone 1 false) (upJ mulDone)) (fun t => ended t 1 0 0) = true ∧
    ok (exec (.evDone 1 false) upFull) (fun t => (t.job? 1).map (·.stage) = some .ended) = true := by decide

/-- In S6 with room for the result and without; sealed; held; the write-back's last steps. -/
def mulS6 : Job := { mulDone with stage := .s6 }
def mulS6short : Job := { mulS6 with words := [0, 0, BitVec.ofNat 64 (7 * 2 ^ 32 + 24), 0, 0, BitVec.ofNat 64 (2 ^ 32)] }
def earlyJob : Job := { mulBad with stage := .s7wait, early := true, major := 2, detail := 3, resLen := 8 }
def heldJob : Job := { earlyJob with stamp := some 1, order := true }
def upEarly : State := upR.setJob 1 earlyJob
def s7Job (k : Nat) (due : List HostWait) : Job := { earlyJob with stage := .s7 k, due := due }

theorem witness_SealAndRetireCommands :
    ((upJ mulS6).job? 1 = some mulS6 ∧ mulS6.stage = .s6 ∧ mulS6.admitted = none ∧ mulS6.selfVerify = false ∧ mulS6.major = 0 ∧
      streams mulS6 = false ∧ mulS6.result.length = mulS6.outCap ∧ mulS6short.result.length = mulS6short.outCap + 1 ∧
      mulS6short.stage = .s6 ∧ streams mulS6short = false) ∧
    ((upJ heldJob).job? 1 = some heldJob ∧ heldJob.stage = .s7wait ∧ heldJob.sub = none ∧ heldJob.admitted = none ∧
      (upJ heldJob).myTurn heldJob = false) ∧
    (upEarly.job? 1 = some earlyJob ∧ earlyJob.stage = .s7wait ∧ earlyJob.sub = none ∧ upEarly.myTurn earlyJob = true ∧
      upEarly.inS7 (upEarly.sealFrame earlyJob) < 64 ∧ upEarly.releasedWaits (upEarly.sealFrame earlyJob) 1 = false ∧
      streams earlyJob = false ∧ earlyJob.early = true ∧ earlyJob.result = [] ∧ earlyJob.n = 1) ∧
    ((upR.setJob 1 (s7Job 4 [.entry 0])).job? 1 = some (s7Job 4 [.entry 0]) ∧ (s7Job 4 [.entry 0]).stage = .s7 4 ∧ (s7Job 4 [.entry 0]).due = [.entry 0]) ∧
    (upR.ring? 0 1 = some ring16 ∧ ring16.destroying = false ∧ upR.glb.halted = false) ∧
    ((s7Job 1 [.data 0 8, .data 8 8]).stage = .s7 1 ∧ (1 : Nat) < (s7Job 1 [.data 0 8, .data 8 8]).due.length ∧
      (∀ d ∈ (s7Job 1 [.data 0 8, .data 8 8]).due, d.isBit = false)) ∧
    ((upR.setJob 1 (s7Job 2 [.bitRead 64 3])).job? 1 = some (s7Job 2 [.bitRead 64 3])) := by decide

/-- R487: a bitmap word is read, and then written. -/
theorem test_dirty_bits : ok (exec (.hostWriteAck 1 .ok 0) (upR.setJob 1 (s7Job 2 [.bitRead 64 3]))) (fun t =>
      t.host.out = [.dlogOr 64 3] && (t.job? 1).map (·.due) = some [.bitWrite 64 3 true]) = true ∧
    ok (exec (.hostWriteAck 1 .ok 1) (upR.setJob 1 (s7Job 1 [.data 0 8, .data 8 8]))) (fun t =>
      t.host.out = [] && (t.job? 1).map (·.due) = some [.data 0 8]) = true := by decide

/-- R77: word 7 goes out first, word 0 after its acknowledgement, to BASE plus 64 times the slot. -/
theorem test_write_back : ok (exec (.retire 1) upEarly) (fun t => t.host.out = [.write 0 (0x40000000 + 56) (leBytes 8 8)]) = true ∧
    ok (exec (.hostWriteAck 1 .ok 0) (upR.setJob 1 (s7Job 4 [.entry 0]))) (fun t =>
      t.host.out = [.write 0 0x40000000 (leBytes 8 (completionWord (s7Job 4 [.entry 0]) true true).toNat)]) = true := by decide

theorem test_seal : ok (exec (.seal 1 false false) (upJ mulS6)) (fun t => (t.job? 1).map (fun y => (y.stage, y.major, y.resLen)) =
      some (.s7wait, 0, 8)) = true ∧
    ok (exec (.hostWriteAck 1 .error 0) (upR.setJob 1 (s7Job 4 [.entry 0]))) (fun t => t.job? 1 = none && t.glb.halted) = true := by decide

/-! ## Waits, machine checks, power -/

/-- A held job that waits for the turn of one that waits for the carder that the first holds (R338), 2 ms after the boot. -/
def wfHeld : Job := { heldJob with stage := .held, admitted := some 1, since := 2000 }
def wfFirst : Job := { mulDq with order := true, stamp := some 0, admitted := some 0, since := 1 }
def upWf : State := { (((up.setJob 1 wfFirst).setJob 2 wfHeld).setUnit 0 0 12 { (up.unit 0 0 12) with job := some 2 }).setCreel 0 0
    { (up.creel 0 0) with deque := [1] } with
  glb := { up.glb with ptcBoot := 2000 }
  admissions := 2 }
def drainWait : Job := { mk 0xF201 .firmware 0 0 with phase := 1, deadline := some 0 }
def waitJob (w : Wait) : Job := { mulS3 with stage := .waiting w, deadline := some 0 }
/-- A primary that takes no record, for a job that waits for an index commit. -/
def upFullPort : State := (upJ (waitJob .index)).setPort .a { state := 6, session := true, role := 1, ro := true }
/-- A spindle with a warm key, idle since 0; WARM_TMO is 100 µs. -/
def upWarm : State := up.setUnit 0 0 11 { (up.unit 0 0 11) with warm := some (3, 1), idleAt := 0 }
def upWarm100 : State := { upWarm with glb := { upWarm.glb with ptcBoot := 100 } }
def upWarm99 : State := { upWarm with glb := { upWarm.glb with ptcBoot := 99 } }

theorem witness_WaitCommands :
    ((upJ (waitJob .token)).job? 1 = some (waitJob .token) ∧ (upJ (waitJob .token)).lateNow (waitJob .token) = true ∧
      (waitJob .token).stage = .waiting .token ∧ (waitJob .inflight).stage = .waiting .inflight ∧
      (upJ (waitJob .index)).lateNow (waitJob .index) = true ∧ up.primaryOpen = false ∧
      upFullPort.lateNow (waitJob .index) = true ∧ upFullPort.primaryOpen = true ∧ upFullPort.primaryWritable = false ∧
      (upJ (waitJob .randomness)).lateNow (waitJob .randomness) = true) ∧
    ((upJ drainWait).job? 1 = some drainWait ∧ (upJ drainWait).lateNow drainWait = true ∧ drainWait.stage = .firmware ∧
      drainWait.phase = 1 ∧ (upJ drainWait).glb.drainWaiters.contains 1 = false) ∧
    ((upJ { waitJob .token with deadline := some 1 }).lateNow { waitJob .token with deadline := some 1 } = false) ∧
    up.barsOpen = true ∧ up.scanned = [] ∧
    (upWf.scanned = [1] ∧ upWf.youngest (upWf.cycleOf 1) = some 2 ∧ upWf.job? 2 = some wfHeld ∧ (upWf.cycleOf 1).length = 2 ∧
      (upWf.rollback 2 2).youngest ((upWf.rollback 2 2).cycleOf 1) = none) ∧
    ((upWarm100.unit 0 0 11).job = none ∧ (upWarm100.unit 0 0 11).warm ≠ none ∧
      (upWarm100.unit 0 0 11).idleAt + fld (upWarm100.creel 0 0).ctl.toNat 16 16 = upWarm100.now ∧
      upWarm99.now < (upWarm99.unit 0 0 11).idleAt + fld (upWarm99.creel 0 0).ctl.toNat 16 16) := by decide

theorem test_waits : ok (exec (.deadlineExpiry 1) (upJ (waitJob .token))) (fun t => ended t 1 5 1) = true ∧
    ok (exec (.deadlineExpiry 1) (upJ (waitJob .randomness))) (fun t => ended t 1 4 0x0A02) = true ∧
    ok (exec .waitForScan upWf) (fun t => (t.job? 2).map (fun y => (y.stage, y.fRetried)) = some (.s3, true) &&
      t.hdl.cntRollback = 1) = true ∧
    ok (exec (.warmKeyTimeout 0 0 11) upWarm100) (fun t => (t.unit 0 0 11).warm = none) = true := by decide

/-- A spindle that computes job 1, which has met one machine check; the same for a CUSTOM job. -/
def mchkJob : Job := { mulS5 with mchk := 1 }
def upMchk : State := (upJ mchkJob).setUnit 0 0 12 { (up.unit 0 0 12) with job := some 1, busy := true }
def custJob : Job := mk 0x9001 .s5 0 64 [1, 2, 3]
def custEntry : RtnEntry := { addr := 3600, foot8 := false, key := false, ktype := 0, ops := 0, inMax := 65536, auxMax := 16384
                              outMax := 32768, base := 4, slope := 256 }
def custImg : RtnImg := { cver := 1, micro := [], nano := [], entries := [custEntry] }
def upCust : State := { ((upJ custJob).setUnit 0 0 4 { (up.unit 0 0 4) with
  job := some 1, busy := true, micro := { on := true, pc := 3600, cycles := 4353 } }) with
    mcs := { up.mcs with cust := some custImg } }
def upRec : State := up.setUnit 0 0 0 { (up.unit 0 0 0) with recovering := some 4 }
/-- A cap of 100 W. -/
def upCap : State := { up with cap := { up.cap with cap := 100 } }
def upGate : State := { up with cap := { up.cap with gated := true, above := true } }

theorem witness_MachineCheckAndPowerCommands :
    (up.live = true ∧ causeSuits 0 1 = true ∧ (up.unit 0 0 0).recovering = none ∧ (up.unit 0 0 0).job = none) ∧
    (upMchk.live = true ∧ causeSuits 12 5 = true ∧ (upMchk.unit 0 0 12).recovering = none ∧ (upMchk.unit 0 0 12).job = some 1 ∧
      upMchk.job? 1 = some mchkJob ∧ mchkJob.mchk = 1) ∧
    (upCust.live = true ∧ (upCust.unit 0 0 4).job = some 1 ∧ upCust.job? 1 = some custJob ∧ custJob.opClass = 9 ∧
      custJob.stage = .s5 ∧ custJob.watchdogBound custEntry = 4352 ∧ (upCust.unit 0 0 4).micro.cycles = 4353 ∧
      (upCust.unit 0 0 4).micro.wantPiece = false ∧ (upCust.unit 0 0 4).micro.stalled = false ∧
      (up.unit 0 0 4).micro.cycles ≤ 4352 ∧ (5 : Nat) ≠ 2 ∧ 4 % 16 ≠ 2) ∧
    ((upRec.unit 0 0 0).recovering = some 4) ∧
    (upCap.live = true ∧ upCap.capDw ≠ 0 ∧ upCap.capDw < 65535) ∧ (upGate.cap.gated = true ∧ upGate.cap.above = true) ∧
    ({ up with cap := { up.cap with set := 0x10 } } : State).setPoint < (up.creel 0 0).freq ∧
    ((up.creel 0 0).freq < ({ up with cap := { up.cap with set := 0x1E } } : State).setPoint ∧ up.cap.lowered = false) ∧
    up.barsOpen = true := by decide

/-- A first machine check of a job, and a gate that may open a step. -/
def upMchk0 : State := (upJ mulS5).setUnit 0 0 12 { (up.unit 0 0 12) with job := some 1, busy := true }
def upClear : State := { up with cap := { up.cap with gated := true, above := false, gateClear := 10, gateN := 10 } }
theorem witness_machine_check : upMchk0.live = true ∧ (upMchk0.unit 0 0 12).recovering = none ∧
    (upMchk0.unit 0 0 12).job = some 1 ∧ upMchk0.job? 1 = some mulS5 ∧ mulS5.mchk = 0 ∧ upClear.cap.gated = true ∧
    upClear.cap.above = false ∧ 10 ≤ upClear.cap.gateClear ∧ upClear.cap.gateN ≤ 10 := by decide

theorem witness_watchdog_entry : upCust.customEntry custJob = some custEntry := rfl

/-- The worked example of chapter 9: 200 bytes give 5,120 cycles. -/
theorem test_watchdog : (mk 0x9001 .s5 0 64 (zeros 200)).watchdogBound custEntry = 5120 ∧
    ok (exec (.watchdogExpiry 0 0 4) upCust) (fun t => (t.unit 0 0 4).recovering = some 4) = true := by decide
theorem test_machine_check : ok (exec (.machineCheck 0 0 12 5) upMchk) (fun t => ended t 1 9 0x0401 &&
      (t.unit 0 0 12).recovering = some 5) = true ∧
    ok (exec (.cappingInterval 65535 500) upCap) (fun t => (t.creel 3 10).freq = 24 && t.glb.mode = 0x66) = true ∧
    ok (exec (.pwrCrlSetWrite 0xFFFFFFFF) up) (fun t => t.cap.set = 0x1F) = true := by decide

/-! ## Keys -/

/-- A policy block (Table 5.4): OPS, FLAGS, MASK, no expiry. -/
def polB (ops flags mask : Nat) : Bytes :=
  leBytes 2 ops ++ leBytes 2 flags ++ leBytes 1 mask ++ zeros 3 ++ zeros 8 ++ leBytes 4 0 ++ leBytes 4 0xFFFFFFFF ++ zeros 8

/-- A key-encryption key of the manager at index 5, exportable, and an AES-256 key at index 6. -/
def kek : KeyObj := { uid := 1, type := 0x07, mat := zeros 32, len := 32, policy := policyOf (polB 0x3FF 1 1), opened := true }
def aesKey : KeyObj := { kek with uid := 2, type := 0x03 }
def plainKey : KeyObj := { kek with uid := 3, policy := policyOf (polB 0x3FF 0 1) }
def hssKey : KeyObj := { kek with uid := 4, type := 0x40, mat := zeros 64 }
def upK : State := { (((up.setKey 5 kek).setKey 6 aesKey).setKey 7 plainKey).setKey 8 hssKey with
  glb := { up.glb with root := true }
  vigil := { up.vigil with nonce := some (zeros 32), valid := true } }
/-- A need of nothing but the seal island is always met. -/
theorem ready_seal (s : State) (x : Job) : s.UnitsReady x .seal := .inl ⟨rfl, rfl⟩

/-- A class 5 job with its key, at firmware. -/
def kj (op slot : Nat) (k : KeyObj) (param cap : Nat) (inp aux : Bytes := []) : Job :=
  { mk op .firmware param cap inp aux with ring := 1, key := some (slot, k) }

/-- KEY_GENERATE of a key-encryption key; KEY_LOAD_PUBLIC of an SLH-DSA key. -/
def genJob : Job := { mk 0x5001 .firmware 0x07 8 (polB 0x3FF 1 1) with ring := 1 }
def loadJob : Job := { mk 0x5002 .firmware 0xB0 4 (zeros 32) (polB 0x002 0 0) with ring := 1 }
def upGen : State := upK.setJob 1 genJob
def upLoad : State := upK.setJob 1 loadJob
def isOk {α β : Type} (e : Except α β) : Bool := match e with | .ok _ => true | .error _ => false

theorem isOk_exists {α β γ : Type} {e : Except α (β × γ)} (h : isOk e = true) : ∃ b c, e = .ok (b, c) := by
  cases e with
  | error => cases h
  | ok p => exact ⟨p.1, p.2, rfl⟩

theorem witness_CreationTakesFreeSlot : isOk (upK.createKey 0 kek) = true ∧ isOk (up5.createKey 5 kek) = true := by decide

/-- R488: the lowest free slot; slots 5 to 8 are taken, index 0 is the device-wrap key's. -/
theorem test_lowest_slot : (match upK.createKey 0 kek with | .ok (_, n) => n = 1 | .error _ => false) = true ∧
    (match up5.createKey 5 kek with | .ok (_, n) => n = 5 * 262144 + 1 | .error _ => false) = true := by decide

def genMat : Bytes := newMaterial (genType genJob) (genParam genJob) genJob.rnd
def genPub : Bytes := pubOf (genType genJob) (genParam genJob) genMat
/-- The state in which the units of its generation have done their part. -/
def genOn : State := upGen.generateOn 1 genJob (genType genJob) (genParam genJob) (policyOf genJob.block).mask id

theorem witness_generate : upGen.cmdJob 1 0x5001 = some genJob ∧ genJob.phase = 0 ∧ genBlockErr genJob = none ∧
    keyCmdOut genJob none ≤ genJob.outCap ∧ pctOk (genType genJob) genMat genPub = true ∧ 8 + genPub.length ≤ genJob.outCap :=
  by decide
theorem witness_generate_on : upGen.UnitsReady genJob (genNeed genJob (genType genJob) (policyOf genJob.block).mask) ∧
    isOk (genOn.createKey genJob.fn { mkKey (genType genJob) (genParam genJob) (policyOf genJob.block) genMat genPub with
      tree := if stateful (genType genJob) then some 0 else none }) = true := ⟨.inl ⟨by decide, by decide⟩, by decide⟩

/-- An ML-KEM generation, which needs a spindle; a block with a reserved bit; an output buffer that is too short. -/
def genKem : Job := { mk 0x5001 .firmware 0x11 2000 (polB 0x002 1 1) with ring := 1 }
def genBad : Job := { mk 0x5001 .firmware 0x07 8 (polB 0x7FF 1 1) with ring := 1 }
def genShort : Job := { mk 0x5001 .firmware 0x07 7 (polB 0x3FF 1 1) with ring := 1 }
def upMask : State := (upK.setJob 1 genKem).setCreel 0 0 { (upK.creel 0 0) with maskSeed := [1] }
def kemNeed : FirmNeed := genNeed genKem (genType genKem) (policyOf genKem.block).mask
theorem witness_generate_spindle : upMask.cmdJob 1 0x5001 = some genKem ∧ genBlockErr genKem = none ∧
    keyCmdOut genKem none ≤ genKem.outCap ∧ kemNeed.spindle = true ∧
    ((List.range 4).map (fun i => (upMask.homeOf genKem + i) % 4)).find? (upMask.firmFrame kemNeed) =
      some 0 ∧ (0, 0) ∈ upMask.firmUnits kemNeed 0 := by decide
theorem witness_generate_errors : (upK.setJob 1 genBad).cmdJob 1 0x5001 = some genBad ∧ genBlockErr genBad = some (3, 0x0109) ∧
    (upK.setJob 1 genShort).cmdJob 1 0x5001 = some genShort ∧ genBlockErr genShort = none ∧
    genShort.outCap < keyCmdOut genShort none := by decide

theorem witness_load : upLoad.cmdJob 1 0x5002 = some loadJob ∧ loadJob.phase = 0 ∧ 4 ≤ loadJob.outCap ∧
    pubKeyErr (fld loadJob.param 0 8) loadJob.block = none ∧
    ¬(baseType (fld loadJob.param 0 8) = 0x40 ∧ lmsM (hssPubLms loadJob.block) = 24) ∧ policyClean loadJob.auxData = true ∧
    (policyOf loadJob.auxData).refused (fld loadJob.param 0 8) ((pubParam (fld loadJob.param 0 8) loadJob.block).getD 0 0) = false ∧
    (policyOf loadJob.auxData).flag polPersist = false ∧
    isOk (upLoad.createKey loadJob.fn (mkKey (fld loadJob.param 0 8) (pubParam (fld loadJob.param 0 8) loadJob.block)
      (policyOf loadJob.auxData) loadJob.block loadJob.block)) = true := by decide

/-- A device blob of an AES-256 key under the key at index 5, as far as the spec gives its bytes; the ciphertext is arbitrary. -/
def blobHead : Bytes := [0x41, 0x4B, 0x31, 0x42, 1, 0x03, 0, 0] ++ leBytes 4 32
def aBlob : Bytes := blobHead ++ kcvOf 0x07 kek.mat ++ zeros 1 ++ polB 0x001 1 1 ++ zeros 12 ++ zeros 4 ++ zeros 48
def unwrapJob : Job := kj 0x5003 5 kek 0 4 aBlob
def badBlobJob : Job := kj 0x5003 5 kek 0 4 (zeros 112)
def badImportJob : Job := kj 0x5005 5 kek 0 4 (zeros 112)

/-- Of the key that the blob holds, whatever its material: its form is one of its type, it needs no unit, and a slot is free. -/
theorem witness_unwrap_creates : kek.windowErr (upK.setJob 1 unwrapJob).glb.ptcLife.toNat = none ∧
    (regenType 0x03).isSome = false ∧ entryOk 0x03 (zeros 32) = true ∧
    isOk ((((upK.setJob 1 unwrapJob).unwrapOn 1 unwrapJob 0x03 32 1 id).spendUse 1).createKey 0
      (mkKey 0x03 [] (policyOf (polB 0x001 1 1)) (zeros 32) [])) = true := by decide

/-- Whether a tag is right is the algorithm's (log 3): where it is, the blob opens. -/
theorem witness_unwrap (h : Config.accepts 0x10400 [kek.mat, zeros 12, aBlob.take 64, aBlob.drop 64] = true) :
    ∃ mat, openBlob aBlob kek.mat false = .ok (0x03, [], policyOf (polB 0x001 1 1), mat) := by
  have hk : slice aBlob 0x0C 3 = kcvOf 0x07 kek.mat := rfl
  have hi : slice aBlob 0x30 12 = zeros 12 := by rfl
  refine ⟨algoBytes 0x10500 [kek.mat, zeros 12, aBlob.take 64, aBlob.drop 64] 32, ?_⟩
  unfold openBlob
  rw [hk, hi]
  dsimp only
  rw [if_neg (by decide), if_neg (by decide), if_neg (by simp)]
  unfold aeadOpen
  rw [h, if_neg (by decide)]
  rfl

/-- An import package of an AES-256 key to an ML-KEM-768 key, its ciphertexts arbitrary. -/
def impKey : KeyObj := { kek with uid := 6, type := 0x11, mat := zeros 8, policy := policyOf (polB 0x3FF 1 0) }
def impBlock : Bytes := [0x41, 0x4B, 0x49, 0x31, 1, 0x03, 0, 0] ++ leBytes 4 32 ++ leBytes 4 1088 ++ polB 0x001 0 1 ++
  zeros 1088 ++ zeros 40
def importJob : Job := kj 0x5005 9 impKey 0 4 impBlock
def impKwp : Bytes := kwpKey (mlkemShared impKey.type impKey.mat (slice impBlock 0x30 1088)) impBlock
def impOut : Bytes := algoBytes 0x10502 [impKwp, [], [], impBlock.drop (0x30 + 1088)] 32
def upImp : State := (upK.setKey 9 impKey).setJob 1 importJob

/-- The recipient's window is open, a spindle is idle in the job's home frame, and a slot is free. -/
def impNeed : FirmNeed :=
  { mask := impKey.policy.mask, warm := if impKey.sizes.cached ≤ 16384 then some (9, impKey.uid) else none }
theorem witness_import_units : upImp.cmdJob 1 0x5005 = some importJob ∧
    impKey.windowErr upImp.glb.ptcLife.toNat = none ∧ (0, 0) ∈ upImp.firmUnits impNeed 0 ∧
    ((List.range 4).map (fun i => (upImp.homeOf importJob + i) % 4)).find? (upImp.firmFrame impNeed) = some 0 := by decide
theorem witness_import_creates : isOk (((upImp.onUnits 1 importJob impNeed
      (fun s => (atOrder impKey.policy.mask (decapsCycles impKey.type) + s.freeNum.1, s.freeNum.2)) id).spendUse 1).createKey 0
    (mkKey 0x03 [] (policyOf (slice impBlock 0x10 32)) (zeros 32) [])) = true := by decide

/-- Whether the package's check holds is the algorithm's (log 3): where it does, the hypotheses of the import are met. -/
theorem witness_import (h : Config.accepts 0x10402 [impKwp, [], [], impBlock.drop (0x30 + 1088)] = true) :
    aeadOpen 2 impKwp [] [] (impBlock.drop (0x30 + 1088)) 8 = some impOut := by
  unfold aeadOpen
  rw [h, if_neg (by decide)]
  rfl

theorem witness_import_fields :
    ((upK.setJob 1 importJob).job? 1).map (fun x => (x.opcode, x.stage, x.phase, x.outCap)) = some (0x5005, .firmware, 0, 4) ∧
    0x30 ≤ impBlock.length ∧ leAt impBlock 0 4 = 0x31494B41 ∧ leAt impBlock 4 1 = 1 ∧ leAt impBlock 6 2 = 0 ∧
    leAt impBlock 0x0C 4 = (if impKey.type = 0x11 then 1088 else 1568) ∧ impBlock.length = 0x30 + leAt impBlock 0x0C 4 + 8 * ceilDiv (leAt impBlock 8 4) 8 + 8 ∧
    lenAllowed (leAt impBlock 5 1) (leAt impBlock 8 4) = true ∧
    formParam (leAt impBlock 5 1) (impOut.take (leAt impBlock 8 4)) = some [] ∧ policyClean (slice impBlock 0x10 32) = true ∧
    (policyOf (slice impBlock 0x10 32)).refused (leAt impBlock 5 1) 0 = false ∧
    (policyOf (slice impBlock 0x10 32)).flag polPersist = false ∧
    entryOk (leAt impBlock 5 1) (impOut.take (leAt impBlock 8 4)) = true := by decide

theorem witness_KeyCreationCommands : ((upK.setJob 1 badBlobJob).cmdJob 1 0x5003 = some badBlobJob ∧ badBlobJob.phase = 0 ∧
      badBlobJob.key = some (5, kek) ∧ leAt badBlobJob.block 0 4 ≠ 0x42314B41) ∧
    ((upK.setJob 1 badImportJob).cmdJob 1 0x5005 = some badImportJob ∧ badImportJob.phase = 0 ∧
      badImportJob.key = some (5, kek) ∧ leAt badImportJob.block 0 4 ≠ 0x31494B41) ∧
    ((upK.setJob 1 unwrapJob).job? 1 = some unwrapJob ∧ unwrapJob.phase = 0 ∧ unwrapJob.key = some (5, kek) ∧
      4 ≤ unwrapJob.outCap ∧ isDwk unwrapJob.handle = false ∧ (policyOf (polB 0x001 1 1)).flag polPersist = false) :=
  ⟨by decide, by decide, rfl, rfl, rfl, by decide, by decide, by decide⟩

theorem test_generate : ok (exec (.keyGenerate 1) upGen) (fun t => ended t 1 0 0 && (t.key? 1).map (·.type) = some 0x07 &&
      (t.job? 1).map (fun y => y.result) = some (leBytes 4 0x10 ++ zeros 4)) = true ∧
    ok (exec (.keyUnwrap 1) (upK.setJob 1 badBlobJob)) (fun t => ended t 1 2 1) = true := by decide

/-- Commands on the keys of `upK`. -/
def pubJob : Job := kj 0x5009 5 kek 0 0
def infoJob : Job := kj 0x500A 5 kek 0 128
def narrowJob : Job := kj 0x500B 5 kek 0 0 (polB 0x001 1 1)
def widenJob : Job := kj 0x500B 7 plainKey 0 0 (polB 0x3FF 1 1)
def destroyJob : Job := kj 0x5008 5 kek 0 0
def purgeJob : Job := kj 0x500C 5 kek 5 0
def uncleanJob : Job := kj 0x500B 5 kek 0 0 (polB 0x7FF 1 1)
def purge9 : Job := kj 0x500C 5 kek 9 0
/-- Strand 5 disabled with one key. -/
def upPurge : State := ((upK.setStrand 5 {}).setKey (keySlot 5 1) { aesKey with uid := 9 }).setJob 1 purgeJob

theorem witness_KeyCommands :
    ((upK.setJob 1 pubJob).cmdJob 1 0x5009 = some pubJob ∧ kek.pub.length ≤ pubJob.outCap) ∧
    ((upK.setJob 1 infoJob).cmdJob 1 0x500A = some infoJob ∧ (upK.setJob 1 infoJob).key? 5 = some kek ∧ infoJob.outCap = 128) ∧
    ((upK.setJob 1 narrowJob).cmdJob 1 0x500B = some narrowJob ∧ policyClean narrowJob.block = true ∧
      (policyOf narrowJob.block).refused kek.type (kek.param.getD 0 0) = false ∧
      (policyOf narrowJob.block).narrows kek.policy = true) ∧
    ((upK.setJob 1 widenJob).cmdJob 1 0x500B = some widenJob ∧ (upK.setJob 1 widenJob).key? 7 = some plainKey ∧
      policyClean widenJob.block = true ∧ (policyOf widenJob.block).refused plainKey.type (plainKey.param.getD 0 0) = false ∧
      (policyOf widenJob.block).narrows plainKey.policy = false) ∧
    ((upK.setJob 1 destroyJob).cmdJob 1 0x5008 = some destroyJob ∧ destroyJob.phase = 0 ∧
      (upK.setJob 1 destroyJob).key? 5 = some kek ∧ kek.policy.flag polPersist = false ∧ kek.repl = none) ∧
    ((up5.setJob 1 purgeJob).cmdJob 1 0x500C = some purgeJob ∧ purgeJob.phase = 0 ∧
      (up5.setJob 1 purgeJob).vfEnabled (fld purgeJob.param 0 10) = true ∧
      ((up5.setJob 1 purgeJob).strand (fld purgeJob.param 0 10)).state ≠ .disabled) := by decide

theorem witness_KeyCommands_refused : (upK.setJob 1 uncleanJob).cmdJob 1 0x500B = some uncleanJob ∧
    (upK.setJob 1 uncleanJob).key? 5 = some kek ∧ policyClean uncleanJob.block = false ∧
    (upK.setJob 1 purge9).cmdJob 1 0x500C = some purge9 ∧ purge9.phase = 0 ∧
    (upK.setJob 1 purge9).vfEnabled (fld purge9.param 0 10) = false := by decide

theorem witness_PurgeLeavesNoKey : upPurge.cmdJob 1 0x500C = some purgeJob ∧ purgeJob.phase = 0 ∧
    upPurge.vfEnabled (fld purgeJob.param 0 10) = true ∧ (upPurge.strand (fld purgeJob.param 0 10)).state = .disabled ∧
    (∀ e ∈ upPurge.kst.keys, e.1 / 262144 = fld purgeJob.param 0 10 → e.2.policy.flag polPersist = false) ∧
    (∀ e ∈ upPurge.kst.claimed, e.1 / 262144 ≠ fld purgeJob.param 0 10) := by decide

theorem test_destroy : ok (exec (.keyDestroy 1) (upK.setJob 1 destroyJob)) (fun t => ended t 1 0 0 && t.key? 5 = none &&
      t.kst.epoch.getD 5 0 = 1) = true ∧
    ok (exec (.keyPurge 1) upPurge) (fun t => ended t 1 0 0 && t.key? (keySlot 5 1) = none && t.key? 5 = some kek) = true := by
  decide

theorem test_policy : ok (exec (.keyPolicy 1) (upK.setJob 1 widenJob)) (fun t => ended t 1 3 0x0109) = true ∧
    ok (exec (.keyPurge 1) (up5.setJob 1 purgeJob)) (fun t => ended t 1 0x0B 0x0103) = true := by decide

/-- KEY_WRAP under the key at index 5 (handle 0x50), of a stateful key, of a key without EXPORT, and of one with it; KEY_EXPORT to
an ML-KEM-768 and an ML-KEM-1024 recipient. -/
def wrapHss : Job := kj 0x5004 8 hssKey 0x50 200
def wrapPlain : Job := kj 0x5004 7 plainKey 0x50 200
def wrapAes : Job := kj 0x5004 6 aesKey 0x50 112
def exportPlain : Job := kj 0x5006 7 plainKey 0 4000 (zeros 1568)
def exportWeak : Job := kj 0x5006 6 aesKey 0 4000 (zeros 1184)
def exportOk : Job := kj 0x5006 6 aesKey 0 1656 (zeros 1568)

theorem witness_KeyExportCommands :
    ((upK.setJob 1 wrapHss).cmdJob 1 0x5004 = some wrapHss ∧ wrapHss.key = some (8, hssKey) ∧ stateful hssKey.type = true ∧
      (match (upK.setJob 1 wrapHss).kekAt wrapHss.fn wrapHss.param 4 with | .ok p => p.1 = 5 | .error _ => false) = true) ∧
    ((upK.setJob 1 wrapPlain).cmdJob 1 0x5004 = some wrapPlain ∧ isDwk wrapPlain.param = false ∧
      plainKey.policy.flag polExport = false ∧ isOk ((upK.setJob 1 wrapPlain).kekAt wrapPlain.fn wrapPlain.param 4) = true) ∧
    ((upK.setJob 1 wrapAes).cmdJob 1 0x5004 = some wrapAes ∧ isOk ((upK.setJob 1 wrapAes).kekAt wrapAes.fn wrapAes.param 4) = true ∧
      stateful aesKey.type = false ∧ aesKey.policy.maxUses = 0 ∧ aesKey.policy.flag polExport = true ∧
      (upK.setJob 1 wrapAes).wrapsOf wrapAes.fn kek (isDwk wrapAes.param) < 2 ^ 32 ∧ kek.atHand = true ∧
      aesKey.windowErr (upK.setJob 1 wrapAes).glb.ptcLife.toNat = none ∧
      (blobOf aesKey kek.mat (zeros 12) (isDwk wrapAes.param)).length = wrapAes.outCap) ∧
    ((upK.setJob 1 exportPlain).cmdJob 1 0x5006 = some exportPlain) ∧
    ((upK.setJob 1 exportWeak).cmdJob 1 0x5006 = some exportWeak ∧ aesKey.policy.flag polExport = true ∧
      exportWeak.inLen = 1184 ∧ aesKey.category5 = true) ∧
    ((upK.setJob 1 exportOk).cmdJob 1 0x5006 = some exportOk ∧ exportOk.inLen = 1568 ∧ aesKey.windowErr (upK.setJob 1 exportOk).glb.ptcLife.toNat = none ∧
      ((List.range 4).map (fun i => ((upK.setJob 1 exportOk).homeOf exportOk + i) % 4)).find?
        ((upK.setJob 1 exportOk).firmFrame {}) = some 0 ∧ (0, 0) ∈ (upK.setJob 1 exportOk).firmUnits {} 0 ∧
      0x30 + 1568 + 8 * ceilDiv aesKey.mat.length 8 + 8 = exportOk.outCap) := by decide

/-- A key with MAX_USES; a wrapping key whose count is spent, and one whose record is on the spool, with a primary and without. -/
def useKey : KeyObj := { aesKey with policy := { aesKey.policy with maxUses := 1 } }
def spentKek : KeyObj := { kek with wraps := 2 ^ 32 }
def farKek : KeyObj := { kek with halfA := none, spoolRec := some (3, 1) }
def wrapUse : Job := kj 0x5004 6 useKey 0x50 112
def upFarKek (open_ : Bool) : State := (((upK.setKey 5 farKek).setJob 1 wrapAes).setPort .a
  { state := if open_ then 6 else 0, role := 1, session := open_ })
theorem witness_wrap_kek : (upK.setJob 1 wrapUse).cmdJob 1 0x5004 = some wrapUse ∧ useKey.policy.maxUses ≠ 0 ∧
    isOk ((upK.setJob 1 wrapUse).kekAt wrapUse.fn wrapUse.param 4) = true ∧
    isOk (((upK.setKey 5 spentKek).setJob 1 wrapAes).kekAt 0 0x50 4) = true ∧
    2 ^ 32 ≤ ((upK.setKey 5 spentKek).setJob 1 wrapAes).wrapsOf 0 spentKek (isDwk 0x50) ∧
    (∀ o : Bool, isOk ((upFarKek o).kekAt 0 0x50 4) = true ∧ (upFarKek o).wrapsOf 0 farKek (isDwk 0x50) < 2 ^ 32 ∧
      (upFarKek o).cmdJob 1 0x5004 = some wrapAes) ∧ isDwk wrapAes.param = false ∧ farKek.atHand = false ∧
    (upFarKek true).spoolHas farKek = true ∧ (upFarKek false).spoolHas farKek = false := by decide

/-- A key below category 5 to an ML-KEM-768 recipient. -/
def aes128Key : KeyObj := { kek with uid := 7, type := 0x01, mat := zeros 16, len := 16 }
def export768 : Job := kj 0x5006 6 aes128Key 0 4000 (zeros 1184)
theorem witness_export_768 : aes128Key.category5 = false ∧ export768.inLen = 1184 ∧ pubKeyErr 0x11 export768.block = none ∧
    ((upK.setKey 6 aes128Key).setJob 1 export768).cmdJob 1 0x5006 = some export768 ∧
    aes128Key.policy.flag polExport = true ∧ 0x30 + 1088 + 8 * ceilDiv aes128Key.mat.length 8 + 8 ≤ export768.outCap := by decide

/-- Every recipient key of zeros passes the modulus check of R169. -/
theorem witness_export_recipient : pubKeyErr 0x12 (zeros 1568) = none := by decide

theorem test_export : ok (exec (.keyExport 1) (upK.setJob 1 exportWeak)) (fun t => ended t 1 3 0x010E) = true ∧
    ok (exec (.keyWrap 1) (upK.setJob 1 wrapPlain)) (fun t => ended t 1 3 0x010D) = true := by decide

/-- Replacement of the AES-256 key, and the flip. -/
def replJob : Job := kj 0x5007 6 aesKey 0 8
def shadow : Replacing := { job := 1, step := 5, mat := zeros 32, pub := [], check := [] }
def upFlip : State := upK.setKey 6 { aesKey with repl := some shadow }

theorem witness_KeyReplacementCommands :
    ((upK.setJob 1 replJob).key? 6 = some aesKey ∧ (upK.setJob 1 replJob).cmdJob 1 0x5007 = some replJob ∧
      replJob.key = some (6, aesKey) ∧ replJob.param = 0 ∧ aesKey.repl = none ∧ aesKey.type < 0x10 ∧ replJob.auxLen = 0 ∧
      aesKey.policy.flag polPersist = false ∧ aesKey.policy.flag polMirror = false ∧
      aesKey.windowErr (upK.setJob 1 replJob).glb.ptcLife.toNat = none ∧ replJob.reserved = false ∧
      (upK.setJob 1 replJob).entriesOf 0 + aesKey.run ≤ (upK.setJob 1 replJob).entryQuota 0 ∧
      ((upK.setJob 1 replJob).makeRoom [aesKey.run] (upK.setJob 1 replJob).kst.keys.length).2.isSome) ∧
    (upFlip.key? 6 = some { aesKey with repl := some shadow } ∧ 6 = keySlot 0 6 ∧ shadow.step = 5 ∧
      (∀ e ∈ upFlip.kst.keys, e.1 = 6 → e.2 = { aesKey with repl := some shadow })) := by decide

/-- The replacement that its admission has begun, one that another job runs, and a key destroyed and made again since. -/
def begun (j : Nat) : KeyObj := { aesKey with repl := some { job := j, step := 0, mat := [], pub := [], check := [] } }
def upBegun (j : Nat) : State := (upK.setKey 6 (begun j)).setJob 1 replJob
theorem witness_replace : (∀ j, j ∈ [1, 2] → (upBegun j).key? 6 = some (begun j) ∧ (upBegun j).cmdJob 1 0x5007 = some replJob ∧
      (begun j).uid = aesKey.uid ∧ (begun j).type < 0x10 ∧ (begun j).policy.flag polPersist = false ∧
      ({ begun j with policy := aesKey.policy } : KeyObj).windowErr (upBegun j).glb.ptcLife.toNat = none) ∧
    entryOk aesKey.type (newMaterial aesKey.type aesKey.param replJob.rnd) = true ∧
    ((upK.setKey 6 { aesKey with uid := 99 }).setJob 1 replJob).cmdJob 1 0x5007 = some replJob ∧ aesKey.uid ≠ 99 := by decide

theorem test_flip : ok (exec (.keyActiveFlip 0 6) upFlip) (fun t => (t.key? 6).map (fun k => (k.active, k.uses, k.mat)) =
    some (true, 0, zeros 32)) = true := by decide

/-- Jobs that wait for the keys at index 6 and 9, an expiring key, and a KEY record. -/
def mlkemKey : KeyObj := { kek with uid := 5, type := 0x11, mat := zeros 8 }
def waitKey (slot : Nat) (k : KeyObj) : Job := { kj 0x1121 slot k 0 32 with stage := .waiting .cache }
def upWaitK : State := (upK.setKey 9 mlkemKey).setJob 1 (waitKey 6 aesKey)
def upWaitM : State := (upK.setKey 9 mlkemKey).setJob 1 (waitKey 9 mlkemKey)
def expKey : KeyObj := { kek with policy := { kek.policy with notAfter := 100 } }
def upExp (life : W32) : State := { upK.setKey 5 expKey with glb := { upK.glb with ptcLife := life } }
def aRecord : KeyRecord := {
  id := { recno := 3, owner := 0, kind := 1, version := 2 }
  index := 10, epoch := 15, tagOk := true, header := []
  form := zeros 32, indexRec := none }
def upReb : State := { upK with kst := { upK.kst with rebuild := true, claimed := [(10, 15)] } }

theorem witness_KeyStoreEvents :
    (upWaitK.key? (keySlot 0 6) = some aesKey ∧ upWaitK.job? 1 = some (waitKey 6 aesKey) ∧
      (waitKey 6 aesKey).key = some (keySlot 0 6, aesKey) ∧ (waitKey 6 aesKey).stage = .waiting .cache ∧
      (waitKey 6 aesKey).key2 = none ∧ (waitKey 6 aesKey).fetching = false ∧
      aesKey.inTable = true ∧ aesKey.type < 0x10) ∧
    (upWaitM.key? (keySlot 0 9) = some mlkemKey ∧ upWaitM.job? 1 = some (waitKey 9 mlkemKey) ∧
      (waitKey 9 mlkemKey).key = some (keySlot 0 9, mlkemKey) ∧ mlkemKey.inTable = true ∧ 0x10 ≤ mlkemKey.type ∧
      mlkemKey.type ≤ 0x12) ∧
    ((upExp 100).key? (keySlot 0 5) = some expKey ∧ expKey.policy.notAfter ≠ 0xFFFFFFFF ∧
      expKey.policy.notAfter = (upExp 100).glb.ptcLife.toNat) ∧
    (upK.key? (keySlot 0 5) = some kek ∧
      (upK.jobsWhere (fun x => (x.stage = .waiting .cache || x.stage = .waiting .spoolKey) && x.holds kek.uid)) = []) ∧
    (aRecord.id.owner = 0 ∧ aRecord.index = 10 ∧ upReb.kst.rebuild = true ∧
      (upReb.kst.claimed.get? (keySlot aRecord.id.owner aRecord.index)).isSome) ∧
    up.hbm.trained = true := by decide

theorem test_key_events : ok (exec (.keyExpiry 0 5) (upExp 100)) (fun t => (t.key? 5).map (·.expired) = some true) = true ∧
    ok (exec (.keyExpiry 0 5) (upExp 99)) (fun t => (t.key? 5).map (·.expired) = some false) = true ∧
    ok (exec (.keyFetchComplete 1 false) upWaitM) (fun t => ended t 1 9 0x0201) = true ∧
    ok (exec (.hbmUncorrectableError 0 5 0) upK) (fun t => (t.key? 5).map (·.unusable) = some true) = true := by decide

/-! ## Strands -/

/-- A command of the manager on strand 5. -/
def sj (op extra cap : Nat) (inp : Bytes := []) : Job := mk op .firmware (5 + extra) cap inp
def enJob : Job := sj 0xF101 0 8
def disJob : Job := sj 0xF102 0 0
/-- Strand 5 in each of its states, with a command on it as job 1. -/
def upS (st : StrandState) (x : Job) : State := (up5.setStrand 5 { (up5.strand 5) with state := st }).setJob 1 x

theorem witness_StrandStateCommands :
    ((upS .disabled enJob).vfEnabled enJob.strandNo = true ∧ (upS .disabled enJob).cmdJob 1 0xF101 = some enJob ∧
      ((upS .disabled enJob).strand enJob.strandNo).state = .disabled ∧ (upS .disabled enJob).aliases enJob.strandNo = false ∧
      8 ≤ enJob.outCap) ∧
    ((upS .stopped enJob).cmdJob 1 0xF101 = some enJob ∧ ((upS .stopped enJob).strand enJob.strandNo).state = .stopped) ∧
    ((upS .draining enJob).cmdJob 1 0xF101 = some enJob ∧ ((upS .draining enJob).strand enJob.strandNo).state = .draining) ∧
    ((upS .enabled disJob).cmdJob 1 0xF102 = some disJob ∧ ((upS .enabled disJob).strand disJob.strandNo).state = .enabled) ∧
    ((upS .disabled disJob).cmdJob 1 0xF102 = some disJob ∧ ((upS .disabled disJob).strand disJob.strandNo).state = .disabled) ∧
    (((upS .draining disJob).strand 5).state = .draining ∧ (upS .draining disJob).strandBusy 5 = false) := by decide

theorem witness_StrandStateCommands_others : enJob.fn = 0 ∧ disJob.fn = 0 ∧
    ((upS .enabled enJob).cmdJob 1 0xF101 = some enJob ∧ ((upS .enabled enJob).strand enJob.strandNo).state = .enabled) ∧
    (∀ st, st ∈ [StrandState.draining, .stopped] → (upS st disJob).cmdJob 1 0xF102 = some disJob ∧
      ((upS st disJob).strand disJob.strandNo).state = st) ∧
    (upTok.strandBusy 5 = true ∧ upTok.vfEnabled 5 = true) := by decide

/-- R304, R308: ENABLED at the next generation with a full bucket. -/
theorem test_enable : ok (exec (.strandEnable 1) (upS .disabled enJob)) (fun t => ended t 1 0 0 && (t.strand 5).gen = 2 &&
      (t.strand 5).level = 16 * 2 ^ 20) = true ∧
    ok (exec (.strandEnable 1) (upS .draining enJob)) (fun t => ended t 1 0x0F 0x0102) = true ∧
    ok (exec (.strandDrainEnd 5) (upS .draining disJob)) (fun t => (t.strand 5).state = .stopped) = true := by decide

theorem witness_StrandResets : up5.barsOpen = true ∧
    (up5.vfEnabled 5 = true ∧ (up5.strand 5).state = .enabled ∧ up5.transfers 5 = []) ∧
    ((upS .disabled disJob).barsOpen = true ∧ (upS .disabled disJob).vfEnabled 5 = true ∧
      ((upS .disabled disJob).strand 5).state = .disabled ∧ (upS .disabled disJob).transfers 5 = []) ∧
    (4 < 5 ∧ 5 ≤ up5.host.numVfs) := by decide

/-- R313: an FLR advances the generation. -/
theorem test_flr : ok (exec (.vfFlr 5) (up5.setRing 5 3 ring5)) (fun t => t.ring? 5 3 = none && (t.strand 5).state = .enabled &&
      (t.strand 5).gen = 2) = true ∧
    ok (exec (.vfEnableClear 4) up5) (fun t => t.host.numVfs = 4 && (t.strand 5).state = .disabled) = true := by decide

/-- Quota blocks (Table 4.7): in range, and RATE one above the largest. -/
def quotaB (rate : Nat) : Bytes := leBytes 2 4 ++ leBytes 1 3 ++ zeros 1 ++ leBytes 4 8 ++ leBytes 4 rate ++ leBytes 4 16 ++
  leBytes 4 64 ++ leBytes 4 16 ++ leBytes 2 0x050 ++ leBytes 2 4 ++ zeros 4
def quotaJob (rate : Nat) : Job := sj 0xF103 0 0 (quotaB rate)
/-- Dirty-log commands. -/
def dlogB (base : Nat) : Bytes := leBytes 8 base ++ leBytes 8 (2 ^ 40) ++ leBytes 8 0x5000 ++ leBytes 8 0x6000
def dlogJob (base : Nat) : Job := sj 0xF104 0 0 (dlogB base)
def swapJob : Job := sj 0xF105 0 8
def stopJob : Job := sj 0xF106 0 0
/-- A swap that has waited, and a job of the strand whose bit in bitmap 0 is still to be written. -/
def swap2 : Job := { swapJob with phase := 2 }
def stop2 : Job := { stopJob with phase := 2 }
def bitJob : Job := { mk 0x7120 (.s7 2) 1 8 with fn := 5, due := [.bitWrite 64 3 true], dlogBuf := some false }
def upDlog (x : Job) : State := (up5.setStrand 5 { (up5.strand 5) with dlogOn := true }).setJob 1 x

theorem witness_QuotaAndDirtyLogCommands :
    ((up5.setJob 1 (quotaJob 16000000)).cmdJob 1 0xF103 = some (quotaJob 16000000) ∧
      (up5.setJob 1 (quotaJob 16000000)).vfEnabled (quotaJob 16000000).strandNo = true ∧
      (up5.setJob 1 (quotaJob 16000000)).quotaErr 5 (quotaJob 16000000).block = none ∧
      (up5.setJob 1 (quotaJob 16000001)).cmdJob 1 0xF103 = some (quotaJob 16000001) ∧
      leAt (quotaJob 16000001).block 8 4 = 16000001) ∧
    ((quotaOf (quotaJob 16000001).block).inRange (quotaJob 16000001).block = false ∧ (quotaJob 5).fn = 0 ∧
      (up5.setJob 1 (quotaJob 16000001)).quotaErr 5 (quotaJob 16000001).block = some (2, 0x0108)) ∧
    (up5.live = true ∧ (up5.strand 5).quota.rate ≠ 0 ∧ (up5.strand 6).quota.rate = 0) ∧
    ((up5.setJob 1 (dlogJob 0x10000)).cmdJob 1 0xF104 = some (dlogJob 0x10000) ∧ leAt (dlogJob 0x10000).block 0 8 % 4096 = 0 ∧
      leAt (dlogJob 0x10000).block 8 8 = 2 ^ 40 ∧ leAt (dlogJob 0x10000).block 8 8 % 4096 = 0 ∧
      leAt (dlogJob 0x10000).block 16 8 % 4096 = 0 ∧ leAt (dlogJob 0x10000).block 24 8 % 4096 = 0 ∧
      (up5.setJob 1 (dlogJob 0x10001)).cmdJob 1 0xF104 = some (dlogJob 0x10001) ∧ leAt (dlogJob 0x10001).block 0 8 % 4096 = 1) ∧
    ((upDlog swapJob).cmdJob 1 0xF105 = some swapJob ∧ swapJob.phase = 0 ∧ swapJob.outCap = 8 ∧
      (upDlog swapJob).dlogDue 5 false = false ∧ ((upDlog swapJob).setJob 2 bitJob).dlogDue 5 false = true ∧
      (upDlog swap2).cmdJob 1 0xF105 = some swap2 ∧ swap2.phase = 2 ∧ (upDlog swap2).dlogDue 5 (swap2.note = 1) = false ∧
      ((upDlog swapJob).strand 5).dlogOn = true ∧ ((up5.setJob 1 swapJob).strand 5).dlogOn = false) ∧
    ((upDlog stopJob).cmdJob 1 0xF106 = some stopJob ∧ stopJob.phase = 0 ∧ ((upDlog stopJob).strand 5).dlogOn = true ∧
      (upDlog stopJob).dlogDue 5 false = false ∧ (upDlog stopJob).dlogDue 5 true = false ∧
      ((up5.setJob 1 stopJob).strand 5).dlogOn = false ∧ (upDlog stop2).cmdJob 1 0xF106 = some stop2 ∧ stop2.phase = 2 ∧
      (upDlog stop2).dlogDue 5 false = false ∧ (upDlog stop2).dlogDue 5 true = false) := by decide

/-- R308: 1,000 jobs a second are 1,048 of 2^20ths a microsecond. -/
theorem test_refill : ok (exec (.bucketRefill 5) up5) (fun t => (t.strand 5).level = 2 ^ 21 + 1048) = true ∧
    ok (exec (.strandQuota 1) (up5.setJob 1 (quotaJob 16000001))) (fun t => ended t 1 2 0x0108) = true ∧
    ok (exec (.dlogSwap 1) (upDlog swapJob)) (fun t => ended t 1 0 0 && (t.strand 5).dlogBuf) = true := by decide

/-- R93: CEIL 1 lowers the ceiling of a ring of class 3. -/
theorem test_ceiling : ok (exec (.strandQuota 1)
    ((up5.setRing 5 3 { ring5 with ceil := 3 }).setJob 1 (sj 0xF103 0 0 (leBytes 2 4 ++ leBytes 1 1 ++ (quotaB 5).drop 3))))
    (fun t => ended t 1 0 0 && (t.ring? 5 3).any (fun g => g.ceil = 1)) = true := by decide

theorem witness_MailboxCommands : up5.barsOpen = true ∧
    (bitOf (up5.strand 5).comm.toNat 0 = false ∧ (0x12345001 : W64).toNat % 2 = 1) ∧
    (bitOf ((up5.setStrand 5 { (up5.strand 5) with comm := 0x12345001 }).strand 5).comm.toNat 0 = true ∧
      (0x22345001 : W64).toNat / 4096 ≠ (0x12345001 : W64).toNat / 4096) ∧
    (fld (5 : W32).toNat 0 10 = 5 ∧ (up5.page 5).mbxSts.getLsbD 0 = false ∧
      ({ up5 with host := { up5.host with msix := [(1280, { ctrl := 0 })] } } : State).masked 5 0 = false ∧
      ((up5.setPage 5 { mbxSts := 1 }).page 5).mbxSts.getLsbD 0 = true) ∧
    (up5.vfEnabled 5 = true ∧ (1 : W32).getLsbD 0 = true ∧ up5.mbxPend.getD 5 false = false ∧
      ({ up5 with mbxPend := [(5, true)] } : State).mbxPend.getD 5 false = true ∧
      ({ up5 with host := { up5.host with msix := [(0, { ctrl := 0 })] } } : State).masked 0 (fld (up5.strand 5).mbx.toNat 0 8) =
        false) := by decide

/-- The record of a notice is acknowledged: strand 5 is enabled, its vector 0 open, its notices not masked (R317, R319). -/
def upNotice : State := { up5 with host := { up5.host with
  notices := [{ fn := 5, head := 64 }], msix := [(1280, { ctrl := 0 })] } }
theorem witness_notice : upNotice.barsOpen = true ∧ upNotice.job? 0 = none ∧
    upNotice.host.notices = [{ fn := 5, head := 64 }] ∧ (upNotice.strand 5).state ≠ .disabled ∧
    upNotice.masked 5 0 = false ∧ bitOf (upNotice.strand 5).mbx.toNat 8 = false := by decide

theorem test_mailbox : ok (exec (.strCommWrite 5 0x12345001) up5) (fun t => t.host.out = [.write 0 0x12345C00 (zeros 8)] &&
      (t.strand 5).comm = 0x12345001) = true ∧
    ok (exec (.mbxRingTenant 5 1) up5) (fun t => t.mbxPend.getD 5 false && t.host.pba.getD 0 false) = true := by decide

/-- STRAND_SAVE under the key at index 5, and STRAND_RESTORE of an empty blob (no rings, no keys). -/
def saveJob : Job := { sj 0xF107 0 96 with words := [BitVec.ofNat 64 (0x50 * 2 ^ 32), 0, BitVec.ofNat 64 (96 * 2 ^ 32), 0, 0,
  BitVec.ofNat 64 (5 * 2 ^ 32)] }
def upSave (st : StrandState) (x : Job) : State := (upK.setStrand 5 { state := st, gen := 1 }).setJob 1 x
def restBlob : Bytes := leBytes 4 0x53424B41 ++ [1, 0] ++ zeros 6 ++ padTo 3 (kcvOf 0x07 kek.mat) ++ zeros 1 ++ zeros 8 ++
  leBytes 8 16 ++ zeros 64
def restJob : Job := mk 0xF108 .firmware 5 0 restBlob [] 0x50
def restBody : Bytes := algoBytes 0x10508 [kek.mat, zeros 12, restBlob.take 64, restBlob.drop 64] 16

theorem witness_StrandTransferCommands :
    ((upSave .enabled saveJob).cmdJob 1 0xF107 = some saveJob ∧ saveJob.phase < 2 ∧
      ((upSave .enabled saveJob).strand saveJob.strandNo).state ≠ .stopped) ∧
    ((upSave .stopped saveJob).cmdJob 1 0xF107 = some saveJob ∧ ((upSave .stopped saveJob).strand 5).state = .stopped ∧
      bitOf saveJob.param 12 = false ∧ isOk ((upSave .stopped saveJob).transferKek saveJob 4) = true ∧
      (upSave .stopped saveJob).wrapsOf saveJob.fn kek false < 2 ^ 32 ∧ kek.atHand = true ∧
      (∀ e ∈ (upSave .stopped saveJob).keysOf 5, e.2.atHand = true) ∧
      80 + ((upSave .stopped saveJob).strandBody 5).length = saveJob.outCap) ∧
    (restJob.phase ≠ 2 ∧ ((upSave .enabled restJob).strand restJob.strandNo).state ≠ .disabled ∧
      ((upSave .disabled restJob).strand restJob.strandNo).state = .disabled ∧ (upSave .disabled restJob).keysOf 5 = [] ∧
      bitOf restJob.param 12 = false ∧ isOk ((upSave .disabled restJob).transferKek restJob 5) = true ∧
      leAt restJob.block 0x10 2 = 0 ∧
      (upSave .disabled restJob).aliases 5 = false) := by decide

/-- The ply route without a partner and with one, the write-back of a saved strand, and a strand whose next generation a job holds. -/
def plyJob (n : Nat) : Job := { sj 0xF107 4096 0 with phase := n }
def upPlyS (b : Bool) (x : Job) : State :=
  { (upSave .stopped x) with ply := { up.ply with p0 := { up.ply.p0 with session := b } } }
def saveOut : Job := { saveJob with stage := .s7wait, result := zeros 96, resLen := 96, words := saveJob.words.set 3 0x50000 }
def upAlias : State := (upSave .disabled restJob).setJob 2 { mk 0x7120 .s5 1 8 with fn := 5, admitted := some 1, gen := 2 }
theorem witness_save_routes : (∀ b n, n < 2 → (upPlyS b (plyJob n)).cmdJob 1 0xF107 = some (plyJob n) ∧
      ((upPlyS b (plyJob n)).strand (plyJob n).strandNo).state = .stopped ∧ bitOf (plyJob n).param 12 = true ∧
      (upPlyS b (plyJob n)).plyUp = b ∧ (∀ e ∈ (upPlyS b (plyJob n)).keysOf (plyJob n).strandNo, e.2.atHand = true)) ∧
    ((upSave .stopped saveOut).job? 1 = some saveOut ∧ saveOut.opcode = 0xF107 ∧ saveOut.stage = .s7wait ∧ saveOut.sub = none ∧
      saveOut.admitted = none ∧ (upSave .stopped saveOut).myTurn saveOut = true ∧
      (upSave .stopped saveOut).inS7 ((upSave .stopped saveOut).sealFrame saveOut) = 0 ∧
      (upSave .stopped saveOut).releasedWaits ((upSave .stopped saveOut).sealFrame saveOut) 1 = false ∧ saveOut.outWrites ≠ []) ∧
    (upAlias.restoreErr 5 (restJob.block.take 64) [] [] = some (0x0F, 0x0103)) ∧
    ((upSave .disabled restJob).setKey (keySlot 5 1) aesKey).keysOf 5 ≠ [] ∧
    (upSave .disabled restJob).restoreErr 5 (restJob.block.take 64) [] [] = none := by decide
theorem witness_restore_job : upAlias.cmdJob 1 0xF108 = some restJob := rfl

theorem witness_restore_keys : savedKeys (leAt restJob.block 0x14 4) (restBody.drop 16) = some [] := by rfl

/-- Whether the blob's tag is right is the algorithm's (log 3): where it is, the blob opens. -/
theorem witness_restore (h : Config.accepts 0x10408 [kek.mat, zeros 12, restBlob.take 64, restBlob.drop 64] = true) :
    openStrand restBlob kek.mat (kcvOf 0x07 kek.mat) false = some restBody := by
  have hk : slice restBlob 0x0C 3 = padTo 3 (kcvOf 0x07 kek.mat) := rfl
  have hi : slice restBlob 0x20 12 = zeros 12 := rfl
  unfold openStrand
  rw [hk, hi]
  dsimp only
  have hc : ((decide (restBlob.length < 80) || decide (leAt restBlob 0 4 ≠ 0x53424B41) || decide (leAt restBlob 4 1 ≠ 1) ||
    decide (leAt restBlob 5 1 ≠ b2n false)) || decide (restBlob.length ≠ 80 + leAt restBlob 0x18 8) ||
    decide (leAt restBlob 0x18 8 < 16 + 40 * leAt restBlob 0x10 2)) = false := by decide
  simp only [Bool.or_eq_false_iff, decide_eq_false_iff_not] at hc
  rw [if_neg (by simp_all)]
  unfold aeadOpen
  rw [h, if_neg (by decide)]
  rfl

theorem test_save : ok (exec (.strandSave 1) (upSave .enabled saveJob)) (fun t => ended t 1 0x0B 0x0103) = true := by decide

/-! ## Modes and the life cycle -/

def drainJob : Job := mk 0xF201 .firmware 0 0
def resumeJob : Job := mk 0xF202 .firmware 0 0
def pdpJob (cap ph : Nat) : Job := { mk 0xF203 .firmware 0 cap with phase := ph }
def drJob (p : Nat) : Job := mk 0xF204 .firmware p 0
def rawJob : Job := mk 0xF205 .firmware 0 0
def rawExJob : Job := mk 0xF207 .firmware 0 0
def upD (d : DrainFor) (x : Job) (w : List Nat) : State :=
  { (upJ x) with glb := { up.glb with drain := d, drainWaiters := w } }
def upAcc (x : Job) : State := { (upJ x) with lcs := { up.lcs with access := 0x40 } }
def upRaw (x : Job) : State := { (upJ x) with glb := { up.glb with raw := true, mode := 0x99 } }

theorem witness_ModeCommands :
    ((upJ drainJob).cmdJob 1 0xF201 = some drainJob ∧ drainJob.phase = 0 ∧ (upJ drainJob).glb.drain = .none ∧ up.glb.drainWaiters = []) ∧
    ((upD .standalone resumeJob []).cmdJob 1 0xF202 = some resumeJob ∧ (upD .standalone resumeJob []).glb.drain = .standalone ∧
      (upJ resumeJob).cmdJob 1 0xF202 = some resumeJob ∧ resumeJob.phase = 0 ∧ (upJ resumeJob).glb.drain = .none) ∧
    ((upJ (pdpJob 15 0)).cmdJob 1 0xF203 = some (pdpJob 15 0) ∧ (pdpJob 15 0).outCap = 15 ∧
      (upJ (pdpJob 16 2)).cmdJob 1 0xF203 = some (pdpJob 16 2) ∧ (pdpJob 16 2).outCap = 16 ∧
      (upJ (pdpJob 16 2)).jobs.find? (fun e => e.2.stage = .firmware && e.2.opcode = 0xF203 && e.2.phase = 2) =
        some (1, pdpJob 16 2) ∧ (upJ (pdpJob 16 2)).workPending .ckpt = false ∧
      (upJ (pdpJob 16 2)).workPending .boots = false) ∧
    ((upJ (drJob 0x9528)).cmdJob 1 0xF204 = some (drJob 0x9528) ∧ (drJob 0x9528).param = 0x9528 ∧
      (upJ (drJob 0x9529)).cmdJob 1 0xF204 = some (drJob 0x9529) ∧ (drJob 0x9529).param ≠ 0x9528) ∧
    ((upJ rawJob).cmdJob 1 0xF205 = some rawJob ∧ (upJ rawJob).lcs.access.getLsbD 6 = false ∧
      (upAcc rawJob).cmdJob 1 0xF205 = some rawJob ∧ (upAcc rawJob).lcs.access.getLsbD 6 = true ∧ rawJob.phase = 0 ∧
      (upAcc rawJob).glb.drain = .none ∧ (upAcc rawJob).glb.drainWaiters = []) ∧
    ((upRaw rawExJob).cmdJob 1 0xF207 = some rawExJob ∧ (upRaw rawExJob).glb.raw = true) ∧
    ((upD .standalone drainJob [1]).job? 1 = some drainJob ∧ (upD .standalone drainJob [1]).glb.drainWaiters = [1] ∧
      (upD .standalone drainJob [1]).drained = true ∧ drainJob.opcode = 0xF201 ∧
      (upD .raw rawJob [1]).job? 1 = some rawJob ∧ (upD .raw rawJob [1]).drained = true ∧ rawJob.opcode = 0xF205) := by decide

/-- A power-down that waits for a job of a tenant; RAW_EXIT outside RAW. -/
def upBusyPd : State := (upJ (pdpJob 16 0)).setJob 2 { mulS5 with fn := 5 }
theorem witness_ModeCommands_others : upBusyPd.cmdJob 1 0xF203 = some (pdpJob 16 0) ∧ (pdpJob 16 0).phase = 0 ∧
    upBusyPd.glb.drain = .none ∧ upBusyPd.drained = false ∧
    ((upD .powerDown resumeJob []).cmdJob 1 0xF202 = some resumeJob ∧ (upD .powerDown resumeJob []).glb.drain = .powerDown) ∧
    (upJ rawExJob).cmdJob 1 0xF207 = some rawExJob ∧ (upJ rawExJob).glb.raw = false ∧
    (upD .raw rawJob [1]).job? 1 = some rawJob ∧ (upD .raw rawJob [1]).glb.drainWaiters = [1] := by decide

theorem test_modes : ok (exec (.drain 1 false) (upJ drainJob)) (fun t => t.glb.mode = 0x69 && t.glb.prev = 0x5A) = true ∧
    ok (exec (.resume 1 false) (upD .standalone resumeJob [])) (fun t => t.glb.mode = 0x5A && ended t 1 0 0) = true ∧
    ok (exec .drainComplete (upD .raw rawJob [1])) (fun t => t.glb.mode = 0x99 && t.rng.state = 4) = true ∧
    ok (exec (.rawEnter 1 false) (upJ rawJob)) (fun t => ended t 1 0x0B 0x0104) = true ∧
    ok (exec (.drain 1 true) (upJ drainJob)) (fun t => ended t 1 0x0F 0x0104 && t.glb.mode = 0x5A) = true := by decide

theorem test_device_reset : ok (exec (.deviceReset 1 false) (upJ (drJob 0x9529))) (fun t => ended t 1 2 4 && !t.glb.resetDue) = true ∧
    ok (exec (.deviceReset 1 false) (upJ (drJob 0x9528))) (fun t => ended t 1 0 0 && t.glb.resetDue) = true := by decide

/-- LC_TRANSITION from ordinal 0 of the five-state scheme to code 0x55: with a reserved byte set, and as the steps run. -/
def lcBlk (r : Byte) : Bytes := [0x55, r] ++ zeros 6 ++ zeros 32
def lcJob (r : Byte) : Job := mk 0xF604 .firmware 0 0 (lcBlk r)
def upLc (x : Job) (run : Option LcRun) (tok : Bytes) : State := { (upJ x) with
  otp := { up.otp with scheme := 0, token := [(1, tok)] }
  lcs := { up.lcs with state := 0x33, run := run } }

theorem witness_LifeCycleCommands :
    ((upLc (lcJob 1) none []).cmdJob 1 0xF604 = some (lcJob 1) ∧ (upLc (lcJob 1) none []).lcs.run = none ∧
      (upLc (lcJob 1) none []).glb.resetDue = false ∧ (upLc (lcJob 1) none []).lcRefusal (lcJob 1).block = some (2, 0x0B01) ∧
      integrityErr ≠ 2) ∧
    ((upLc (lcJob 0) (some { job := 1, target := 1, at_ := 1 }) []).cmdJob 1 0xF604 = some (lcJob 0) ∧
      (upLc (lcJob 0) (some { job := 1, target := 1, at_ := 1 }) []).lcs.run = some { job := 1, target := 1, at_ := 1 } ∧
      (upLc (lcJob 0) (some { job := 1, target := 1, at_ := 4 }) []).lcs.run = some { job := 1, target := 1, at_ := 4 }) := by
  decide

/-- Whether a token is the right one is the algorithm's (log 3). -/
theorem witness_token : (shake256 (slice (lcBlk 0) 8 32) ≠ padTo 32 [1] →
      (upLc (lcJob 0) none [1]).lcRefusal (lcBlk 0) = some (9, 0x0103)) ∧
    (shake256 (slice (lcBlk 0) 8 32) = padTo 32 [1] → (upLc (lcJob 0) none [1]).lcRefusal (lcBlk 0) = none) := by
  have hk : (upLc (lcJob 0) none [1]).lcTarget (BitVec.ofNat 8 (leAt (lcBlk 0) 0 1)) = some 1 := by decide
  have ht : (upLc (lcJob 0) none [1]).otp.token.getD 1 [] = [1] := by decide
  constructor <;> intro h <;> unfold State.lcRefusal <;> rw [if_neg (by decide), if_neg (by decide), hk] <;> dsimp only <;>
    rw [if_neg (by decide), if_neg (by decide), ht]
  · rw [if_pos h]
  · rw [if_neg (fun hn => hn h)]
def upState1 : State := upLc (lcJob 0) (some { job := 1, target := 1, at_ := 3 }) []
theorem witness_state_step : upState1.lcs.run = some { job := 1, target := 1, at_ := 3 } ∧ 1 = upState1.lcs.ordinal + 1 ∧
    upState1.otp.state.getD 1 0 ≠ lcCode upState1.otp.five 1 ∧ upState1.cmdJob 1 0xF604 = some (lcJob 0) := by decide

/-- R429: the intent is recorded first; DONE is 0xA5. -/
theorem test_life_cycle : ok (exec (.lcTransition 1 .intent true false) (upLc (lcJob 0) (some { job := 1, target := 1, at_ := 1 }) []))
      (fun t => t.otp.intent.getD 1 0 = lcCode t.otp.five 1 && t.otp.done.getD 1 0 = 0) = true ∧
    ok (exec (.lcTransition 1 .done true false) (upLc (lcJob 0) (some { job := 1, target := 1, at_ := 4 }) []))
      (fun t => t.otp.done.getD 1 0 = 0xA5 && t.glb.resetDue && ended t 1 0 0) = true := by decide

theorem witness_FactoryAndDebugCommands :
    (({ up with lcs := { up.lcs with state := 0x33 } } : State).lcs.state ≠ 0 ∧ up.lcs.ordinal = 0 ∧ up.lcs.pending = 0 ∧
      up.lcs.run = none ∧ up.otp.scheme = 0 ∧ ({ up with otp := { up.otp with scheme := 0x5A } } : State).otp.scheme ≠ 0) ∧
    (({ up with lcs := { up.lcs with ordinal := 1 } } : State).lcs.ordinal ≠ 0) ∧
    (up.awake = true ∧ ({ up with lcs := { up.lcs with access := 0x038 } } : State).lcs.access.getLsbD (debugBit .jtag) = true ∧
      ({ up with lcs := { up.lcs with access := 0x038 } } : State).lcs.access.getLsbD (debugBit .crixaT) = true ∧
      up.lcs.access.getLsbD (debugBit .jtag) = false) ∧
    (({ up with glb := { up.glb with debug := true }, lcs := { up.lcs with access := 0x7 } } : State).lcs.access.getLsbD
      (factoryNo .rawSram - 1) = true) ∧ up.glb.debug = false := by decide

theorem test_debug : ok (exec (.debugOpen .jtag) { up with lcs := { up.lcs with access := 0x8 } }) (fun t =>
      t.glb.mode = 0xA5 && t.tap.jtag) = true ∧
    ok (exec (.debugOpen .jtag) { up with lcs := { up.lcs with access := 0x7F7 } }) (fun t => t.glb.mode = 0x5A) = true := by decide

/-- Table 16.1: what each scheme can reach. -/
theorem witness_LifeCycleGoesForward : lcReach true 0 4 = true ∧ lcReach true 1 3 = false ∧ lcReach true 2 3 = true ∧
    lcReach false 2 3 = true ∧ lcReach false 3 4 = false ∧ lcReach true 4 4 = false := by decide

/-! ## Registers, digest engine -/

theorem witness_RegisterRows : up.barsOpen = true ∧
    (bitOf (up.shtReq 7 0) 2 = true ∧ bitOf (up.shtReq 0 14) 2 = true ∧ shtEmerg 0 = 14) ∧
    (({ up with glb := { up.glb with lock := true } } : State).glb.lock = true ∧ up.glb.lock = false ∧
      popCount 3 ((3 : W32).toNat % 8) = 2 ∧ popCount 3 ((4 : W32).toNat % 8) = 1) ∧
    ((1 : W32).getLsbD 0 = true ∧ (2 : W32).getLsbD 0 = false) := by decide

theorem test_lock : ok (exec (.rngCfgWrite 1) { up with glb := { up.glb with lock := true } }) (fun t => t.rng.cfg = 0) = true ∧
    ok (exec (.registerWrite .bar2 0 0x400000 4 0x1E0 {}) { up with glb := { up.glb with lock := true } })
      (fun t => t.crx.cfg = 0xA0 && !t.host.ur) = true ∧
    ok (exec (.registerWrite .bar2 0 0x400000 4 0x1E0 {}) up) (fun t => t.crx.cfg = 0x1E0) = true := by decide

theorem test_latched_read : ok (exec .ptcBootLowRead { up with glb := { up.glb with ptcBoot := 0x123456789 } }) (fun t =>
    t.host.lastRead = 0x23456789 && t.glb.ptcBootLatch = 1) = true := by decide

/-- FN_DB_DROP of the PF and of strand 5, and a digest counter. -/
theorem witness_CounterReadsClear : up5.accessOk .bar0 5 0x018 8 = true ∧ rcCounters (locate .bar0 5 0x018) = some [0] ∧
    up5.accessOk .bar2 0 0x0A0008 8 = true ∧ rcCounters (locate .bar2 0 0x0A0008) = some [0] := by decide

theorem test_counter : ok (exec (.rcCounterRead .bar0 5 0x018 8 []) (up5.setPage 5 { dbDrop := 3 })) (fun t =>
      t.host.lastRead = 3 && (t.page 5).dbDrop = 0) = true ∧
    ok (exec (.rcCounterRead .bar0 5 0x018 8 [0]) (up5.setPage 5 { dbDrop := 3 })) (fun t =>
      t.host.lastRead = 3 && (t.page 5).dbDrop = 1) = true := by decide

/-- R8: a misaligned and a 2-byte access, and an address without a register. -/
theorem witness_RegisterWrites : up.accessOk .bar2 0 0x41 4 = false ∧ up.accessOk .bar2 0 0x40 2 = false ∧
    up.accessOk .bar2 0 0x0F0000 4 = true ∧ locate .bar2 0 0x0F0000 = .reserved ∧ up.barsOpen = true := by decide

/-- R10: a Crixa T core's write wins over the manager's; R9: a bit set in the cycle of its clearing stays. -/
theorem test_cycle : ok (exec (.registerWrite .bar2 0 0x0D0008 4 1 { rivals := [(.trusted, 2)] }) up) (fun t => t.cap.cap = 2) = true ∧
    ok (exec (.registerWrite .bar2 0 0x010008 4 0xF { sets := 4 }) { up with host := { up.host with err := 6 } })
      (fun t => t.host.err = 4) = true := by decide

theorem test_register_write : ok (exec (.registerWrite .bar2 0 0x0D0008 4 0xFFFFFFFF {}) up) (fun t => t.cap.cap = 0x1FFFF) = true ∧
    ok (exec (.registerWrite .bar2 0 0x41 4 0 {}) up) (fun t => t.host.ur) = true := by decide

/-- Digest slots: absorbing, finishing, idle, with and without a full block. -/
def dAbs : DSlot := { cfg := 0x001, state := 1 }
def dFin : DSlot := { cfg := 0x001, state := 2, msg := zeros 63 }
def upDg (d : DSlot) : State := up.setDslot 48 d

/-- The slot holds a digest lane (R409). -/
def upLane (d : DSlot) : State :=
  let s := upDg d
  s.setShuttle 3 { s.shuttle 3 with grants := [(0, { slot := regSlot 48, ctx := 48, lst := none, since := 0, raised := 0 })] }

theorem witness_DigestCommands :
    (up.barsOpen = true ∧ dgeOwns .manager 48 = true ∧ ((upDg dAbs).dslot 48).state = 1 ∧ ((upDg dAbs).dslot 48).freeWords ≠ 0 ∧
      ((upDg dAbs).dslot 48).len = BitVec.allOnes 64 ∧ ((upDg dAbs).dslot 48).msg.length + 8 < 2 ^ 61 ∧
      ((upDg dAbs).dslot 48).lastData.tag = .int) ∧
    (((upDg dFin).dslot 48).state = 2) ∧ (dgeCfgClean 0x111 = true ∧ (up.dslot 63).state = 0) ∧
    (((upLane { dAbs with msg := zeros 64 }).dslot 48).state = 1 ∧ ((upLane { dAbs with msg := zeros 64 }).regLane 48).isSome ∧
      ((upLane { dAbs with msg := zeros 64 }).dslot 48).fullBlock = true) ∧
    (((upLane dFin).dslot 48).state = 2 ∧ ((upLane dFin).dslot 48).compares = false ∧ ((upLane dFin).regLane 48).isSome ∧
      ((upLane dFin).dslot 48).fullBlock = false) := by decide

/-- A core's store that stalls on a full FIFO while a block waits for its lane. -/
def dHeld : DSlot := { dAbs with msg := zeros 256, held := [{ tag := .int, val := 5 }] }
theorem witness_held_store : ((upLane dHeld).dslot 48).state = 1 ∧ ((upLane dHeld).regLane 48).isSome = true ∧
    ((upLane dHeld).dslot 48).fullBlock = true ∧ ((upLane dHeld).dslot 48).held = [{ tag := .int, val := 5 }] ∧
    ((upLane dHeld).dslot 48).len = BitVec.allOnes 64 ∧
    ceilDiv (((upLane dHeld).dslot 48).msg.length - ((upLane dHeld).dslot 48).absorbed - ((upLane dHeld).dslot 48).block) 8 < 32 ∧
    (upDg dAbs).dslot 48 = dAbs ∧ dAbs.held = [] := by decide

theorem test_digest : ok (exec (.dgeDataWrite 48 8 .manager .int 0x312D52454744454C false) (upDg dAbs)) (fun t =>
      (t.dslot 48).msg = [0x4C, 0x45, 0x44, 0x47, 0x45, 0x52, 0x2D, 0x31]) = true ∧
    ok (exec (.dgeDataWrite 48 8 .manager .int 0x31 true) (upDg dAbs)) (fun t => (t.dslot 48).msg = []) = true ∧
    ok (exec (.dgeDataWrite 48 2 .manager .int 0x31 false) (upDg dAbs)) (fun t => t.host.ur && (t.dslot 48).msg = []) = true ∧
    ok (exec (.dgeCtlAbort 48 1) (upDg dAbs)) (fun t => (t.dslot 48).err = 6 && (t.dslot 48).state = 0) = true ∧
    ok (exec (.dgeCtxCfgWrite 48 0x111) (upDg dAbs)) (fun t => t.dge.cntMisuse = 1) = true := by decide

/-- Table 15.8: an HMAC-SHA-256 message with COUNT 5 and LEN 21 finishes; COUNT 6 is ERR 0x03. -/
def dEx : DSlot := { cfg := 0x111, len := 21, state := 1, msg := zeros 16, lastData := { val := 0x0000003234303020 } }

theorem test_digest_length : ok (exec (.dgeLastWrite 48 5) (upDg dEx)) (fun t => (t.dslot 48).state = 2) = true ∧
    ok (exec (.dgeLastWrite 48 6) (upDg dEx)) (fun t => (t.dslot 48).state = 4 && (t.dslot 48).err = 3) = true := by decide

/-- Table 15.8: DGE_CTX_STS after the match: FREE 32, MSGS 1, CMP 0b10, STATE DONE. -/
theorem test_digest_status : (upDg { dEx with state := 3, msgs := 1, cmp := 2 }).regAt (locate .bar2 0 0x0A1018) =
    0x0020000000010203 := by decide

/-! ## Entropy -/

/-- The island running, every instance seeded, the reservoir and the conditioner full, the buffers empty. -/
def upRng : State := { up with rng := { up.rng with
  state := 1, res := zeros 96, acc := List.replicate 400 (0, true)
  srcs := [(0, { state := 1 }), (1, { state := 1 }), (2, { state := 1 })]
  insts := (List.range 6).map (fun i => (i, { seeded := true })) } }
def genBytes (n : Nat) (pr : Nat := 0) : Job := mk 0x6110 .s5 pr n
def reseedJob : Job := mk 0x6120 .s5 0 0
def rawRead (p cap : Nat) : Job := mk 0xF206 .firmware p cap
def rawRead2 : Job := { rawRead 0 17 with phase := 2, result := [1, 0, 0, 0, 0, 0, 0, 1] }
def upAsk : State := upRng.setInst 5 { seeded := true, asked := true }
def upBuf (n : Nat) : State := { upRng with rng := { upRng.rng with bufs := [(0, zeros n)] }, glb := { upRng.glb with ptcBoot := 10000 } }
/-- In STARTUP, instance 0 next, with 16 bytes in the reservoir. -/
def upStart : State := { upRng with rng := { upRng.rng with state := 0, res := zeros 16, instantiated := 0 } }
/-- STOPPED at 5 s. -/
def upStop : State := { upRng with rng := { upRng.rng with state := 3 }, glb := { upRng.glb with ptcBoot := 5000000 } }
def lateJob : Job := { reseedJob with deadline := some 5000000 }

/-- Outputs of the units of a source. -/
def goodOuts : List Bool := true :: List.replicate 95 false
/-- SRC_C failed since 0, at a time; a failing sample of it waits in the queue. -/
def upFail (now : Nat) : State := { (upRng.setSrc 2 { state := 2, okSince := 0, last := some true, run := 32 }) with
  glb := { upRng.glb with ptcBoot := now } }
def upFailQ (q : List Instr) : State := { upFail 1000000 with pending := q }

theorem witness_EntropyCommands :
    (upRng.live = true ∧ (blockOf 32000 upRng.rng.acc).isSome = true ∧ upRng.rng.state ≠ 0 ∧ upRng.rng.state ≠ 4) ∧
    (upStart.live = true ∧ (blockOf 32000 upStart.rng.acc).isSome = true ∧ upStart.rng.state = 0 ∧ 2 ≤ upStart.healthy ∧
      upStart.rng.instantiated = 0 ∧ upStart.rng.res.length = 16) ∧
    (up.live = true ∧ (blockOf 32000 up.rng.acc).isNone = true) ∧
    ((upRng.inst 5).seeded = true ∧
      (({ upRng with glb := { upRng.glb with ptcBoot := 500000 } } : State).inst 5).seededAt + 500000 ≤
        ({ upRng with glb := { upRng.glb with ptcBoot := 500000 } } : State).now ∧
      2 ^ 19 ≤ ((upRng.setInst 5 { seeded := true, reqs := 2 ^ 19 }).inst 5).reqs) ∧
    (upAsk.rng.state ≠ 4 ∧ upAsk.wantsReseed 5 = true ∧ upAsk.mayReseed 5 = true) ∧
    (upRng.serves 3 = true ∧ (upRng.frameBuf 3).length + 4096 ≤ 16384) ∧
    ((upBuf 32).rngRuns = true ∧ ((upBuf 32).frameBuf 0).length = 32 ∧ ((upBuf 32).creel 0 10).maskAt + 10000 = (upBuf 32).now) ∧
    ((upRng.setJob 1 (genBytes 65537)).running 1 0x61 1 = some (genBytes 65537) ∧
      (upRng.setJob 1 (genBytes 65537)).rngTurn 1 (genBytes 65537) = true ∧ (genBytes 65537).phase = 0 ∧
      bitOf (genBytes 65537).param 0 = false ∧ (upRng.setJob 1 (genBytes 65537)).serves 5 = true ∧
      ((upRng.setJob 1 (genBytes 65537)).inst 5).reqs + ceilDiv (genBytes 65537).outCap 65536 = 2) ∧
    ((upRng.setJob 1 (genBytes 65536 1)).running 1 0x61 1 = some (genBytes 65536 1) ∧
      (upRng.setJob 1 (genBytes 65536 1)).rngTurn 1 (genBytes 65536 1) = true ∧ bitOf (genBytes 65536 1).param 0 = true ∧
      (upRng.setJob 1 (genBytes 65536 1)).rngRuns = true ∧ (upRng.setJob 1 (genBytes 65536 1)).mayReseed 5 = true ∧
      (genBytes 65536 1).outCap = 65536) ∧
    ((upRng.setJob 1 reseedJob).running 1 0x61 2 = some reseedJob ∧
      (upRng.setJob 1 reseedJob).rngTurn 1 reseedJob = true ∧ (upRng.setJob 1 reseedJob).rngRuns = true ∧
      (upRng.setJob 1 reseedJob).mayReseed 5 = true) ∧
    ((upStop.setJob 1 lateJob).running 1 0x61 2 = some lateJob ∧ (upStop.setJob 1 lateJob).rngRuns = false ∧
      (upStop.setJob 1 lateJob).lateNow lateJob = true) := by decide

theorem witness_frame_full :
    (({ upRng with rng := { upRng.rng with bufs := [(3, zeros 12288)] } } : State).frameBuf 3).length + 4096 = 16384 := by
  show (zeros 12288).length + 4096 = 16384
  rw [zeros, List.length_replicate]

theorem witness_EntropyCommands_sources :
    ((upJ (rawRead 3 17)).cmdJob 1 0xF206 = some (rawRead 3 17) ∧ (rawRead 3 17).phase = 0 ∧ (rawRead 3 17).param < 16 ∧
      16 ≤ (rawRead 16 17).param ∧ (upJ (rawRead 16 17)).cmdJob 1 0xF206 = some (rawRead 16 17) ∧
      (rawSel (rawRead 3 17)).1 = 3 ∧ (rawSel (rawRead 12 17)).2 = 3 ∧ (rawSel (rawRead 10 17)).1 = 2 ∧
      (rawSel (rawRead 10 17)).2 = 2 ∧ (rawRead 10 16).outCap < 17 ∧ (rawRead 10 1048592).outCap = 1048592 ∧
      1048592 < (rawRead 10 1048593).outCap) ∧
    ((upJ rawRead2).cmdJob 1 0xF206 = some rawRead2 ∧ rawRead2.phase = 2 ∧ 17 ≤ rawRead2.outCap ∧
      rawRead2.result.length = 8 * (rawRead2.outCap - 16)) ∧
    (((upRng.setSrc 0 { state := 1, last := some true, run := 34 }).src 0).last =
        some (((upRng.setSrc 0 { state := 1, last := some true, run := 34 }).src 0).rawBit [true]) ∧
      ((upRng.setSrc 0 { state := 1, last := some true, run := 34 }).src 0).run + 1 = 35 ∧ upRng.rng.state ≠ 4) ∧
    ((upRng.src 1).state = 1 ∧ ((upRng.src 1).sample 1 goodOuts []).1.any = false) ∧
    (((upRng.setSrc 2 { state := 0, startPass := 1024 }).src 2).state = 0 ∧
      ((upRng.setSrc 2 { state := 0, startPass := 1024 }).src 2).startPass = 1024) ∧
    (((upFail 1000000).src 2).state = 2 ∧ ((upFail 1000000).src 2).okSince + 1000000 ≤ (upFail 1000000).now ∧
      (upFail 1000000).failingNow = [] ∧ ((upFailQ [.noiseSample 2 [true] []]).src 2).state = 2 ∧
      2 ∈ (upFailQ [.noiseSample 2 [true] []]).failingNow ∧
      (upFail 999999).now < ((upFail 999999).src 2).okSince + 1000000 ∧ (upFail 999999).failingNow = []) := by decide

/-- R388: 35 equal samples fail SRC_A. -/
theorem test_rct : ok (exec (.noiseSample 0 goodOuts []) (upRng.setSrc 0 { state := 1, last := some true, run := 34 })) (fun t =>
      (t.src 0).state = 2 && t.rng.evt.getLsbD 0) = true ∧
    ok (exec (.noiseSample 0 goodOuts []) (upRng.setSrc 0 { state := 1, last := some true, run := 33 })) (fun t =>
      (t.src 0).state = 1) = true := by decide

theorem test_reseed : ok (exec (.drbgReseed 5) upAsk) (fun t => t.rng.resBits = 512 && !(t.inst 5).asked) = true ∧
    ok (exec (.frameBufferRefill 3) upRng) (fun t => (t.inst 3).reqs = 1) = true := by decide

/-- R404: 17 bytes are eight bits packed and the 16-byte header. -/
theorem test_raw_read : ok (exec (.rawRead 1) (upJ (rawRead 3 17))) (fun t => ended t 1 2 0x0A02) = true ∧
    ok (exec (.rawRead 1) (upJ (rawRead 10 16))) (fun t => ended t 1 2 0x0A01) = true := by decide

/-! ## Tamper -/

/-- Values loaded, main power present. -/
def upTmp : State := { up with tmp := { up.tmp with loaded := true } }
def onCell : State := { up with
  pins := { up.pins with mainPower := false, onCell := true }
  glb := { up.glb with phase := .vigil, mode := 0x0F }
  vigil := { up.vigil with valid := true, boots := 4212, life := 31600000, logSeq := 37
                           entries := [(9, { resp := 1 }), (12, { resp := 2 })] }
  tmp := { up.tmp with wrong := [(9, 1), (12, 1)] } }
def upFz : State := { upTmp with vigil := { up.vigil with entries := [(22, { resp := 2 })] } }
def ev (n : Nat) : TamperEv := { source := n, detectorA := false, detectorB := false, detail := 0 }

theorem witness_TamperEvents :
    (upTmp.vigil.countEn = false ∧ upTmp.pins.mainPower = true ∧ upTmp.tmp.loaded = true ∧ upTmp.inVigil = false) ∧
    (srcKnown 8 = true ∧ srcCount 8 = true ∧ srcDetail 8 = false ∧ upTmp.watched 8 = true ∧ upTmp.fused 8 = false ∧
      upTmp.srcActive 8 = false ∧ srcDetail 1 = true ∧ srcCount 25 = false ∧ srcDetail 25 = false ∧
      srcKnown 1 = true ∧ srcKnown 25 = true ∧ upTmp.watched 25 = true ∧ upTmp.fused 25 = false ∧ upTmp.srcActive 25 = false ∧
      upTmp.watched 1 = true ∧ 1 ≤ (upTmp.tmpEntry 7).resp.toNat ∧ (upTmp.tmpEntry 7).resp = 3 ∧
      (upFz.tmpEntry 22).resp = 2) ∧
    (({ upTmp with tmp := { upTmp.tmp with active := 0x2 } } : State).srcActive 1 = true) ∧
    (upTmp.fused 22 = false ∧ upTmp.srcActive 22 = false ∧ upTmp.fused 23 = false ∧ upTmp.srcActive 23 = false ∧
      (machineCodes 3).contains 0xA5 = true ∧ (machineCodes 3).contains 0x5A = false ∧ upTmp.fused 20 = false ∧
      upTmp.srcActive 20 = false) ∧
    (onCell.pins.mainPower = false ∧ onCell.vigil.countEn = false) ∧
    (onCell.inVigil = true ∧ onCell.pins.cell = true ∧ onCell.vigil.valid = true ∧ onCell.fused 6 = false ∧
      onCell.srcActive 6 = false ∧ (onCell.tmpEntry 6).resp = 3 ∧ onCell.tmp.wrong.getD 8 0 = 0 ∧
      onCell.tmp.wrong.getD 15 0 = 0 ∧ onCell.tmp.wrong.getD 9 0 = 1 ∧ onCell.fused 9 = false ∧ onCell.srcActive 9 = false) ∧
    (onCell.vigilOn = true ∧ onCell.vigil.valid = true ∧ onCell.vigil.tLow * 10 ≤ -300 ∧ (-300 : Int) - (-200) = -100 ∧
      ((-300 : Int) - (-200)).natAbs ≤ 100 ∧ (1150 : Int) ≤ onCell.vigil.tHigh * 10 ∧ (-301 : Int) < onCell.vigil.tLow * 10 ∧
      onCell.fused 1 = false ∧ onCell.srcActive 1 = false) := by decide

/-- Table 17.7: the two records of one group, their words. -/
def recWords (r : TmpRec) : List Nat := (List.range 4).map (fun i => leAt r.bytes (8 * i) 8)
theorem test_tamper_records : ok (exec (.vigilSample 1 [9, 12]) onCell) (fun t => t.vigil.log.map recWords =
      [[0x0001090900000025, 0x01E22D8000001074, 0, 0x0000000100000025],
       [0x00010A0C00000026, 0x01E22D8000001074, 0, 0x0000000100000025]] && t.vigil.freeze) = true := by decide

theorem test_tamper_response : ok (exec (.tamperEvent [ev 7]) upTmp) (fun t => t.glb.mode = 0xC3 && t.vigil.nonce = none) = true ∧
    ok (exec (.shadowMismatch 0x40) upFz) (fun t => t.glb.frozen && t.tmp.evt.getLsbD 22) = true ∧
    ok (exec .cellRemoval onCell) (fun t => t.vigil = {}) = true := by decide

/-- A TAMPER_CFG block of the default responses, and one with a response below its floor. -/
def tmpCfgB (r : Nat) : Bytes := leBytes 2 1 ++ zeros 2 ++ [0xE2, 0x73] ++ zeros 2 ++ zeros 4 ++ zeros 4 ++
  ((List.range 32).map (fun n => leBytes 4 (if n = 1 then r else if srcKnown n then max 1 (srcFloor n) else 0))).flatten
def cfgJob (r : Nat) : Job := mk 0xF601 .firmware 0 0 (tmpCfgB r)
def logJob (n : Nat) : Job := mk 0xF602 .firmware 0 n
def relJob : Job := mk 0xF603 .firmware 0 0
def attJob (n : Nat) : Job := mk 0xF005 .firmware 0 n (zeros 32)
def upFrozen (x : Job) : State := { (upJ x) with
  tmp := { up.tmp with active := 0x400000, evt := 0x400000 }
  glb := { up.glb with frozen := true }
  vigil := { up.vigil with freeze := true } }

theorem witness_TrustedFirmwareCommands :
    ((upJ (cfgJob 1)).cmdJob 1 0xF601 = some (cfgJob 1) ∧ (upJ (cfgJob 1)).tamperCfgError (cfgJob 1).block = none ∧
      (upJ (cfgJob 0)).cmdJob 1 0xF601 = some (cfgJob 0) ∧ (upJ (cfgJob 0)).tamperCfgError (cfgJob 0).block = some (2, 0x0C01)) ∧
    ((upJ (logJob 47)).cmdJob 1 0xF602 = some (logJob 47) ∧ (upJ (logJob 48)).cmdJob 1 0xF602 = some (logJob 48)) ∧
    ((upFrozen relJob).cmdJob 1 0xF603 = some relJob ∧ (upFrozen relJob).freezeActive = true ∧
      (upJ relJob).cmdJob 1 0xF603 = some relJob ∧ (upJ relJob).freezeActive = false) ∧
    ((upJ (attJob 5548)).cmdJob 1 0xF005 = some (attJob 5548) ∧ (attJob 5548).outCap < 5549 ∧
      (attJob 5549).outCap = 5549) := by decide

theorem test_release : ok (exec (.tamperRelease 1) (upFrozen relJob)) (fun t => ended t 1 0x0B 0x0C01 && t.glb.frozen) = true ∧
    ok (exec (.tamperRelease 1) { (upFrozen relJob) with tmp := { up.tmp with evt := 0x400000 } }) (fun t =>
      ended t 1 0 0 && !t.glb.frozen && !t.vigil.freeze && t.tmp.evt = 0 && !t.pins.alarm) = true := by decide

/-! ## Images, key spool -/

def imgJob (type n ph : Nat) : Job := { mk 0xF301 .firmware type 0 (zeros n) with phase := ph }
/-- A job whose length field alone says `n`. -/
def imgLen (type n ph : Nat) : Job := { imgJob type 8 ph with words := [0, 0, BitVec.ofNat 64 n, 0, 0, BitVec.ofNat 64 (type * 2 ^ 32)] }
def upIkey (x : Job) : State := { (upJ x) with
  otp := { up.otp with ikey0 := { data := zeros 32, valid := 0xA5 } }, lcs := { up.lcs with access := 0x180 } }
/-- An applet image with no applet (Table 13.11), and a customer image of one routine of one micro-word (Table 9.6). -/
def appletB : Bytes := leBytes 4 0x50414B41 ++ leBytes 2 1 ++ zeros 2 ++ leBytes 4 1 ++ zeros 292 ++ zeros 5261
def rtnB : Bytes := leBytes 4 0x52434B41 ++ leBytes 2 1 ++ zeros 2 ++ leBytes 4 1 ++ leBytes 4 1 ++ leBytes 4 1 ++ zeros 44 ++
  leBytes 4 3584 ++ zeros 12 ++ leBytes 4 1 ++ zeros 492 ++ leBytes 8 0xF00000000 ++ zeros 5261
def fileJob (type ph : Nat) (b : Bytes) : Job := { imgJob type 8 ph with input := some b, aux := none }

theorem witness_ImageCommands :
    ((upJ (imgJob 6 8 0)).cmdJob 1 0xF301 = some (imgJob 6 8 0) ∧ fld (imgJob 6 8 0).param 0 4 ∉ [1, 2, 3, 4, 5]) ∧
    ((upJ (imgLen 4 65537 0)).cmdJob 1 0xF301 = some (imgLen 4 65537 0) ∧ 65536 < (imgLen 4 65537 0).inLen ∧
      4194304 < (imgLen 5 4194305 0).inLen ∧ (imgLen 1 8388608 2).inLen = 8388608 ∧ fld (imgLen 1 8388608 2).param 0 4 = 1) ∧
    ((upJ (imgJob 4 8 0)).cmdJob 1 0xF301 = some (imgJob 4 8 0) ∧ fld (imgJob 4 8 0).param 0 4 = 4 ∧ (imgJob 4 8 0).inLen = 8 ∧
      (imgJob 4 8 0).phase = 0 ∧ (upJ (imgJob 4 8 0)).glb.drain = .none ∧
      ((upJ (imgJob 4 8 0)).setJob 2 { mk 0x6110 .s5 0 64 with ring := 1 }).cmdJob 1 0xF301 = some (imgJob 4 8 0) ∧
      ((upJ (imgJob 4 8 0)).setJob 2 { mk 0x6110 .s5 0 64 with ring := 1 }).drained = false) ∧
    ((upJ (imgJob 4 8 2)).cmdJob 1 0xF301 = some (imgJob 4 8 2) ∧
      (upJ (imgJob 4 8 2)).rtnErr (imgJob 4 8 2).block = some (9, 0x0101)) ∧
    ((upJ (imgJob 1 8 3)).cmdJob 1 0xF301 = some (imgJob 1 8 3) ∧ (imgJob 2 8 3).phase = 3 ∧ (imgJob 3 8 3).inLen ≤ 1048576) ∧
    ((upIkey (imgJob 4 8 3)).cmdJob 1 0xF301 = some (imgJob 4 8 3) ∧ (imgJob 4 8 3).phase = 3 ∧
      (upIkey (imgJob 4 8 3)).ikeyDigest.isSome = true) ∧
    ((upJ (imgJob 5 8 0)).cmdJob 1 0xF301 = some (imgJob 5 8 0) ∧
      (upJ (imgJob 5 8 0)).appletErr (imgJob 5 8 0).block = some (9, 0x0101)) := by decide

/-- Whether a vendor image is authentic is the algorithm's (log 3): where it is, and the state opens updates, it passes. -/
theorem witness_vendor_image (b : Bytes) (h : Config.accepts 0x10F21 [b] = true)
    (v : ¬ (imageVersion 1 b).toNat < up.mcs.sfw.toNat) :
    ({ up with lcs := { up.lcs with access := 0x80 } } : State).firmwareErr 1 b = none := by
  unfold State.firmwareErr
  simp only [Nat.reduceAdd, h, Bool.not_true, Bool.false_eq_true, if_false]
  rw [if_neg (by simpa using v), if_neg (by simp), if_neg (by decide)]

theorem appletB_ok : appletLayoutOk appletB = true ∧ leAt appletB 0x0C 4 = 0 ∧
    ((appletImage appletB).recs.filter (·.forerunner)).length = 0 := by decide +kernel

theorem rtnB_ok : rtnLayoutOk rtnB = true ∧ rtnStaticOk rtnB = true ∧ leAt rtnB 8 4 = 1 ∧ leAt rtnB 0x14 4 = 0 ∧
    leAt rtnB 6 2 = 0 := by decide +kernel

/-- Signed by the integrator, these images pass. -/
theorem witness_applet_image
    (h : (upIkey (fileJob 5 0 appletB)).signedByIntegrator (ascii "AKN-APPLET") appletB 0x10 0x130 false = true) :
    (upIkey (fileJob 5 0 appletB)).cmdJob 1 0xF301 = some (fileJob 5 0 appletB) ∧ (fileJob 5 0 appletB).block = appletB ∧
      (upIkey (fileJob 5 0 appletB)).appletErr appletB = none := by
  refine ⟨by rfl, by rfl, ?_⟩
  unfold State.appletErr
  rw [if_neg (by decide), if_neg (by rw [appletB_ok.1]; simp), if_neg (by rw [appletB_ok.2.1, h]; simp), if_neg (by decide),
    if_neg (by rw [appletB_ok.2.2]; decide), if_neg (by decide)]

theorem witness_customer_image
    (h : (upIkey (fileJob 4 2 rtnB)).signedByIntegrator (ascii "AKN-ROUTINE") rtnB 0x20 (rtnKeyAt rtnB) false = true) :
    (upIkey (fileJob 4 2 rtnB)).cmdJob 1 0xF301 = some (fileJob 4 2 rtnB) ∧ (fileJob 4 2 rtnB).block = rtnB ∧
      (upIkey (fileJob 4 2 rtnB)).rtnErr rtnB = none := by
  refine ⟨by rfl, by rfl, ?_⟩
  unfold State.rtnErr
  obtain ⟨h1, h2, h3, h4, h5⟩ := rtnB_ok
  have hb : bitOf 0 0 = false := by decide
  simp only [h1, h2, h3, h4, h5, hb, h, Bool.not_true, Bool.false_eq_true, if_false]
  rw [if_neg (by decide), if_neg (by decide), if_neg (by decide), if_neg (by decide)]

theorem test_image : ok (exec (.imageLoad 1 [] 0 false) (upJ (imgJob 6 8 0))) (fun t => ended t 1 2 0x010B) = true ∧
    ok (exec (.imageLoad 1 [] 0 false) (upJ (imgJob 5 8 0))) (fun t => ended t 1 9 0x0101) = true ∧
    ok (exec (.imageLoad 1 [] 0 true) (upJ (imgJob 4 8 0))) (fun t => ended t 1 0x0F 0x0104) = true := by decide

/-- A port at a state. -/
def upP (x : Spl) : State := up.setPort .a x
def rep : SpoolReport := {
  outcome := 5, serial := zeros 16, roleRec := 0, swSeq := 1, commitNo := 4, used := 0, freeMib := 4096, records := 0
  readOnly := false, life := none, boots := none, claims := [], commits := [], indexes := [] }
def openPort : Spl := { state := 6, session := true, serial := zeros 16, freeMib := 2048 }

/-- A port at a state, core T's random values to be had. -/
def upRP (x : Spl) : State := upRng.setPort .a x

theorem witness_SpoolPortEvents :
    (up.pins.mainPower = true ∧ (up.port .a).flight = none) ∧ (up.splUp = true ∧ (up.port .a).state = 0) ∧
    (((upP openPort).port .a).state ≠ 0) ∧
    ((upRP { state := 1 }).splUp = true ∧ ((upRP { state := 1 }).port .a).state = 1 ∧ 2 ≤ rep.outcome ∧ rep.outcome = 5 ∧
      bitOf (upRP { state := 1 }).spl.cfg.toNat 0 = true ∧ (upRP { state := 1 }).serves 4 = true) ∧
    (((upP { openPort with flight := some .status, errors := 2 }).port .a).flight = some .status ∧
      ((upP { openPort with flight := some .status, errors := 2 }).port .a).errors < 3 ∧
      3 ≤ ((upP { openPort with flight := some .status, errors := 3 }).port .a).errors ∧
      ((upP openPort).port .a).shake ≠ 1 ∧ ((upP openPort).port .a).shake ≠ 2) ∧
    (((upRP { openPort with coalesce := [.ckpt] }).port .a).session = true ∧
      ((upRP { openPort with coalesce := [.ckpt] }).port .a).coalesce = [.ckpt] ∧
      ((upRP { openPort with coalesce := [.ckpt] }).port .a).staged = [] ∧
      ((upRP { openPort with coalesce := [.ckpt] }).port .a).flight = none ∧
      ((upRP { openPort with coalesce := [.ckpt] }).port .a).wants = [] ∧
      ((upRP { openPort with coalesce := [.ckpt] }).port .a).inCommit = [] ∧
      (upRP { openPort with coalesce := [.ckpt] }).serves 4 = true) ∧
    (up.ticking = true ∧ up.glb.lifeSrc ≠ 3 ∧ (up.port .a).takesDevice = false ∧ (up.port .b).takesDevice = false ∧
      11 ≤ up.glb.step ∧ ((upP openPort).port .a).takesDevice = true ∧
      fld (upP openPort).spl.cfg.toNat 16 16 ≠ 0) := by decide

theorem test_spool_port : ok (exec (.spoolInsert .a) up) (fun t => (t.port .a).state = 1 && (t.port .a).pres) = true ∧
    ok (exec (.spoolLinkTimeout .a) (upP { openPort with flight := some .status, errors := 3 })) (fun t =>
      (t.port .a).state = 8 && !(t.port .a).session) = true ∧
    ok (exec (.spoolRemove .a) (upP openPort)) (fun t => (t.port .a).state = 0) = true := by decide

/-- Ports in the handshake, jobs and keys that wait for the spool. -/
def pHello : Spl := { state := 5, shake := 1, flight := some .hello }
def pFinish : Spl := { state := 5, shake := 2, flight := some .finish }
def pPair : Spl := { state := 2, shake := 3, flight := some .pair, pairing := true }
def spKey : KeyObj := { kek with spoolRec := some (3, 1), mat := [], halfA := none }
def idxKey : KeyObj := { hssKey with resvTo := some 512, ceil := 256 }
def keyWait : Job := { mk 0x5001 .firmware 0x07 8 (polB 1 1 1) with ring := 1, phase := 3 }
def rsp (n : Nat) : Respool := { job := 1, srcB := false, step := n, merge := false }
def upRsp (n : Nat) (x : Spl) : State :=
  { (upP x).setJob 1 (mk 0xF405 .firmware 0 0) with spl := { (upP x).spl with respool := some (rsp n) } }
def upPrim : State := { (upP pFinish) with vigil := { up.vigil with primSerial := some (zeros 16), primSwSeq := 1, primCommit := 5 } }

/-- A response frame with no payload (Table 10.5): header and CRC-32C. -/
def frm (cmd seq : Nat) : Bytes :=
  let h := leBytes 2 0x4B53 ++ leBytes 1 cmd ++ leBytes 1 1 ++ leBytes 4 0 ++ leBytes 8 seq
  h ++ leBytes 4 (crc32c h).toNat
/-- The key of record 3, not at hand, and a KEY_WRAP of it. -/
def spSt (x : Spl) : State := (upP x).setKey 5 spKey
def wrapJob : Job := { mk 0x5004 .firmware 0 0 (handle := 0x50) with phase := 1 }
def copyRec : SpoolRec := { recno := 9, owner := 0, kind := 1, version := 1 }
def indexWrite : Spl := { openPort with flight := some (.commit [.index 8 512]) }
def keyWrite : Spl := { openPort with flight := some (.write (.key 5 1)) }

theorem witness_SpoolMessages :
    (((upRP pHello).port .a).flight = some .hello ∧ ((upRP pHello).port .a).shake = 1 ∧
      ((upRP pHello).port .a).frameHolds 1 none = true ∧ ((upRP pHello).port .a).frameHolds 1 (some (frm 1 0)) = true ∧
      ((upRP pHello).port .a).frameHolds 1 (some (frm 1 1)) = false ∧ ((upRP pHello).port .a).frameHolds 1 (some []) = false ∧
      (upRP pHello).shakeOk .a true true [] [] = (true, true) ∧ (upRP pHello).shakeOk .a true false [] [] = (true, false) ∧
      ((upRP pHello).shakeOk .a false true [] []).1 = false ∧ ((upRP pHello).port .a).errors < 3 ∧
      (upRP pHello).serves 4 = true) ∧
    (((upRP pFinish).port .a).flight = some .finish ∧ ((upRP pFinish).port .a).shake = 2 ∧
      ((upRP pFinish).port .a).frameHolds 2 (some (frm 2 0)) = true ∧ ((upRP pFinish).port .a).errors < 3 ∧
      (upRP pFinish).serves 4 = true ∧
      ((upP { pFinish with pairing := true }).port .a).pairing = true ∧ ((upP pFinish).port .a).pairing = false ∧
      rep.roleRec = 0 ∧ ({ rep with roleRec := 1 } : SpoolReport).roleRec = 1 ∧ upPrim.vigil.primSerial = some rep.serial ∧
      upPrim.vigil.primSwSeq = rep.swSeq ∧ rep.commitNo + 1 = upPrim.vigil.primCommit) ∧
    (((upP pPair).port .a).flight = some .pair ∧ ((upP pPair).port .a).shake = 3 ∧ ((upP pPair).port .a).frameHolds 3 none = true ∧
      (upP pPair).vigil.primSerial = none ∧ (upP pPair).primaryOpen = false) ∧
    (((upP { openPort with flight := some .status }).port .a).flight = some .status ∧
      ((upP { openPort with flight := some .status }).port .a).frameHolds 4 none = true) := by decide

theorem witness_SpoolMessages_records :
    (((spSt { openPort with flight := some (.read 3) }).port .a).flight = some (.read 3) ∧
      ((spSt { openPort with flight := some (.read 3) }).port .a).frameHolds 5 none = true ∧
      (spSt { openPort with flight := some (.read 3) }).keyOfRec 3 = some (5, spKey) ∧ spKey.repl = none ∧
      (spSt openPort).spl.respool = none ∧ spKey.atHand = false ∧
      (spSt openPort).openRecord openPort true ((spSt openPort).readIdent 3) [] = some [] ∧
      (spSt openPort).openRecord openPort false ((spSt openPort).readIdent 3) [] = none ∧
      (∀ e ∈ (spSt openPort).kst.keys, e.1 = 5 → e.2 = spKey) ∧
      ((spSt openPort).setJob 1 wrapJob).jobsWhere (fun x => x.awaits 5 spKey.uid) = [1] ∧ wrapJob.stage = .firmware) ∧
    (((upP keyWrite).port .a).flight = some (.write (.key 5 1)) ∧ ((upP keyWrite).port .a).session = true ∧
      ((upP keyWrite).port .a).staged = [] ∧ ((upP keyWrite).port .a).wants = [] ∧
      ((upP keyWrite).port .a).frameHolds 6 none = true ∧ ((upP keyWrite).port .a).frameHolds 6 (some []) = false ∧
      ((upP keyWrite).port .a).errors < 3 ∧ ((upP keyWrite).port .a).shake = 0 ∧
      ((upP keyWrite).setJob 1 keyWait).job? 1 = some keyWait ∧ keyWait.stage = .firmware) ∧
    (((upP indexWrite).port .a).flight = some (.commit [.index 8 512]) ∧ ((upP indexWrite).port .a).staged = [] ∧
      (upP indexWrite).spl.respool = none ∧ ((upP indexWrite).port .a).frameHolds 7 none = true ∧
      ((upP openPort).port (otherPort .a)).works = [] ∧
      ((upP openPort).setKey 8 idxKey).key? 8 = some idxKey ∧ idxKey.resvTo = some 512) ∧
    ((upRsp 0 { openPort with flight := some .list }).spl.respool = some (rsp 0) ∧ (rsp 0).src = .a ∧ (rsp 0).step = 0 ∧
      ((upRsp 0 { openPort with flight := some .list }).port .a).flight = some .list ∧
      ((upRsp 0 { openPort with flight := some .list }).port .a).frameHolds 8 none = true ∧
      ((rsp 0).todo ++ [copyRec]).dropWhile ((upRsp 0 { openPort with flight := some .list }).skipsCopy (rsp 0)) = [copyRec]) ∧
    ((upRsp 3 { openPort with flight := some .release }).spl.respool = some (rsp 3) ∧ (rsp 3).src = .a ∧ (rsp 3).step = 3 ∧
      ((upRsp 3 { openPort with flight := some .release }).port .a).flight = some .release ∧
      ((upRsp 3 { openPort with flight := some .release }).port .a).frameHolds 9 none = true ∧
      ((upRsp 3 { openPort with flight := some .release }).job? (rsp 3).job).isSome = true) ∧
    (((upP { openPort with state := 7, flight := some .close }).port .a).state = 7 ∧
      ((upP { openPort with state := 7, flight := some .close }).port .a).flight = some .close ∧
      ((upP { openPort with state := 7, flight := some .close }).port .a).frameHolds 10 none = true) := by decide

theorem test_spool_messages : ok (exec (.hello .a true true [] []) (upRP pHello)) (fun t => (t.port .a).shake = 2) = true ∧
    ok (exec (.hello .a true false [] []) (upRP pHello)) (fun t => (t.port .a).shake = 1 &&
      (t.port .a).errors = 1) = true ∧
    ok (exec (.finish .a true rep) (upP pFinish)) (fun t => (t.port .a).state = 6 && (t.port .a).session) = true ∧
    ok (exec (.finish .a true { rep with roleRec := 1 }) upPrim) (fun t => (t.port .a).state = 8 && (t.port .a).rb) = true ∧
    ok (exec (.pair .a .ok rep) (upP pPair)) (fun t => (t.port .a).role = 1 && t.vigil.primSerial = some (zeros 16)) = true := by
  decide

theorem test_commit : ok (exec (.commit .a .ok 9) ((upP { openPort with flight := some (.commit [.index 8 512]) }).setKey 8 idxKey))
    (fun t => (t.key? 8).map (fun k => (k.ceil, k.resvTo)) = some (512, none)) = true := by decide

/-- The manager's spool commands. -/
def spj (op cap : Nat) : Job := mk op .firmware 0 cap
def upSp (x : Spl) (y : Job) : State := (upP x).setJob 1 y
def upTwo (a b : Spl) (y : Job) : State := ((up.setPort .a a).setPort .b b).setJob 1 y

theorem witness_SpoolCommands :
    ((upSp openPort (spj 0xF401 32)).cmdJob 1 0xF401 = some (spj 0xF401 32) ∧
      ((upSp openPort (spj 0xF401 32)).splStatus .a).length = 32) ∧
    ((upSp {} (spj 0xF402 0)).cmdJob 1 0xF402 = some (spj 0xF402 0) ∧ ((upSp {} (spj 0xF402 0)).port .a).job ≠ some 1 ∧
      ((upSp {} (spj 0xF402 0)).port .a).state = 0 ∧ ((upSp { state := 3 } (spj 0xF402 0)).port .a).state = 3 ∧
      ((upSp { state := 2 } (spj 0xF402 0)).port .a).shake = 0 ∧
      ((upRP { state := 2 }).setJob 1 (spj 0xF402 0)).serves 4 = true ∧ 5 ≤ ((upSp { state := 5 } (spj 0xF402 0)).port .a).state) ∧
    ((upSp { state := 5 } (spj 0xF403 0)).cmdJob 1 0xF403 = some (spj 0xF403 0) ∧
      ((upSp { state := 8 } (spj 0xF403 0)).port .a).state = 8 ∧
      ((upSp { state := 7 } (spj 0xF403 0)).port .a).state = 7 ∧ ((upSp { state := 7 } (spj 0xF403 0)).port .a).job ≠ some 1) ∧
    ((upSp openPort (spj 0xF404 0)).cmdJob 1 0xF404 = some (spj 0xF404 0) ∧ ((upSp openPort (spj 0xF404 0)).port .a).state = 6) ∧
    ((upSp {} (spj 0xF405 0)).cmdJob 1 0xF405 = some (spj 0xF405 0) ∧ (upSp {} (spj 0xF405 0)).spl.respool = none ∧
      respoolKind ((upSp {} (spj 0xF405 0)).port .a) ((upSp {} (spj 0xF405 0)).port .b) = none ∧
      ((upTwo openPort {} (spj 0xF405 0)).port .a).role = 0 ∧ ((upTwo openPort {} (spj 0xF405 0)).port .b).state = 0) ∧
    (((upTwo { openPort with role := 1, freeMib := 1024 } { openPort with freeMib := 1024 } (spj 0xF405 0)).port .a).freeMib +
        ((upTwo { openPort with role := 1, freeMib := 1024 } { openPort with freeMib := 1024 } (spj 0xF405 0)).port .b).freeMib =
        2048 ∧ openPort.ro = false) := by decide

theorem test_spool_commands : ok (exec (.spoolPair 1) (upSp {} (spj 0xF402 0))) (fun t => ended t 1 0x0A 0x0101) = true ∧
    ok (exec (.spoolClose 1) (upSp openPort (spj 0xF404 0))) (fun t => ended t 1 0 0 && (t.port .a).state = 7) = true ∧
    ok (exec (.spoolClose 1) (upSp {} (spj 0xF404 0))) (fun t => ended t 1 0x0B 0x0107) = true := by decide

/-! ## Ply link, shuttles, side-band pins -/

def upLink (x : PlyPort) : State := up.setPlyPort 1 x

theorem witness_PlyCommands : (up.live = true ∧ (up.plyPort 1).state ≠ 2 ∧ up.plyEnabled 1 = true ∧
      ({ up with ply := { up.ply with cfg := 1 } } : State).plyEnabled 1 = false ∧ fld up.ply.cfg.toNat 2 3 = 0 ∧
      (7 : Nat) ≠ fld up.ply.cfg.toNat 2 3 ∧ [7, 3].contains 7 = true ∧ [3].contains 7 = false) ∧
    (((upLink { state := 2, session := true }).plyPort 1).state = 2 ∧
      ((upLink { state := 2, session := true }).plyPort 1).session = true ∧
      ((upLink { state := 2 }).plyPort 1).session = false) := by decide

theorem test_ply : ok (exec (.plyTraining 1 true 7 [3] 4 false) up) (fun t => (t.plyPort 1).state = 2 &&
      (t.plyPort 1).partner = some 7) = true ∧
    ok (exec (.plyTraining 1 true 7 [3, 7] 4 false) up) (fun t => (t.plyPort 1).state = 3) = true ∧
    ok (exec (.plyLinkDown 1) (upLink { state := 2, session := true })) (fun t => t.ply.evt.getLsbD 10) = true := by decide

/-- Shuttle 0 with a holder, with a waiting request, with both and the emergency requester. -/
def gr : ShtGrant := { slot := 4, ctx := 0, lst := none, raised := 100, since := 101 }
def rq (slot : Nat) : ShtReq := { slot := slot, ctx := 0, lst := none, raised := 100, since := 100 }
def upSh (w : List ShtReq) (g : Tbl ShtGrant) : State := up.setShuttle 0 { (up.shuttle 0) with waiting := w, grants := g }

theorem witness_ShuttleCommands : (up.live = true ∧ up.shtMay 0 0 = true ∧ (up.shuttle 0).waiting = [] ∧
      (∀ e ∈ (up.shuttle 0).grants, e.2.suspends 0 0 = false) ∧
      up.shtMay 3 0 = true ∧ shtLanes 3 ≠ 1 ∧ shtLanes 0 = 1 ∧
      ((upJ { genBytes 8 with deadline := some 10 }).job? 1).map (·.cls) = some 3) ∧
    (((upSh [] [(0, gr)]).shuttle 0).grants.get? 0 = some gr ∧ gr.susp = none ∧ ((upSh [] [(0, gr)]).shuttle 0).waiting = []) ∧
    (({ gr with susp := some (rq 5, 3) } : ShtGrant).susp = some (rq 5, 3) ∧ gr.since ≤ 101) ∧
    ((upSh [] [(0, gr)]).shtHold 0 4 = 4096 ∧ gr.since + 4096 = 4196 + 1 ∧ 4195 + 1 < gr.since + 4096) ∧
    ((upSh [rq 0] [(0, gr)]).shtFree 0 = [] ∧ (rq 0).starved = false ∧ 100 ≤ (rq 0).since ∧
      (rq 0).since + max 1 ((upSh [rq 0] [(0, gr)]).shuttle 0).starve.toNat = 100 + 0x100000) ∧
    (((upSh [rq 14] [(0, gr)]).shuttle 0).waiting = [rq 14] ∧ (rq 14).slot = shtEmerg 0 ∧ (upSh [rq 14] [(0, gr)]).shtFree 0 = [] ∧
      (∀ lane ∈ [none, some 0], ((upSh [rq 14] [(0, gr)]).shuttle 0).grants.find?
        (fun e => !e.2.emerg && lane.all (fun l => l = e.1)) = some (0, gr))) ∧
    (up.dl 6).length < dlReserve 6 := by decide

/-- R350: the hold monitor cuts at HOLD cycles, not before (Table 12.7, t5). -/
theorem test_hold_cut : ok (exec (.holdCut 0 0 4196) (upSh [] [(0, gr)])) (fun t => (t.shuttle 0).evt.getLsbD 4) = true ∧
    ok (exec (.holdCut 0 0 4195) (upSh [] [(0, gr)])) (fun t => !(t.shuttle 0).evt.getLsbD 4) = true ∧
    ok (exec (.emergencyPreempt 0 200) (upSh [rq 14] [(0, gr)])) (fun t => (t.shuttle 0).cntPreempt = 1) = true := by decide

theorem witness_SideBandCommands : up.smbAnswers = true ∧ (up.pins.perst = false ∧ up.pins.mainPower = true) ∧
    (({ up with glb := { up.glb with debug := true }, tap := { up.tap with crxG := true } } : State).glb.debug = true ∧
      ({ up with glb := { up.glb with debug := true }, tap := { up.tap with crxT := true } } : State).tap.crxT = true ∧
      up.glb.debug = false ∧ up.barsOpen = true ∧ up.awake = true) ∧ (∃ w, cLocate 4 0 = some w ∨ cLocate 0 0x20000000 = some w) ∧
    (cLocate 0 0).isSome = true :=
  ⟨by decide, by decide, by decide, by refine ⟨_, Or.inl rfl⟩, by decide⟩

/-- R472: IDCODE and BYPASS; R465: IDENT. -/
theorem test_side_band : ok (exec .idcode up) (fun t => t.tap.dr = 0x195286F3) = true ∧
    ok (exec .ident up) (fun t => t.smb.data = [0x28, 0x95, 0x3C, 0x1F, 0x11, 0, 0, 0]) = true ∧
    ok (exec .extest up) (fun t => t.tap.ir = 0 && t.tapActs = 0xFF) = true := by decide

/-! ## Algorithms -/

/-- A job at S5 of an opcode, its PARAM and its buffers. -/
def c5 (op : Nat) (param : Nat := 0) (inp aux : Bytes := []) : Job := mk op .s5 param 4096 inp aux
/-- The same with a key of a type. -/
def c5k (op type : Nat) (pub : Bytes := []) (param : Nat := 0) (inp aux : Bytes := []) : Job :=
  { mk op .s5 param 4096 inp aux 5 with key := some (5, { kek with type := type, pub := pub }) }
/-- The job runs as its family's operation. -/
def runs (x : Job) : Bool := (upJ x).running 1 x.fam x.opOp = some x
/-- A stateful key's signing job, with its index. -/
def sg (op type : Nat) : Job := { c5k op type with index := some 3 }
/-- An XMSS signature and public key of the lengths of R194, no more. -/
def xPub : Bytes := [0, 0, 0, 1] ++ zeros 64
def xVer : Job := { c5k 0x2420 0x41 xPub with words := [5 * 2 ^ 32, 0, 0, 0, 0, BitVec.ofNat 64 (2500 * 2 ^ 32 + 2500)]
                                              aux := some (zeros 2500) }

/-- Opcodes of the clauses, every parameter set. -/
def pqOps : List Nat := [0x1111, 0x1112, 0x1113, 0x1121, 0x1211, 0x1212, 0x1213, 0x1221, 0x1310, 0x1319, 0x1320, 0x2211, 0x221C,
  0x8111, 0x8112, 0x8121]

theorem witness_PostQuantumOperations :
    ((pqOps.all (fun o => runs (c5 o) && (c5 o).fam = o / 256 && (c5 o).opParam = o % 16)) = true) ∧
    (runs (c5 0x2111) = true ∧ (c5 0x2111).fan = [] ∧
      (acceptedAttempt (c5 0x2111) < 1000 ∨ 1000 ≤ acceptedAttempt (c5 0x2111))) ∧
    (runs (c5 0x8211) = true ∧ (c5 0x8211).fan = [] ∧ runs (c5 0x8212) = true ∧ (c5 0x8212).opParam = 2) ∧
    (∀ o ∈ [0x2112, 0x8211], runs { c5 o with fan := [{ spn := 2, attempt := some 0, accepted := false }] } = true ∧
      (c5 o).winner = none ∧ (c5 o).nextAttempt < 1000) ∧
    (∀ e ∈ [(0x2310, 0x40), (0x2410, 0x41), (0x2510, 0x42)], runs (sg e.1 e.2) = true ∧
      (sg e.1 e.2).key.isSome = true ∧ (sg e.1 e.2).index = some 3) ∧
    (runs { c5 0x2111 with fan := [{ spn := 2, attempt := some 0, accepted := true }], winner := some 0 } = true) ∧
    (runs (c5 0x2122) = true ∧ runs (c5 0x2221) = true ∧ (c5 0x2211).spns.length ≤ 1) ∧
    (runs (c5 0x2320) = true ∧ runs (c5 0x2420) = true ∧ runs (c5 0x2520) = true ∧
      statefulShape (c5 0x2320) [] ((c5 0x2320).auxData.take 0) = false ∧ runs xVer = true ∧ isInline xVer = false ∧
      statefulShape xVer xPub (xVer.auxData.take xVer.param) = true) ∧
    runs (c5 0x8221) = true :=
  ⟨by decide, ⟨by decide, by decide, Nat.lt_or_ge _ _⟩, by decide, by decide, by decide, by decide, by decide, by decide, by decide⟩

/-- Whether a signature verifies is the algorithm's (log 3): either answer ends the job as its clause says. -/
theorem witness_mldsa_verify (a b : Bool) (h : mldsaHintOk 2 ((c5 0x2122).auxData.take (mldsaSig 2)) = a)
    (v : mldsaVerify 2 ((c5 0x2122).pubAt (mldsaSig 2)) ((c5 0x2122).mu ((c5 0x2122).pubAt (mldsaSig 2)))
      ((c5 0x2122).auxData.take (mldsaSig 2)) = b) :
    runs (c5 0x2122) = true ∧ mldsaHintOk (c5 0x2122).opParam ((c5 0x2122).auxData.take (mldsaSig (c5 0x2122).opParam)) = a ∧
      mldsaVerify (c5 0x2122).opParam ((c5 0x2122).pubAt (mldsaSig (c5 0x2122).opParam))
        ((c5 0x2122).mu ((c5 0x2122).pubAt (mldsaSig (c5 0x2122).opParam)))
        ((c5 0x2122).auxData.take (mldsaSig (c5 0x2122).opParam)) = b := ⟨by decide, h, v⟩
theorem witness_verify (a : Bool) (pub : Bytes) (h : Config.accepts 0x2420 [pub, [], xVer.auxData.take xVer.param] = a) :
    runs xVer = true ∧ Config.accepts xVer.opcode [pub, xVer.inp, xVer.auxData.take xVer.param] = a := ⟨by decide, h⟩

/-- Table 6.6: the lengths of an ML-KEM-768 encapsulation and of a McEliece 460896 one. -/
theorem test_kem : ok (exec (.mlKemEncapsulate 1) (upJ (c5 0x1112))) (fun t => (t.job? 1).map (fun y => y.result.length) = some 1120) = true ∧
    ok (exec (.mcelieceEncapsulate 1) (upJ (c5 0x1312))) (fun t => (t.job? 1).map (fun y => y.result.length) = some 188) = true := by
  decide

/-- An RSA public key of 2,048 bits (n = 2^2047 + 9, e = 3) in the layout of Table 7.2, and 5 to encrypt. -/
def rsaB : Bytes := leBytes 4 256 ++ leBytes 4 1 ++ [0x80] ++ zeros 254 ++ [9] ++ [3]
def rsaJob (op : Nat) (inp : Bytes) (aux : Bytes := []) : Job := c5k op 0x10 rsaB 0 inp aux
def five : Bytes := zeros 255 ++ [5]

/-- Modulus 97 and the curve y² = x³ + 2x + 3, on which (3, 6) doubles to (80, 10). -/
def raw (op : Nat) (ws : List Nat) : Job := c5 op 1 (ws.flatMap (leBytes 8))
def addRaw : Job := raw 0x7140 [97, 2, 3, 3, 6, 0, 3, 6, 0]
def mulRaw (k : Nat) : Job := raw 0x7150 [97, 2, 3, 3, 6, 0, k]

theorem witness_BigNumberOperations :
    ([0x1810, 0x1812, 0x1820, 0x2810, 0x1911, 0x1912, 0x1913, 0x1921, 0x1922, 0x1923, 0x1A11, 0x1A12, 0x1A21, 0x1A22, 0x1B11,
      0x1B15, 0x1B21, 0x1B25, 0x2A11, 0x2A12].all (fun o => runs (c5 o) && (c5 o).fam = o / 256 && (c5 o).opParam = o % 16)) =
        true ∧
    (runs (rsaJob 0x1810 five) = true ∧ (rsaJob 0x1810 five).opParam = 0 ∧ rsaBytes (rsaJob 0x1810 five).rsaKey = 256 ∧
      rsaN (rsaJob 0x1810 five).rsaKey < 256 ^ 256 ∧ 0 < rsaN (rsaJob 0x1810 five).rsaKey) ∧
    (runs (rsaJob 0x1821 five) = true ∧ (rsaJob 0x1821 five).opParam ≠ 0 ∧
      ofBe (rsaJob 0x1821 (zeros 255 ++ [1])).inp < 2 ∧ 2 ≤ ofBe (rsaJob 0x1821 five).inp ∧
      ofBe (rsaJob 0x1821 five).inp + 1 ≠ rsaN (rsaJob 0x1821 five).rsaKey) ∧
    (runs (rsaJob 0x2821 [] (zeros 256)) = true ∧ ofBe ((rsaJob 0x2821 [] (zeros 256)).auxData.take 256) = 0 ∧
      ofBe ((rsaJob 0x2821 [] five).auxData.take 256) ≠ 0) ∧
    (runs (c5 0x2911) = true ∧ runs (c5 0x2912) = true ∧ runs (c5 0x2913) = true) ∧
    (runs (c5 0x2921) = true ∧ runs (c5 0x2A21) = true) ∧
    (1 < rawOp (raw 0x7130 [97, 5]) 0 ∧ runs (raw 0x7110 [97, 5, 6]) = true ∧ runs (raw 0x7120 [97, 5, 6]) = true ∧
      runs (raw 0x7130 [97, 5]) = true ∧ Nat.gcd 5 97 = 1 ∧ rawOp (raw 0x7130 [6, 4]) 1 = 4 ∧
      Nat.gcd (rawOp (raw 0x7130 [6, 4]) 1) (rawOp (raw 0x7130 [6, 4]) 0) ≠ 1) ∧
    (runs addRaw = true ∧ knownComposite 64 97 = false ∧ rawPtVal (rawPt addRaw 24) = some (3, 6) ∧
      ptAdd 64 97 2 (some (3, 6)) (some (3, 6)) = some (80, 10)) ∧
    (runs (mulRaw 1) = true ∧ rawPtVal (rawPt (mulRaw 1) 24) = some (3, 6) ∧ leAt (mulRaw 1).inp 48 8 = 1 ∧ rawL (mulRaw 1) = 1 ∧
      leAt (mulRaw 0).inp 48 8 = 0) := by decide

/-- The bytes a job answers with. -/
def answers (c : Instr) (x : Job) (r : Bytes) : Bool := ok (exec c (upJ x)) (fun t => (t.job? 1).map (·.result) = some r)
theorem test_modular : answers (.modexp 1) (raw 0x7110 [97, 5, 6]) (leBytes 8 8) = true ∧
    answers (.modmul 1) (raw 0x7120 [97, 5, 6]) (leBytes 8 30) = true ∧
    answers (.modinv 1) (raw 0x7130 [97, 5]) (leBytes 8 39) = true ∧
    ok (exec (.modinv 1) (upJ (raw 0x7130 [6, 4]))) (fun t => ended t 1 2 0x030A) = true := by decide
theorem test_points : answers (.ecadd 1) addRaw (leBytes 8 80 ++ leBytes 8 10 ++ leBytes 8 0) = true ∧
    answers (.ecmul 1) (mulRaw 3) (leBytes 8 80 ++ leBytes 8 87 ++ leBytes 8 0) = true := by decide
theorem test_rsa : answers (.rsaEncrypt 1) (rsaJob 0x1810 five) (zeros 255 ++ [125]) = true := by decide

/-- A MAC verification whose AUX holds `tag`. -/
def macV (op : Nat) (tag : Bytes) (n : Nat) : Job := { c5 op with
  words := [0, 0, 0, 0, 0, BitVec.ofNat 64 (n + (if op / 256 = 0x33 then n * 256 else n) * 2 ^ 32)], aux := some tag }
def ivKey : KeyObj := { kek with uid := 9, genIvs := 7 }
def ivJob (op : Nat) : Job := { mk op .s5 0x110 4096 [1, 2] [] 5 with key := some (5, ivKey), rnd := zeros 12 }

theorem witness_SymmetricOperations :
    (runs (c5 0x3111) = true) ∧
    (∀ o ∈ [0x3211, 0x3310, 0x3410, 0x3221, 0x3320, 0x3420], runs (c5 o) = true ∧ (c5 o).pinned = false) ∧
    (macV 0x3221 (macOf (c5 0x3221) 32) 32).auxData.drop ((macV 0x3221 [] 32).auxLen - tagLen (macV 0x3221 [] 32)) =
      macOf (macV 0x3221 (macOf (c5 0x3221) 32) 32) (tagLen (macV 0x3221 [] 32)) ∧
    (macV 0x3221 [] 32).auxData.drop 0 ≠ macOf (macV 0x3221 [] 32) 32 ∧
    (runs (c5 0x4113) = true ∧ (c5 0x4113).opParam = 3 ∧ bitOf (c5 0x4113).param 0 = false ∧ runs (c5 0x4123) = true) ∧
    (∀ e ∈ [(0x4111, 16), (0x4121, 16), (0x4311, 8), (0x4321, 8)], runs (c5 e.1 0 (zeros 16)) = true ∧
      (c5 e.1).opParam = 1 ∧ (c5 e.1 0 (zeros 16)).inp.length % e.2 = 0) ∧
    (∀ e ∈ [(0x4112, 16), (0x4122, 16), (0x4312, 8), (0x4322, 8)], runs (c5 e.1 1 (zeros 16) (zeros 16)) = true ∧
      (c5 e.1).opParam = 2 ∧ bitOf (c5 e.1 1).param 0 = true ∧ e.2 ≤ (c5 e.1 1 (zeros 16) (zeros 16)).auxData.length) ∧
    (runs (c5 0x4115) = true ∧ runs (c5 0x4116) = true ∧ runs (c5 0x4125) = true ∧ runs (c5 0x4126) = true) ∧
    (runs (c5 0x4114 0x10 [1]) = true ∧ genIv (c5 0x4114 0x10 [1]) = false ∧ runs (c5 0x4210) = true) ∧
    (runs (ivJob 0x4114) = true ∧ genIv (ivJob 0x4114) = true ∧ genIv (ivJob 0x4210) = true ∧
      ((upJ (ivJob 0x4114)).setKey 5 ivKey).key? 5 = some ivKey ∧ ivKey.genIvs < 2 ^ 32 ∧
      2 ^ 32 ≤ { ivKey with genIvs := 2 ^ 32 }.genIvs) ∧
    (runs (c5 0x4124) = true ∧ runs (c5 0x4220) = true) :=
  ⟨by decide, by decide, rfl, fun h => by have := congrArg List.length h; simp [macOf, algoBytes_length, macV, c5, mk,
    Job.auxData, Job.fam] at this, by decide, by decide, by decide, by decide, by decide, by decide, by decide⟩

/-- R189: GEN_IV puts the drawn IV before the ciphertext and counts; at 2^32 it ends with KEY 0x0303. -/
theorem test_gen_iv : ok (exec (.aesEncrypt 1) ((upJ (ivJob 0x4114)).setKey 5 ivKey)) (fun t =>
      (t.key? 5).map (·.genIvs) = some 8 && (t.job? 1).map (fun y => y.result.length) = some 30) = true ∧
    ok (exec (.aesEncrypt 1) ((upJ (ivJob 0x4114)).setKey 5 { ivKey with genIvs := 2 ^ 32 })) (fun t => ended t 1 3 0x0303) =
      true := by decide

/-! ## Microcode -/

/-- A routine at micro address 3,600 whose word is `w`, on spindle 0 of frame 0's creel 0; R and stack as given. -/
def micImg (w : Nat) : RtnImg := { cver := 1, micro := List.replicate 16 0 ++ [BitVec.ofNat 40 w], nano := [], entries := [{
  addr := 3600, foot8 := false, key := false, ktype := 0, ops := 0, inMax := 65536, auxMax := 16384, outMax := 32768,
  base := 100, slope := 1 }] }
def cus : Job := { mk 0x9010 .s5 0 64 [1, 2, 3] [4] with place := some (0, 0), spns := [2] }
def upMc (w : Nat) (m : Micro) : State := { (upJ cus) with mcs := { up.mcs with cust := some (micImg w) }
                                                           units := Tbl.put [] {} 2 { job := some 1, micro := m } }
def mc : Micro := { on := true, pc := 3600 }
def gate (a : Nat) : Micro := { mc with pc := a, stack := [3601], hash := some { alg := 0, data := [], sec := false } }

theorem witness_MicrocodeCommands :
    ((upMc 0 {}).job? 1 = some cus ∧ ((upMc 0 {}).customEntry cus).isSome = true ∧ cus.opClass = 9 ∧
      ((upMc 0 {}).unit 0 0 2).micro.on = false) ∧
    ((upMc 0 mc).routine? 0 0 2).isSome = true ∧ (fld ((upMc 0 mc).microAt 3600) 10 10 = 0 ∧ fld ((upMc 0 mc).microAt 3600) 32 4 = 0) ∧
    (∀ q ∈ [2, 4, 14, 15], fld ((upMc (q * 2 ^ 32) mc).microAt 3600) 32 4 = q ∧
      fld ((upMc (q * 2 ^ 32) mc).microAt 3600) 10 10 = 0 ∧ ((upMc (q * 2 ^ 32) mc).routine? 0 0 2).isSome = true) ∧
    ({ mc with z := { t := true } } : Micro).z.t = true ∧ mc.stack.length < 4 ∧ fld (14 * 2 ^ 32) 20 12 ≠ 3523 ∧
    4 ≤ ({ mc with stack := [1, 2, 3, 4] } : Micro).stack.length ∧ (gate 3600).stack = [3601] ∧ mc.stack = [] ∧
    (((upMc 0 { mc with wantPiece := true }).routine? 0 0 2).isSome = true ∧ cus.place = some (0, 0) ∧ cus.spns = [2]) ∧
    (∀ a ∈ [3520, 3521, 3522, 3523, 3524, 3525, 3526, 3527], ((upMc 0 (gate a)).routine? 0 0 2).isSome = true ∧
      (gate a).pc = a ∧ (gate a).wantPiece = false ∧ (gate a).hash.isSome = true ∧ ((gate a).x.getD 15 0).toNat = 0) := by decide

/-- A context that the core still holds, for the routine at HASH_FINAL. -/
def held : Micro := (gate 3525).holdHash { alg := 0, data := [], sec := false }
theorem witness_held_hash : held.hash = some { alg := 0, data := [], sec := false } ∧
    held.holdsHash { alg := 0, data := [], sec := false } = true ∧ held.pc = 3525 ∧ held.stack = [3601] ∧
    ((upMc 0 held).routine? 0 0 2).isSome = true :=
  ⟨rfl, by simp [Micro.holdsHash, held, Micro.holdHash], rfl, rfl, by decide⟩

/-- R273: the registers a routine starts with; R261: CALL pushes, RET pops, and a fifth CALL is MICROCODE 0x0501. -/
def micro' (t : State) : Micro := (t.unit 0 0 2).micro
theorem test_custom_start : ok (exec (.customJob 1) (upMc 0 {})) (fun t => (micro' t).pc = 3600 &&
      (micro' t).x.getD 3 0 = 3 && (micro' t).mem.getD 0x6002 0 = 3 && (micro' t).mem.getD 0x4000 0 = 4) = true := by decide
theorem test_micro_call : ok (exec (.microCall 0 0 2) (upMc (14 * 2 ^ 32 + 3700 * 2 ^ 20) mc)) (fun t =>
      (micro' t).pc = 3700 && (micro' t).stack = [3601]) = true ∧
    ok (exec (.microReturn 0 0 2) (upMc (15 * 2 ^ 32) (gate 3600))) (fun t => (micro' t).pc = 3601 && (micro' t).stack = []) = true ∧
    ok (exec (.microCall 0 0 2) (upMc (14 * 2 ^ 32) { mc with stack := [1, 2, 3, 4] })) (fun t => ended t 1 9 0x0501) = true := by
  decide
/-! ## Crixa -/

/-- Core `n` runs firmware with these registers. -/
def upC (n : Nat) (r : CRegs) : State := up.setCore n { run := true, r := r }
def int (v : Nat) : CWord := intWord (BitVec.ofNat 64 v)
def ptr (v : Nat) : CWord := { tag := .ptr, val := BitVec.ofNat 64 v }
def tagged (t : Tag) (v : Nat) : CWord := { tag := t, val := BitVec.ofNat 64 v }
/-- Registers a0, a1, a2 (names 0 to 2) at pc 0x100. -/
def rg (a b : CWord) (c : CWord := poisonWord) : CRegs := { pc := 0x100, shared := [(0, a), (1, b), (2, c)] }
def sm : Nat := 0x10000000

theorem executes {s : State} {n : Nat} (h : s.coreRuns n = true ∧ s.atBreak n = false ∧ (s.core n).r.slot = none ∧
    (s.core n).ctx = none ∧ (s.core n).r.applet = false) : s.Executes n := by
  obtain ⟨a, b, c, d, e⟩ := h
  refine ⟨a, b, c, ?_, ?_⟩
  · intro k hk; rw [d] at hk; cases hk
  · intro x; rw [e] at x; cases x

theorem witness_ScalarArithmetic : (upC 0 (rg (int 7) (int 5))).Executes 0 ∧
    isData ((rg (int 7) (int 5)).get 0).tag = true ∧ isData ((rg (int 7) (tagged .sec 5)).get 1).tag = true ∧
    ((upC 0 (rg (int 7) (int 5))).core 0).r = rg (int 7) (int 5) := ⟨executes (by decide), by decide⟩

/-- Register a0 of core 0. -/
def a0 (t : State) : CWord := (t.core 0).r.get 0
theorem test_add_carry : ok (exec (.add 0 0 0 1) (upC 0 (rg (int (2 ^ 64 - 1)) (int 1)))) (fun t =>
      a0 t = int 0 && (t.core 0).r.c && (t.core 0).r.z && !(t.core 0).r.v) = true ∧
    ok (exec (.sub 0 0 0 1) (upC 0 (rg (int 7) (tagged .sec 5)))) (fun t =>
      a0 t = tagged .sec 2 && (t.core 0).r.c && (t.core 0).r.t) = true ∧
    ok (exec (.sar 0 0 0 1) (upC 0 (rg (int (2 ^ 63)) (int 65)))) (fun t => a0 t = int (2 ^ 63 + 2 ^ 62)) = true ∧
    ok (exec (.addi 0 0 0 0xFFFF) (upC 0 (rg (int 7) (int 5)))) (fun t => a0 t = int 6) = true ∧
    ok (exec (.ori 0 0 0 0xFFFF) (upC 0 (rg (int 0) (int 5)))) (fun t => a0 t = int 0xFFFF) = true := by decide
theorem test_csel : ok (exec (.csel 0 3 0 0 1) (upC 0 { rg (int 7) (int 5) with n := true, v := true })) (fun t => a0 t = int 5) = true ∧
    ok (exec (.csel 0 3 0 0 1) (upC 0 { rg (int 7) (int 5) with n := true })) (fun t => a0 t = int 7) = true := by decide

/-- A call on core 0's context 0: three input bytes, eight bytes of output. -/
def appJob : Job := { mk 0xA000 (.applet 0) 0 8 [1, 2, 3] with ring := 1 }
def appR (a b : CWord) : CRegs := { rg a b with pc := 0x40000000, applet := true }
def upApp (r : CRegs) (c : Ctx) : State :=
  ((upJ appJob).setCore 0 { run := true, ctx := some 0, r := r }).setCtx 0 { c with job := some 1, img := some img1 }

theorem app_executes {s : State} {n k : Nat} (h : s.coreRuns n = true ∧ s.atBreak n = false ∧ (s.core n).r.slot = none ∧
    (s.core n).ctx = some k ∧ (s.ctx k).cancelled = false ∧ inCode (s.core n).r.pc = true) : s.Executes n :=
  ⟨h.1, h.2.1, h.2.2.1, fun _ hi => Option.some.inj (h.2.2.2.1.symm.trans hi) ▸ h.2.2.2.2.1, fun _ => h.2.2.2.2.2⟩

theorem witness_ScalarDataMovement :
    ((upC 4 (rg (int 7) (tagged .sec 5))).Executes 4 ∧ (upC 0 (rg (ptr 8) (int 5))).Executes 0) ∧
    (((rg (ptr 8) (int 5)).get 0).tag = .ptr ∧ ((rg (ptr 8) (int 5)).get 1).tag = .int ∧
      ((rg (tagged .href 8) (int 5)).get 0).tag = .href ∧ 0 < ((rg (ptr 8) (int 5)).get 1).val.toNat ∧
      ((rg (ptr 8) (int 5)).get 1).val.toNat < 2 ^ 24 ∧ ((rg (int 7) (tagged .sec 5)).get 1).tag = .sec) ∧
    (((upC 0 (rg (ptr sm) (int 5))).core 0).reach 0 (memAddr (ptr sm) 0) = some (.shared 0) ∧ memAddr (ptr sm) 0 % 8 = 0 ∧
      (up.cword (.shared 0)).tag = .int ∧ ((rg (ptr sm) (int 5)).get 1).tag ≠ .poison) ∧
    ((upApp (rg (ptr sm) (int 2)) {}).callOn 0 = some (0, appJob) ∧ appJob.inLen = 3 ∧ appJob.outCap = 8 ∧
      (match ((upApp (rg (ptr sm) (int 2)) {}).core 0).span 0 sm 2 with | .ok ws => ws = [.shared 0] | .error _ => false) = true ∧
      hrefBuf (tagged .href 0) = 0 ∧ hrefOff (tagged .href 1) + 2 ≤ 3 ∧ hrefBuf (tagged .href (2 ^ 62)) = 1 ∧
      hrefOff (tagged .href (2 ^ 62)) + 2 ≤ 8 ∧ hrefBuf (tagged .href (2 ^ 63)) = 2 ∧
      ((upApp (rg (ptr sm) (int 2)) {}).ctx 0).job = some 1 ∧ (upApp (rg (ptr sm) (int 2)) {}).subJobsOf 0 = [] ∧
      ((upApp (rg (ptr sm) (int 2)) {}).cword (.shared 0)).tag = .int ∧
      (((upApp (rg (ptr sm) (int 2)) {}).setCword (.shared 0) (tagged .sec 1)).cword (.shared 0)).tag = .sec ∧
      (rg (ptr sm) (int 2)).applet = false ∧ (rg (ptr sm) (int 2)).inTrap = false) ∧
    (((upC 0 (rg (ptr sm) (int 16))).tgSendQ 0).length < 64 ∧ ((rg (ptr sm) (int 16)).get 1).val.toNat = 16 ∧
      (match ((upC 0 (rg (ptr sm) (int 16))).core 0).span 0 sm (8 * 16) with
        | .ok ws => ws.all (fun w => tgateTag ((upC 0 (rg (ptr sm) (int 16))).cword w).tag) | .error _ => false) = true ∧
      64 ≤ (({ up with crx := { up.crx with t2g := List.replicate 64 [int 0] } } : State).tgSendQ 4).length ∧
      (upC 0 (rg (ptr sm) (int 16))).tgRecvQ 0 = [] ∧
      ({ up with crx := { up.crx with t2g := [[int 3]] } } : State).tgRecvQ 0 = [[int 3]]) :=
  ⟨⟨executes (by decide), executes (by decide)⟩, by decide⟩

theorem test_moves : ok (exec (.padd 0 0 0 1) (upC 0 (rg (ptr 8) (int 5)))) (fun t => a0 t = ptr 13) = true ∧
    ok (exec (.padd 0 0 0 1) (upApp (appR (int 8) (int 5)) {})) (fun t => ended t 1 0x0E 0x0883) = true ∧
    ok (exec (.la 0 0 0 0xFFFF) (upC 0 (rg (int 8) (int 5)))) (fun t => a0 t = tagged .code 0xFC) = true ∧
    ok (exec (.vdmake 0 0 0 1) (upC 0 (rg (ptr 8) (int 5)))) (fun t => a0 t = tagged .vdesc (5 * 2 ^ 40 + 8)) = true ∧
    ok (exec (.kmint 4 0 0 1) (upC 4 (rg (int 8) (int 5)))) (fun t => (t.core 4).r.get 0 = tagged .kref 8) = true ∧
    ok (exec (.declass 4 0 1) (upC 4 (rg (int 8) (tagged .sec 5)))) (fun t => (t.core 4).r.get 0 = int 5) = true := by decide
/-- R363: a load's word reaches its register after the next instruction; R358: a stored byte. -/
theorem test_memory : ok (exec (.ld 0 0 1 8) (upC 0 (rg (int 9) (ptr sm)))) (fun t => a0 t = int 9 && (t.core 0).r.slot = some (0, int 0)) = true ∧
    ok (exec (.stb 0 0 1 3) (upC 0 (rg (int 0x1A5) (ptr sm)))) (fun t => t.cword (.shared 0) = int 0xA5000000) = true ∧
    ok (exec (.st 0 0 1 4) (upApp (appR (int 9) (ptr (scratchBase 0))) {})) (fun t => ended t 1 0x0E 0x0887) = true := by decide
theorem test_tgate : ok (exec (.tgsend 0 0 0 1) (upC 0 (rg (ptr sm) (int 1)))) (fun t => t.crx.g2t = [[int 0]] && a0 t = int 1) = true := by
  decide

theorem witness_ControlAndSystem :
    ((upC 0 (rg (int 7) (int 5))).Executes 0 ∧ (rg (int 7) (int 5)).t = false ∧ ({ rg (int 7) (int 5) with t := true } : CRegs).t = true ∧
      (upC 0 { rg (int 7) (int 5) with t := true }).Executes 0) ∧
    ((rg (int 7) (int 5)).frames.length < 15 ∧ (rg (int 7) (int 5)).rstack.length < 32 ∧
      ((rg (int 7) (tagged .code 0x200)).get 1).tag = .code ∧ (rg (int 7) (int 5)).rstack = [] ∧ (rg (int 7) (int 5)).rsm ≠ 2) ∧
    (({ rg (int 7) (int 5) with rstack := [0x104], frames := [[], []] } : CRegs).rstack = [0x104]) ∧
    ((upC 0 (rg (int 7) (int 5))).csr 0 (rg (int 7) (int 5)) 0x011 = some (int 16) ∧ ((rg (int 7) (int 5)).get 0).tag = .int ∧
      ((rg (int 7) (ptr 8)).get 1).tag = .ptr) ∧
    (({ rg (int 7) (int 5) with frames := [[], []] } : CRegs).rstack = [] ∧ crixaOp 0xFC000000 = none ∧
      (∀ q ∈ [0x002, 0x020, 0x021, 0x022], (0x011 : Nat) ≠ q) ∧ (rg (ptr 8) (int 5)).get 0 = ptr 8) ∧
    ((BitVec.ofNat 16 3).toNat < 4 ∧ min ((rg (int 7) (int 5)).get 0).val.toNat (128 / 2 ^ 3) = 7) ∧
    (((rg (int 7) poisonWord).get 1).tag = .poison ∧ (upApp (appR (int 7) poisonWord) {}).Executes 0 ∧
      ((upApp (appR (int 7) poisonWord) {}).ctx 0).job = some 1 ∧ (upApp (appR (int 7) poisonWord) {}).job? 1 = some appJob ∧
      (upApp (appR (int 7) poisonWord) {}).subJobsOf 0 = [] ∧
      (upC 0 { rg (int 7) poisonWord with inTrap := true }).Executes 0) ∧
    ((upC 0 { rg (int 7) (int 5) with slot := some (0, int 1) }).coreRuns 0 = true ∧
      (upC 0 { rg (int 7) (int 5) with slot := some (0, int 1) }).atBreak 0 = false ∧
      ((upC 0 { rg (int 7) (int 5) with slot := some (0, int 1) }).core 0).ctx = none ∧
      ((upC 0 { rg (int 7) (int 5) with slot := some (0, int 1) }).core 0).r.slot = some (0, int 1)) :=
  ⟨⟨executes (by decide), rfl, rfl, executes (by decide)⟩, by decide, by decide, by decide, by decide, by decide,
   ⟨by decide, app_executes (k := 0) (by decide), by decide, by decide, by decide, executes (by decide)⟩, by decide⟩

theorem test_call_ret : ok (exec (.call 0 4) (upC 0 (rg (int 7) (int 5)))) (fun t => (t.core 0).r.pc = 0x110 &&
      (t.core 0).r.rstack = [0x104] && (t.core 0).r.frames = [[], []]) = true ∧
    ok (exec (.ret 0 0) (upC 0 { rg (int 7) (int 5) with rstack := [0x104], frames := [[], []] })) (fun t =>
      (t.core 0).r.pc = 0x104 && (t.core 0).r.rstack = []) = true ∧
    ok (exec (.ret 0 0) (upApp (appR (int 7) (int 5)) {})) (fun t => ended t 1 0x0E 0x088B) = true := by
  decide
theorem test_branch : ok (exec (.b 0 0 0x3FFFFF) (upC 0 (rg (int 7) (int 5)))) (fun t => (t.core 0).r.pc = 0xFC) = true ∧
    ok (exec (.b 0 1 2) (upC 0 { rg (int 7) (int 5) with z := true })) (fun t => (t.core 0).r.pc = 0x108) = true ∧
    ok (exec (.b 0 1 2) (upC 0 (rg (int 7) (int 5)))) (fun t => (t.core 0).r.pc = 0x104) = true ∧
    ok (exec (.b 0 1 2) (upApp { appR (int 7) (int 5) with t := true } {})) (fun t => ended t 1 0x0E 0x0885) = true := by decide
/-- R369: a strip of 40 bytes is 40 elements; VLOOP subtracts it and branches back while elements remain. -/
theorem test_strip : ok (exec (.strip 0 0 1 0) (upC 0 (rg (int 7) (int 40)))) (fun t => a0 t = int 40 && (t.core 0).r.sc = 40) = true ∧
    ok (exec (.vloop 0 1 0 0xFFFE) (upC 0 { rg (int 7) (int 168) with sc := 128 })) (fun t =>
      (t.core 0).r.get 1 = int 40 && (t.core 0).r.pc = 0xF8) = true := by decide

/-- Table 13.10: sixteen e64 elements, indices 0 to 15 but 700 at one place, a VDESC of 4,096 bytes in shared memory. -/
def idx (at_ : Nat) : Wide := { val := (List.range 16).foldl (fun v i =>
  v ||| (BitVec.ofNat 1024 (if i = at_ then 700 else i)) <<< (64 * i)) 0 }
def desc : CWord := tagged .vdesc (4096 * 2 ^ 40 + sm)
def gathR (at_ : Nat) : CRegs := { pc := 0x100, frames := [[(0, desc)]], sc := 16, wide := [(2, idx at_)] }
def gop : VOp := { wd := 4, wa := 16, wb := 2, q := 0, ew := 3 }
def vR (sc : Nat) : CRegs := { rg (int 7) (int 5) with sc := sc }
def vop : VOp := { wd := 2, wa := 0, wb := 1, q := 0, ew := 0 }
def ldR (off : Nat) : CRegs := { rg desc (int off) with sc := 16 }
def lop : VOp := { wd := 4, wa := 0, wb := 1, q := 0, ew := 3 }
def elemOk (e : Except Bool (CWhere × Nat)) : Option Nat := match e with | .ok (_, a) => some a | .error _ => none
def elemErr (e : Except Bool (CWhere × Nat)) : Option Bool := match e with | .ok _ => none | .error b => some b

/-- A vector unit that may be gated, `us` microseconds after its last instruction. -/
def upVec (us : Nat) : State := { up.setCore 0 { vpgEn := true } with glb := { up.glb with ptcBoot := BitVec.ofNat 64 us } }

theorem witness_VectorInstructions :
    ((3 : Nat) < 4 ∧ 15 < eCount 3) ∧
    ((upC 0 (vR 0)).Executes 0 ∧ ((upC 0 (vR 0)).core 0).gated = false ∧ ((upC 0 (vR 0)).core 0).waking = false ∧
      ((upC 0 (vR 0)).core 0).downing = false) ∧
    ((upC 0 (vR 128)).Executes 0 ∧ (vR 128).sc ≠ 0 ∧ eCount 0 ≤ (vR 128).sc ∧ vop.q = 0 ∧ vop.wd.toNat % 2 = 0 ∧
      vop.wd.toNat % 8 ≠ 0 ∧ ((vR 128).get vop.wa.toNat).tag = .int ∧ (vR 128).active vop 0 = true ∧
      (vR 128).active { vop with q := 1 } 0 = false ∧ (2 : BitVec 2).toNat < 3 ∧
      (1 : BitVec 2).toNat = 1) ∧
    ((upC 0 (ldR 0)).Executes 0 ∧ (ldR 0).actives lop = List.range 16 ∧
      (match (ldR 0).vaddr lop false with
        | .ok (d, off) => d = desc && (List.range 16).map off = (List.range 16).map (8 * ·)
        | .error _ => false) = true ∧
      ((List.range 16).all (fun i => elemOk ((upC 0 (ldR 0)).element 0 desc (8 * i) 3 true) = some (vdBase desc + 8 * i))) = true ∧
      ((List.range 16).all (fun i => elemOk ((upC 0 (ldR 0)).element 0 desc (8 * i) 3 false) = some (vdBase desc + 8 * i))) =
        true) ∧
    ((upC 0 (gathR 4)).Executes 0 ∧ (gathR 4).actives gop = List.range 16 ∧
      elemErr ((upC 0 (gathR 4)).element 0 desc 5600 3 true) = some false ∧
      (match (gathR 4).vaddr gop true with | .ok (d, off) => d = desc && off 4 = 5600 && off 3 = 24 | .error _ => false) = true ∧
      ((List.range 16).all (fun i => elemErr ((upC 0 (gathR 4)).element 0 desc (8 * i) 3 true) = none)) = true) ∧
    (((up.setCore 0 { downing := true }).core 0).downing = true ∧ ((upVec 50).core 0).downing = false ∧
      (upVec 50).now = 50 ∧ ((upVec 50).core 0).vpgEn = true ∧ ((upVec 50).core 0).vecAt + 50 ≤ (upVec 50).now ∧
      (upVec 49).now < ((upVec 49).core 0).vecAt + 50 ∧ ((upVec 50).core 0).waking = false ∧ ((upVec 50).core 0).gated = false ∧
      (upVec 50).awake = true) ∧
    (((up.setCore 0 { vpgEn := true }).core 0).gated = false ∧ ((up.setCore 0 { waking := true }).core 0).waking = true ∧
      up.awake = true ∧ ((upC 0 (vR 0)).setCore 0 { run := true, r := vR 0, gated := true }).Executes 0) :=
  ⟨by decide, ⟨executes (by decide), by decide⟩, ⟨executes (by decide), by decide⟩,
   ⟨executes (by decide), by decide⟩, ⟨executes (by decide), by decide⟩, by decide,
   ⟨by decide, by decide, by decide, executes (by decide)⟩⟩

/-- The same in a call, whose VDESC lies in its scratch: a VFAULT ends it with APPLET 0x0880 and the cause, 0x0D. -/
def upG (at_ : Nat) (pred : Tbl Pred) : State := upApp { gathR at_ with
  pc := 0x40000000, applet := true, pred := pred, frames := [[(0, tagged .vdesc (4096 * 2 ^ 40 + scratchBase 0))]] } {}
/-- R374: gated at 50 µs without an instruction, not before. -/
theorem test_vector_gate : ok (exec (.vectorPowerDown 0) (upVec 50)) (fun t => (t.core 0).gated) = true ∧
    ok (exec (.vectorPowerDown 0) (upVec 49)) (fun t => !(t.core 0).gated) = true := by decide

theorem test_vector_gather : ok (exec (.vldxp 0 gop) (upG 4 [])) (fun t => (t.core 0).r.sc = 4 && (t.core 0).r.pc = 0x40000004) = true ∧
    ok (exec (.vldx 0 gop) (upG 4 [])) (fun t => ended t 1 0x0E 0x088D) = true ∧
    ok (exec (.vldxp 0 gop) (upG 0 [])) (fun t => ended t 1 0x0E 0x088D) = true ∧
    ok (exec (.vldx 0 { gop with q := 1 }) (upG 4 [(1, { val := 0xFFEF })])) (fun t =>
      (t.core 0).r.sc = 16 && (t.core 0).ctx = some 0) = true := by decide
theorem test_vsum : ok (exec (.vsum 0 { wd := 0, wa := 2, wb := 0, q := 0, ew := 3 }) (upC 0 (gathR 20))) (fun t =>
      (t.core 0).r.get 0 = int 120) = true ∧
    ok (exec (.vext 0 { wd := 0, wa := 2, wb := 0, q := 0, ew := 3 }) (upC 0 (gathR 0))) (fun t => (t.core 0).r.get 0 = int 700) = true := by
  decide

/-- A sub-job block of MODMUL at the start of context 0's scratch, its input in scratch too. -/
def blkS : Tbl CWord := [(0, int (0x7120 + 2 ^ 32)), (2, ptr (scratchBase 0 + 64)), (3, int 24), (8, int 97), (9, int 5), (10, int 6)]
def appS (c : Ctx) : State := upApp (appR (ptr (scratchBase 0)) (int 5)) c
def subJ : Job := { mk 0x7120 .s7wait 1 0 with sub := some (0, 0), major := 2, detail := 1 }
def tick (d : Option (Nat × Nat × Nat)) : Ctx := { tickets := [(0, { job := 2, done := d })] }
def blkWords : List CWord := (List.range 8).map (fun i =>
  match cLocate 0 (scratchBase 0 + 8 * i) with | some w => (appS { scratch := blkS }).cword w | none => poisonWord)

/-- A core whose slice is over: it holds no context, and one can run; and one whose slice has begun. -/
def upSlice : State := (appS {}).setCore 0 { run := true }
/-- Contexts 0 and 2 of core 0 hold calls, and the slice of context 0 is over. -/
def upTurn : State := { (appS {}).setCtx 2 { job := some 1, img := some img1 } with glb := { up.glb with ptcBoot := 100 } }
theorem witness_slice_turn : upTurn.awake = true ∧ (upTurn.core 0).run = true ∧ (upTurn.core 0).dbgHalt = false ∧
    (upTurn.core 0).ctx = some 0 ∧ (∀ i, i < 8 → (upTurn.ctx i).cancelled = false) ∧ (upTurn.core 0).sliceAt + 100 ≤ upTurn.now ∧
    ((List.range 8).map (fun i => 8 * 0 + (0 % 8 + 1 + i) % 8)).find? upTurn.runnable = some 2 := by decide
theorem witness_slice : upSlice.awake = true ∧ (upSlice.core 0).run = true ∧ (upSlice.core 0).dbgHalt = false ∧
    (upSlice.core 0).ctx = none ∧ (∀ i, i < 8 → (upSlice.ctx i).cancelled = false) ∧ upSlice.runnable 0 = true ∧
    (∀ i, i < 8 → upSlice.runnable i = true → i = 0) ∧
    ((appS {}).core 0).ctx = some 0 ∧ ((appS {}).core 0).run = true ∧ ((appS {}).core 0).dbgHalt = false ∧
    (appS {}).now < ((appS {}).core 0).sliceAt + 100 := by decide

/-- R378: the slice passes to a context that can run. -/
theorem test_slice : ok (exec (.contextSlice 0) upSlice) (fun t => (t.core 0).ctx = some 0) = true := by decide

theorem witness_AppletCommands :
    ({ upCall with crx := { upCall.crx with callQ := [1], cores := [(0, { run := true })] } }.crx.callQ = [1] ∧ upCall.awake = true ∧
      (upCall.ctx 3).job = none ∧ upCall.job? 1 = some callS3 ∧ upCall.lateNow callS3 = false ∧
      upCall.lateNow { callS3 with deadline := some 0 } = true) ∧
    (∀ k, k < 8 → ((appS {}).runnable k = true → k = 0) ∧ ((appS {}).ctx k).cancelled = false) ∧
    ((appS {}).ctx 0).job = some 1 ∧ ((appS {}).job? 1 = some appJob ∧ ((appS {}).ctx 0).img = some img1 ∧
      img1.recs[appJob.opFamily]?.isSome = true ∧ (appS {}).subJobsOf 0 = [] ∧ (appS {}).now < 0 + 1000 ∧
      0 + 1000 ≤ ({ appS {} with glb := { up.glb with ptcBoot := 1000000 } } : State).now) ∧
    (((appS (tick none)).setJob 2 subJ).job? 2 = some subJ ∧ subJ.sub = some (0, 0) ∧ subJ.stage = .s7wait ∧ subJ.major ≠ 0 ∧
      ((appS (tick none)).ctx 0).tickets.get? 0 = some { job := 2, done := none } ∧ ((appS (tick none)).ctx 0).blocked = none ∧
      ((appS { tick none with blocked := some 0 }).ctx 0).blocked = some 0 ∧ ({ subJ with major := 0 } : Job).subOut + 0 ≤ 65536) ∧
    ((upApp (appR (int 0) (int 5)) {}).Executes 0 ∧ ((appR (int 0) (int 5)).get 0).tag = .int ∧ 5 ≤ appJob.outCap ∧
      appJob.outCap < 9 ∧ 1 < ((appR (int 0x105) (int 5)).get 0).val.toNat ∧ ((appR (int 1) (int 5)).get 0).val.toNat = 1 ∧
      ((upApp (appR (int 0) (int 5)) {}).ctx 0).tickets.get? 0 = none ∧ (upApp (appR (int 0) (int 5)) {}).subJobsOf 0 = []) ∧
    (∀ i, i < 8 → (((appS { tickets := (List.range 8).map (fun n => (n, { job := 2 })) }).ctx 0).tickets.get? i).isSome = true) ∧
    ((appS { scratch := blkS }).Executes 0 ∧ firstBelow 8 (fun i => (((appS { scratch := blkS }).ctx 0).tickets.get? i).isNone) =
        some 0 ∧ ((appS { scratch := blkS }).subJobOf 0 0 0 appJob blkWords).map (·.opClass) = some 7) ∧
    (((appS (tick (some (0, 0, 8)))).ctx 0).tickets.get? 0 = some { job := 2, done := some (0, 0, 8) }) ∧
    ((match ((upApp (appR (ptr (scratchBase 0)) (int 5)) {}).core 0).span 0 (scratchBase 0) 5 with
        | .ok ws => ws.length = 1 | .error _ => false) = true ∧
      upRng.serves 5 = true ∧ up.serves 5 = false ∧ up.lateNow appJob = false ∧
      up.lateNow { appJob with deadline := some 0 } = true) :=
  ⟨by decide, by decide, by decide, by decide, by decide, ⟨app_executes (k := 0) (by decide), by decide⟩, by decide,
   ⟨app_executes (k := 0) (by decide), by decide⟩, by decide, by decide⟩

/-- R380: EXIT with 0 ends with its output, with 1 with VERIFY 0x0801, with 0x105 with 0x0905. -/
theorem test_exit : ok (exec (.exit 0) (upApp (appR (int 0) (int 5)) {})) (fun t => ended t 1 0 0 &&
      (t.job? 1).map (·.resLen) = some 5) = true ∧
    ok (exec (.exit 0) (upApp (appR (int 1) (int 5)) {})) (fun t => ended t 1 1 0x0801) = true ∧
    ok (exec (.exit 0) (upApp (appR (int 0x105) (int 5)) {})) (fun t => ended t 1 0x0E 0x0905) = true := by decide
theorem test_submit : ok (exec (.submit 0) (appS { scratch := blkS })) (fun t => a0 t = int 0 && (t.ctx 0).tickets.length = 1) = true ∧
    ok (exec (.poll 0) (upApp (appR (int 0) (int 5)) (tick none))) (fun t => a0 t = intWord (BitVec.ofInt 64 (-3))) = true := by decide

end Sys2Proof.Tests
end

section
/-! PROOFS. Registers of chapters 0 and 19: what a write of an RWL register keeps, the rule of REGISTER_WRITE by access and by location, and
the registers with a row of their own. -/

namespace Sys2Proof.Machine

/-! ## What ends with a ply link keeps PLY_CFG -/

@[simp] theorem State.wipeTwin_ply_cfg (s : State) (slot : Nat) (k : KeyObj) (r : Replacing) :
    (s.wipeTwin slot k r).ply.cfg = s.ply.cfg := by
  unfold State.wipeTwin; split <;> rfl

@[simp] theorem State.endShadow_ply_cfg (s : State) (j : Nat) : (s.endShadow j).ply.cfg = s.ply.cfg := by
  unfold State.endShadow; (repeat' split) <;> simp

@[simp] theorem State.dropOne_ply_cfg (s : State) (j : Nat) : (s.dropOne j).ply.cfg = s.ply.cfg := by
  simp [State.dropOne]

@[simp] theorem State.cancelCtx_ply_cfg (s : State) (c : Nat) : (s.cancelCtx c).ply.cfg = s.ply.cfg := by
  simpa [State.cancelCtx] using State.each_kept (·.ply.cfg) (s.subJobsOf c) State.dropOne State.dropOne_ply_cfg s

@[simp] theorem State.drop_ply_cfg (s : State) (j : Nat) : (s.drop j).ply.cfg = s.ply.cfg := by
  unfold State.drop; (repeat' split) <;> simp

@[simp] theorem State.each_drop_ply_cfg (s : State) (l : List Nat) : (s.each l State.drop).ply.cfg = s.ply.cfg :=
  State.each_kept (·.ply.cfg) l State.drop State.drop_ply_cfg s

@[simp] theorem State.destroyRing_ply_cfg (s : State) (f r : Nat) : (s.destroyRing f r).ply.cfg = s.ply.cfg := by
  unfold State.destroyRing; dsimp only; (repeat' split) <;> simp

@[simp] theorem State.removeRing_ply_cfg (s : State) (f r : Nat) : (s.removeRing f r).ply.cfg = s.ply.cfg := by
  simp [State.removeRing]

@[simp] theorem State.doneErr_ply_cfg (s : State) (j m d : Nat) : (s.doneErr j m d).ply.cfg = s.ply.cfg := by
  unfold State.doneErr; split <;> simp

/-- Undoing a restoration removes rings and keys of its strand only. -/
@[simp] theorem State.undoRestore_ply_cfg_otp (s : State) (f : Nat) :
    (s.undoRestore f).ply.cfg = s.ply.cfg ∧ (s.undoRestore f).otp = s.otp := by
  have h (l : List Nat) := State.each_kept (fun s => (s.ply.cfg, s.otp)) l (fun s r => s.removeRing f r) (by simp) s
  simp only [Prod.mk.injEq] at h
  simp [State.undoRestore, h]

@[simp] theorem State.replFail_ply_cfg_otp (s : State) (slot j m d : Nat) :
    (s.replFail slot j m d).ply.cfg = s.ply.cfg ∧ (s.replFail slot j m d).otp = s.otp := by
  unfold State.replFail; dsimp only; (repeat' split) <;> simp

@[simp] theorem State.setPlyPort_ply_cfg_otp (s : State) (p : Nat) (x : PlyPort) :
    (s.setPlyPort p x).ply.cfg = s.ply.cfg ∧ (s.setPlyPort p x).otp = s.otp := by
  unfold State.setPlyPort; split <;> simp

@[simp] theorem State.plyEvent_ply_cfg_otp (s : State) (p : Nat) (bits : List Nat) :
    (s.plyEvent p bits).ply.cfg = s.ply.cfg ∧ (s.plyEvent p bits).otp = s.otp := by
  simp [State.plyEvent]

@[simp] theorem State.plyGone_ply_cfg_otp (s : State) : s.plyGone.ply.cfg = s.ply.cfg ∧ s.plyGone.otp = s.otp := by
  suffices h : (s.plyGone.ply.cfg, s.plyGone.otp) = (s.ply.cfg, s.otp) by simpa only [Prod.mk.injEq] using h
  unfold State.plyGone; dsimp only
  split
  · rfl
  · refine (State.each_kept (fun s => (s.ply.cfg, s.otp)) _ _ (fun s j => ?transfer) _).trans
      ((State.each_kept (fun s => (s.ply.cfg, s.otp)) _ _ (fun s slot => ?replacement) _).trans ?ordinal)
    case transfer => (repeat' split) <;> simp
    case replacement => (repeat' split) <;> simp
    case ordinal => split <;> rfl

@[simp] theorem State.plyDown_ply_cfg_otp (s : State) (p st : Nat) :
    (s.plyDown p st).ply.cfg = s.ply.cfg ∧ (s.plyDown p st).otp = s.otp := by
  unfold State.plyDown; dsimp only; split <;> simp

/-! ## A source that leaves or recovers keeps RNG_CFG -/

@[simp] theorem State.setSrc_rng_cfg (s : State) (n : Nat) (x : Src) : (s.setSrc n x).rng.cfg = s.rng.cfg := rfl

@[simp] theorem State.rngEvent_rng_cfg_otp (s : State) (b : Nat) :
    (s.rngEvent b).rng.cfg = s.rng.cfg ∧ (s.rngEvent b).otp = s.otp := by
  simp [State.rngEvent]

@[simp] theorem State.rngSettle_rng_cfg_otp (s : State) : s.rngSettle.rng.cfg = s.rng.cfg ∧ s.rngSettle.otp = s.otp := by
  unfold State.rngSettle; (repeat' split) <;> simp

@[simp] theorem State.sourceLeaves_rng_cfg_otp (s : State) (n st : Nat) :
    (s.sourceLeaves n st).rng.cfg = s.rng.cfg ∧ (s.sourceLeaves n st).otp = s.otp := by
  unfold State.sourceLeaves; dsimp only
  (repeat' split) <;> simp [State.wipeReservoir, State.forceReseeds]

@[simp] theorem State.armRecovery_rng_cfg_otp (s : State) (n : Nat) :
    (s.armRecovery n).rng.cfg = s.rng.cfg ∧ (s.armRecovery n).otp = s.otp := by
  simp [State.armRecovery]

/-! ## RWL registers with a row of their own (R11) -/

theorem State.rngCfgWrite_locked {s : State} (h : s.glb.lock = true) (v : W32) : s.rngCfgWrite v = s := by
  simp [State.rngCfgWrite, h]

/-- Two sources disabled at once are refused (R405). -/
theorem State.rngCfgWrite_refused (s : State) {v : W32} (h : 2 ≤ popCount 3 (v.toNat % 8)) : s.rngCfgWrite v = s := by
  unfold State.rngCfgWrite; split
  · rfl
  · exact if_pos h

theorem State.rngCfgWrite_taken {s : State} {v : W32} (hb : s.barsOpen = true) (hl : s.glb.lock = false)
    (h : popCount 3 (v.toNat % 8) ≤ 1) :
    (s.rngCfgWrite v).rng.cfg = BitVec.ofNat 32 (v.toNat % 8) ∧ (s.rngCfgWrite v).otp = s.otp := by
  have h2 : ¬ 2 ≤ popCount 3 (v.toNat % 8) := by omega
  simp only [State.rngCfgWrite, hb, hl, Bool.not_true, Bool.or_false, Bool.false_eq_true, if_false, if_neg h2,
    ← Prod.mk.injEq]
  refine (State.each_kept (fun s => (s.rng.cfg, s.otp)) _ _ (fun s n => ?_) _).trans rfl
  (repeat' split) <;> simp

theorem State.plyCfgWrite_locked {s : State} (h : s.glb.lock = true) (v : W32) : s.plyCfgWrite v = s := by
  simp [State.plyCfgWrite, h]

theorem State.plyCfgWrite_taken {s : State} (hb : s.barsOpen = true) (hl : s.glb.lock = false) (v : W32) :
    (s.plyCfgWrite v).ply.cfg = v &&& 0x1F ∧ (s.plyCfgWrite v).otp = s.otp := by
  simp only [State.plyCfgWrite, hb, hl, Bool.not_true, Bool.or_false, Bool.false_eq_true, if_false, ← Prod.mk.injEq]
  refine (State.each_kept (fun s => (s.ply.cfg, s.otp)) _ _ (fun s n => ?_) _).trans rfl
  (repeat' split) <;> simp

/-! ## SHT_REQ -/

/-- Bits of a number built from its upper 48 bits, a two-bit field and a CLASS. -/
theorem fld_shtReq {u p c : Nat} (hp : p < 4) (hc : c < 4) :
    (u * 2 ^ 16 + p * 4 + c) / 2 ^ 16 = u ∧ fld (u * 2 ^ 16 + p * 4 + c) 2 2 = p ∧ fld (u * 2 ^ 16 + p * 4 + c) 0 2 = c := by
  unfold fld; omega

/-- SHT_REQ as a write leaves it: HOLD and LAT of the value, the presence of the slot kept, CLASS 0 for the emergency slot (R352). -/
def State.shtReqTaken (s : State) (inst slot : Nat) (v : W64) : Nat :=
  v.toNat / 2 ^ 16 * 2 ^ 16 + fld (s.shtReq inst slot) 2 2 * 4 + if slot = shtEmerg inst then 0 else fld v.toNat 0 2

theorem State.shtReqTaken_lt (s : State) (inst slot : Nat) (v : W64) : s.shtReqTaken inst slot v < 2 ^ 64 := by
  have hv := v.isLt
  unfold State.shtReqTaken fld
  split <;> omega

theorem State.shtReqTaken_fields (s : State) (inst slot : Nat) (v : W64) :
    s.shtReqTaken inst slot v / 2 ^ 16 = v.toNat / 2 ^ 16 ∧
      fld (s.shtReqTaken inst slot v) 2 2 = fld (s.shtReq inst slot) 2 2 ∧
      fld (s.shtReqTaken inst slot v) 0 2 = if slot = shtEmerg inst then 0 else fld v.toNat 0 2 :=
  fld_shtReq (Nat.mod_lt _ (by decide)) (by split <;> [decide; exact Nat.mod_lt _ (by decide)])

/-- A write of SHT_REQ of a requester that is there, after the decisions that are due (R352). -/
theorem State.shtReqWrite_taken {s : State} {inst slot : Nat} (v : W64) (hb : s.barsOpen = true) (hi : inst < 8) (hs : slot < 16)
    (hp : bitOf (s.shtReq inst slot) 2 = true) :
    s.shtReqWrite inst slot v = (s.shtSettle inst).setShuttle inst { (s.shtSettle inst).shuttle inst with
      req := ((s.shtSettle inst).shuttle inst).req.insert slot (BitVec.ofNat 64 (s.shtReqTaken inst slot v)) } := by
  simp [State.shtReqWrite, hb, hp, hi, hs, State.shtReqTaken]

theorem State.shtSettle_none_waiting {s : State} {inst : Nat} (h : (s.shuttle inst).waiting = []) : s.shtSettle inst = s := by
  simp [State.shtSettle, h]

@[simp] theorem State.settle_shuttle (s : State) (i : Nat) : s.settle.shuttle i = s.shuttle i := by simp [State.shuttle]

/-! ## REGISTER_WRITE by access (R8, R9, R479) -/

theorem exec_registerWrite_unsupported {s : State} {bar : Bar} {fn offset size : Nat} (v : W64) (c : Cycle)
    (hb : s.barsOpen = true) (hc : bar ≠ .config) (ha : s.accessOk bar fn offset size = false) :
    exec (.registerWrite bar fn offset size v c) s = .next s.unsupported.settle := by
  simp [exec, execRegisterWrite, finish, hb, hc, ha]

theorem exec_rcCounterRead_unsupported {s : State} {bar : Bar} {fn offset size : Nat} (b : List Nat)
    (hb : s.barsOpen = true) (hc : bar ≠ .config) (ha : s.accessOk bar fn offset size = false) :
    exec (.rcCounterRead bar fn offset size b) s = .next s.unsupported.settle := by
  simp [exec, execRcCounterRead, finish, hb, hc, ha]

/-- The state in which an access that R8 accepts takes its effect. -/
def State.accepted (s : State) : State := { s with host := { s.host with ur := false } }

theorem ne_config_of_accessOk {s : State} {bar : Bar} {fn offset size : Nat} (ha : s.accessOk bar fn offset size = true) :
    bar ≠ .config := by
  rintro rfl; simp [State.accessOk] at ha

/-- The rule of an accepted write: the write that wins the cycle, then the bits of type W1C that hardware sets. -/
theorem exec_registerWrite_accepted {s : State} {bar : Bar} {fn offset size : Nat} (v : W64) (c : Cycle)
    (hb : s.barsOpen = true) (ha : s.accessOk bar fn offset size = true) :
    exec (.registerWrite bar fn offset size v c) s =
      let t := s.accepted.regWrite bar fn offset size (cycleWins c v)
      let sets := c.sets.toNat &&& w1cBits (locate bar fn offset)
      .next (if sets = 0 then t else t.w1cSet (locate bar fn offset) sets).settle := by
  simp [exec, execRegisterWrite, finish, hb, ha, ne_config_of_accessOk ha, State.accepted]

/-- Where hardware sets no bit of type W1C, the write alone takes effect. -/
theorem exec_registerWrite_quiet {s : State} {bar : Bar} {fn offset size : Nat} (v : W64) (c : Cycle)
    (hb : s.barsOpen = true) (ha : s.accessOk bar fn offset size = true)
    (hs : c.sets.toNat &&& w1cBits (locate bar fn offset) = 0) :
    exec (.registerWrite bar fn offset size v c) s =
      .next (s.accepted.regWrite bar fn offset size (cycleWins c v)).settle := by
  simp [exec_registerWrite_accepted v c hb ha, hs]

/-! ## REGISTER_WRITE by location (Table 0.4) -/

/-- The low bits of a register are those of the value that a write of its lower half carries. -/
theorem setWidth_mergeHalf_low {n : Nat} (hn : n ≤ 32) (old : W64) {off : Nat} (ho : off % 8 = 0) (v : W64) :
    (mergeHalf old off 4 v).setWidth n = v.setWidth n := by
  have hlt : old.toNat / 2 ^ 32 * 2 ^ 32 + v.toNat % 2 ^ 32 < 2 ^ 64 := by have := old.isLt; omega
  have hd : 2 ^ n ∣ 2 ^ 32 := Nat.pow_dvd_pow 2 hn
  apply BitVec.eq_of_toNat_eq
  simp only [mergeHalf, ho, BitVec.toNat_setWidth, BitVec.toNat_ofNat, Nat.mod_eq_of_lt hlt, show ¬ (4 = 8) by decide,
    show ¬ (0 = 4) by decide, if_false]
  rw [Nat.add_mod, Nat.mul_mod, Nat.mod_eq_zero_of_dvd hd, Nat.mod_mod_of_dvd _ hd]
  simp

theorem State.regWrite_reserved {s : State} {bar : Bar} {fn offset : Nat} (size : Nat) (v : W64)
    (h : locate bar fn offset = .reserved) : s.regWrite bar fn offset size v = s := by
  simp [State.regWrite, h, State.writeDev]

theorem locate_hstErr : locate .bar2 0 0x010008 = .hst 0x08 := by decide
theorem locate_plyCfg : locate .bar2 0 0x080000 = .ply 0x00 := by decide
theorem locate_rngCfg : locate .bar2 0 0x090008 = .rng 0x08 := by decide
theorem locate_pwrCap : locate .bar2 0 0x0D0008 = .pwr 0x08 := by decide
theorem locate_crxCfg : locate .bar2 0 0x400000 = .crx 0x00 := by decide

/-- The offsets in BAR2 of the registers of type RWL: PLY_CFG, RNG_CFG and CRX_CFG (R481). -/
def rwlOffsets : List Nat := [0x080000, 0x090008, 0x400000]

/-- A locked register of type RWL ignores a write (R11). -/
theorem State.regWrite_locked {s : State} (hl : s.glb.lock = true) {off : Nat} (h : off ∈ rwlOffsets) (v : W64) :
    s.regWrite .bar2 0 off 4 v = s := by
  simp only [rwlOffsets, List.mem_cons, List.not_mem_nil, or_false] at h
  obtain rfl | rfl | rfl := h
  · simp [State.regWrite, locate_plyCfg, State.writeDev, State.plyCfgWrite_locked hl]
  · simp [State.regWrite, locate_rngCfg, State.writeDev, State.rngCfgWrite_locked hl]
  · simp [State.regWrite, locate_crxCfg, State.writeDev, hl]

/-- PWR_CAP takes bits [16:0]. -/
theorem State.regWrite_pwrCap (s : State) (v : W64) : s.regWrite .bar2 0 0x0D0008 4 v =
    { s with cap := { s.cap with cap := BitVec.ofNat 32 v.toNat &&& 0x1FFFF } } := by
  simp [State.regWrite, locate_pwrCap, State.writeDev, setWidth_mergeHalf_low]

/-- HST_ERR clears where 1 is written. -/
theorem State.regWrite_hstErr (s : State) (v : W64) : s.regWrite .bar2 0 0x010008 4 v =
    { s with host := { s.host with err := s.host.err &&& ~~~(BitVec.ofNat 4 v.toNat) } } := by
  simp [State.regWrite, locate_hstErr, State.writeDev, setWidth_mergeHalf_low]

/-! ## Accepted writes of single registers -/

/-- An access of four bytes to the lower half of a register in the window of BAR2 (R8, R478). -/
theorem State.accessOk_bar2 (s : State) {off : Nat} (ha : off % 4 = 0) (hw : off < 0x2000000) :
    s.accessOk .bar2 0 off 4 = true := by
  simp [State.accessOk, ha, hw]

theorem exec_registerWrite_reserved {s : State} {bar : Bar} {fn offset size : Nat} (v : W64) (c : Cycle) (hb : s.barsOpen = true)
    (ha : s.accessOk bar fn offset size = true) (h : locate bar fn offset = .reserved) :
    exec (.registerWrite bar fn offset size v c) s = .next s.accepted.settle := by
  rw [exec_registerWrite_quiet v c hb ha (by simp [h, w1cBits]), State.regWrite_reserved size _ h]

/-- A write of a locked register of type RWL is accepted, with no error and no effect (R11). -/
theorem exec_registerWrite_locked {s : State} (hb : s.barsOpen = true) (hl : s.glb.lock = true) {off : Nat}
    (h : off ∈ rwlOffsets) (v : W64) :
    exec (.registerWrite .bar2 0 off 4 v {}) s = .next s.accepted.settle := by
  have hin : ∀ o ∈ rwlOffsets, o % 4 = 0 ∧ o < 0x2000000 := by decide
  rw [exec_registerWrite_quiet v {} hb (s.accessOk_bar2 (hin off h).1 (hin off h).2) (by simp),
    State.regWrite_locked (s := s.accepted) hl h]

theorem exec_registerWrite_pwrCap {s : State} (hb : s.barsOpen = true) (v : W64) (c : Cycle) :
    exec (.registerWrite .bar2 0 0x0D0008 4 v c) s = .next ({ s.accepted with
      cap := { s.cap with cap := BitVec.ofNat 32 (cycleWins c v).toNat &&& 0x1FFFF } } : State).settle := by
  rw [exec_registerWrite_quiet v c hb (s.accessOk_bar2 (by decide) (by decide)) (by simp [locate_pwrCap, w1cBits]),
    State.regWrite_pwrCap]
  rfl

/-- HST_ERR: the bits written 1 clear, and those that hardware sets in the cycle stay 1 (R9). -/
theorem exec_registerWrite_hstErr {s : State} (hb : s.barsOpen = true) (v w : W64) :
    exec (.registerWrite .bar2 0 0x010008 4 v { sets := w }) s = .next ({ s with host := { s.host with
      ur := false, err := (s.host.err &&& ~~~(BitVec.ofNat 4 v.toNat)) ||| BitVec.ofNat 4 w.toNat } } : State).settle := by
  have hsets : BitVec.ofNat 4 (w.toNat &&& 0xF) = BitVec.ofNat 4 w.toNat := by
    apply BitVec.eq_of_toNat_eq
    simp [Nat.and_two_pow_sub_one_eq_mod w.toNat 4]
  rw [exec_registerWrite_accepted v _ hb (s.accessOk_bar2 (by decide) (by decide)), State.regWrite_hstErr]
  simp only [locate_hstErr, w1cBits, if_true]
  split
  · next h0 =>
    rw [h0] at hsets
    simp [State.accepted, ← hsets, cycleWins]
  · simp [State.w1cSet, State.accepted, hsets, cycleWins]

/-! ## Reads that latch (R51, R281, Table 12.11) -/

/-- A read of PTC_BOOT[31:0] latches the upper half (R51). -/
theorem exec_ptcBootLowRead_eq {s : State} (hb : s.barsOpen = true) : exec .ptcBootLowRead s = .next
    (({ s with glb := { s.glb with ptcBootLatch := BitVec.ofNat 32 (s.glb.ptcBoot.toNat / 2 ^ 32) } } : State).answer
      (BitVec.ofNat 64 (fld s.glb.ptcBoot.toNat 0 32))).settle := by
  simp [exec, execPtcBootLowRead, finish, hb, State.readLatch]

/-- The halves of a 64-bit register, as a read of one and the latch of the other hold them. -/
theorem toNat_halves (x : W64) : (BitVec.ofNat 64 (fld x.toNat 0 32)).toNat = x.toNat % 2 ^ 32 ∧
    (BitVec.ofNat 32 (x.toNat / 2 ^ 32)).toNat = x.toNat / 2 ^ 32 := by
  have hlt := x.isLt
  simp only [fld, BitVec.toNat_ofNat]
  omega

theorem exec_mcsWinData0Read_eq {s : State} (hb : s.barsOpen = true) : exec .mcsWinData0Read s = .next
    ({ s.answer (BitVec.ofNat 64 s.winWord) with mcs := { s.mcs with latch := BitVec.ofNat 192 s.winWord } } : State).settle := by
  simp [exec, execMcsWinData0Read, finish, hb, State.answer]

/-- The record in the slot of the trace buffer that TRC_RD_IDX selects (Table 12.11). -/
def State.trcSelected (s : State) : List W64 := s.trc.buf.getD (fld s.trc.rdIdx.toNat 0 13) [0, 0, 0, 0]

theorem exec_trcRdData0Read_eq {s : State} (hb : s.barsOpen = true) : exec .trcRdData0Read s = .next
    ({ s.answer ((s.trcSelected[0]?).getD 0) with trc := { s.trc with latch := s.trcSelected } } : State).settle := by
  simp [exec, execTrcRdData0Read, finish, hb, State.answer, State.trcSelected]

/-! ## Other rows -/

theorem exec_hdlWtWrite_eq {s : State} (hb : s.barsOpen = true) (v : W32) :
    exec (.hdlWtWrite v) s = .next ({ s with hdl := { s.hdl with wt := v } } : State).settle := by
  simp [exec, execHdlWtWrite, finish, State.wtWrite, hb]

theorem exec_shtReqWrite_eq (s : State) (inst slot : Nat) (v : W64) :
    exec (.shtReqWrite inst slot v {}) s = .next (s.shtReqWrite inst slot v).settle := rfl

theorem exec_rngCfgWrite_eq (s : State) (v : W32) : exec (.rngCfgWrite v) s = .next (s.rngCfgWrite v).settle := rfl

theorem exec_plyCfgWrite_eq (s : State) (v : W32) : exec (.plyCfgWrite v) s = .next (s.plyCfgWrite v).settle := rfl

/-- GLB_LOCK_SET sets the lock with bit 0 and never clears it (R481). -/
theorem exec_glbLockSet_eq {s : State} (hb : s.barsOpen = true) (v : W32) : exec (.glbLockSet v) s = .next
    (if v.getLsbD 0 then ({ s with glb := { s.glb with lock := true } } : State) else s).settle := by
  simp [exec, execGlbLockSet, finish, State.lockSet, hb]

/-- What the registers of type RWL read as does not depend on how the last access was answered. -/
theorem regAt_accepted_rwl (s : State) {off : Nat} (h : off ∈ rwlOffsets) :
    s.accepted.settle.regAt (locate .bar2 0 off) = s.regAt (locate .bar2 0 off) := by
  simp only [rwlOffsets, List.mem_cons, List.not_mem_nil, or_false] at h
  obtain rfl | rfl | rfl := h
  · simp [locate_plyCfg, State.regAt, State.readPly, State.accepted]
  · simp [locate_rngCfg, State.regAt, State.readRng, State.accepted]
  · simp [locate_crxCfg, State.regAt, State.readCrx, State.accepted]

/-- SHT_REQ_WRITE of a requester that is there. -/
theorem exec_shtReqWrite_sets {s : State} (hb : s.barsOpen = true) {inst slot : Nat} (v : W64) (hi : inst < 8) (hs : slot < 16)
    (hp : bitOf (s.shtReq inst slot) 2 = true) :
    ∃ t w, exec (.shtReqWrite inst slot v {}) s = .next t ∧ (t.shuttle inst).req.get? slot = some w ∧
      w.toNat / 2 ^ 16 = v.toNat / 2 ^ 16 ∧ fld w.toNat 2 2 = fld (s.shtReq inst slot) 2 2 ∧
      fld w.toNat 0 2 = (if slot = shtEmerg inst then 0 else fld v.toNat 0 2) ∧
      ((s.shuttle inst).waiting = [] → (t.shuttle inst).grants = (s.shuttle inst).grants) := by
  refine ⟨_, BitVec.ofNat 64 (s.shtReqTaken inst slot v), exec_shtReqWrite_eq s inst slot v, ?_⟩
  rw [State.shtReqWrite_taken v hb hi hs hp, BitVec.toNat_ofNat, Nat.mod_eq_of_lt (s.shtReqTaken_lt inst slot v)]
  obtain ⟨hup, hpres, hcls⟩ := s.shtReqTaken_fields inst slot v
  exact ⟨by simp, hup, hpres, hcls, fun hw => by simp [State.shtSettle_none_waiting hw]⟩

theorem exec_rngCfgWrite_cases {s : State} (hb : s.barsOpen = true) (v : W32) :
    (s.glb.lock = true → exec (.rngCfgWrite v) s = .next s.settle) ∧
      (s.glb.lock = false → 2 ≤ popCount 3 (v.toNat % 8) → exec (.rngCfgWrite v) s = .next s.settle) ∧
      (s.glb.lock = false → popCount 3 (v.toNat % 8) ≤ 1 → ∃ t, exec (.rngCfgWrite v) s = .next t ∧
        t.rng.cfg.toNat = v.toNat % 8 ∧ t.otp = s.otp) := by
  rw [exec_rngCfgWrite_eq]
  refine ⟨fun hl => by rw [State.rngCfgWrite_locked hl], fun _ h2 => by rw [State.rngCfgWrite_refused s h2], fun hl h1 => ?_⟩
  obtain ⟨hcfg, hotp⟩ := State.rngCfgWrite_taken hb hl h1
  have hlt : v.toNat % 8 < 2 ^ 32 := by omega
  exact ⟨_, rfl, by rw [State.settle_rng, hcfg, BitVec.toNat_ofNat, Nat.mod_eq_of_lt hlt], by rw [State.settle_otp, hotp]⟩

theorem exec_plyCfgWrite_cases {s : State} (hb : s.barsOpen = true) (v : W32) :
    (s.glb.lock = true → exec (.plyCfgWrite v) s = .next s.settle) ∧
      (s.glb.lock = false → ∃ t, exec (.plyCfgWrite v) s = .next t ∧ t.ply.cfg = v &&& 0x1F ∧ t.otp = s.otp) := by
  rw [exec_plyCfgWrite_eq]
  refine ⟨fun hl => by rw [State.plyCfgWrite_locked hl], fun hl => ?_⟩
  obtain ⟨hcfg, hotp⟩ := State.plyCfgWrite_taken hb hl v
  exact ⟨_, rfl, by rw [State.settle_ply, hcfg], by rw [State.settle_otp, hotp]⟩

/-- The addresses that R480 works out. -/
theorem locate_worked_examples : locate .bar2 0 0x01A4000 = .creel 2 8 0 ∧ locate .bar2 0 0x0053140 = .sht 3 0x140 ∧
    locate .bar2 0 0x0020148 = .str 5 0x08 ∧ locate .bar2 0 0x00A12E0 = .slot 50 0xE0 ∧
    locate .bar2 0 0x00B8008 = .shadow (.tmp 0x08) := by decide

/-- The doorbells of the PF lie 64 bytes apart (Table 19.1). -/
theorem locate_bell {n : Nat} (h : n < 256) : locate .bar0 0 (0x10000 + 0x40 * n) = .bell 0 n := by
  have ha : (0x10000 + 0x40 * n) / 8 * 8 = 0x10000 + 0x40 * n := by omega
  have hpage : ¬ 0x10000 + 0x40 * n < 0x30 := by omega
  have hbox : ¬ 0x10000 + 0x40 * n < 0x1020 := by omega
  have hpend : ¬ 0x10000 + 0x40 * n < 0x1180 := by omega
  have hbell : 0x10000 + 0x40 * n < 0x10000 + 0x40 * 256 := by omega
  simp [locate, locate0, ha, hpage, hbox, hpend, hbell]

/-- The value that takes effect in each of the cycles of R10: the first writer in precedence. -/
theorem cycleWins_of_mem {v w x : W64} {c : Cycle} (h : (c, x) ∈ [({}, v), ({ rivals := [(.trusted, w)] }, w),
    ({ rivals := [(.strand, w)] }, v), ({ writer := .strand, rivals := [(.manager, w)] }, w),
    ({ writer := .trusted, rivals := [(.manager, w)] }, v)]) : cycleWins c v = x := by
  simp only [List.mem_cons, List.not_mem_nil, or_false, Prod.mk.injEq] at h
  obtain ⟨rfl, rfl⟩ | ⟨rfl, rfl⟩ | ⟨rfl, rfl⟩ | ⟨rfl, rfl⟩ | ⟨rfl, rfl⟩ := h <;> rfl

/-! ## The statements settled -/

/-- Settles O38, row by row. -/
theorem registerRows : Obligations.RegisterRows := by
  unfold Obligations.RegisterRows
  intro s hb
  refine ⟨exec_hdlWtWrite_eq hb, fun inst slot v hi hs hp => exec_shtReqWrite_sets hb v hi hs hp,
    exec_rngCfgWrite_cases hb, exec_plyCfgWrite_cases hb,
    fun v => ⟨fun h => ?lock, fun h => ?noLock⟩,
    fun off v h hl => ⟨exec_registerWrite_locked hb hl h v, regAt_accepted_rwl s h⟩,
    ⟨_, exec_ptcBootLowRead_eq hb, ?boot⟩, ⟨_, exec_mcsWinData0Read_eq hb, ?mcs⟩, ⟨_, exec_trcRdData0Read_eq hb, ?trc⟩⟩
  case lock => rw [exec_glbLockSet_eq hb, if_pos h]
  case noLock => rw [exec_glbLockSet_eq hb, h]; rfl
  case boot =>
    obtain ⟨hlow, hhigh⟩ := toNat_halves s.glb.ptcBoot
    exact ⟨by rw [State.settle_host]; exact hlow, by rw [State.settle_glb_ptcBootLatch]; exact hhigh, by simp [State.answer],
      by simp [State.answer]⟩
  case mcs => simp [State.answer]
  case trc => simp [State.answer, State.trcSelected]

/-- Settles O40: the rule of REGISTER_WRITE by access, by location and by writer. -/
theorem registerWrites : Obligations.RegisterWrites := by
  unfold Obligations.RegisterWrites
  obtain ⟨h1, h2, h3, h4, h5⟩ := locate_worked_examples
  refine ⟨⟨h1, h2, h3, h4, h5, fun n hn => locate_bell hn⟩, fun s hb => ⟨fun bar fn offset size v c hc ha => ?unsupported,
    fun bar fn offset size v c ha h => exec_registerWrite_reserved v c hb ha h, fun v w x c hx => ?cap,
    exec_registerWrite_hstErr hb, fun v hl => exec_registerWrite_locked hb hl (by decide) v⟩⟩
  case unsupported => exact ⟨exec_registerWrite_unsupported v c hb hc ha, fun b => exec_rcCounterRead_unsupported b hb hc ha⟩
  case cap => rw [exec_registerWrite_pwrCap hb, cycleWins_of_mem hx]; rfl

end Sys2Proof.Machine
end

section
/-! PROOFS. The ply link of chapters 1 and 19: what the end of a link keeps of its ports and events, and what each row of the link
sets. -/

namespace Sys2Proof.Machine

/-! ## What the end of a link leaves of the ply link -/

/-- The ply link but for what the end of a link changes: the messages sent and the ordinal in force. -/
def Ply.standing (l : Ply) : Ply := { l with out := [], ord := 0 }

@[simp] theorem State.plySend_ply_standing (s : State) (m : PlyOut) : (s.plySend m).ply.standing = s.ply.standing := rfl

@[simp] theorem State.wipeTwin_ply_standing (s : State) (slot : Nat) (k : KeyObj) (r : Replacing) :
    (s.wipeTwin slot k r).ply.standing = s.ply.standing := by
  unfold State.wipeTwin; split <;> simp

@[simp] theorem State.endShadow_ply_standing (s : State) (j : Nat) : (s.endShadow j).ply.standing = s.ply.standing := by
  unfold State.endShadow; (repeat' split) <;> simp

@[simp] theorem State.dropOne_ply_standing (s : State) (j : Nat) : (s.dropOne j).ply.standing = s.ply.standing := by
  simp [State.dropOne]

@[simp] theorem State.cancelCtx_ply_standing (s : State) (c : Nat) : (s.cancelCtx c).ply.standing = s.ply.standing := by
  simpa [State.cancelCtx] using State.each_kept (·.ply.standing) (s.subJobsOf c) State.dropOne State.dropOne_ply_standing s

@[simp] theorem State.drop_ply_standing (s : State) (j : Nat) : (s.drop j).ply.standing = s.ply.standing := by
  unfold State.drop; (repeat' split) <;> simp

@[simp] theorem State.each_drop_ply_standing (s : State) (l : List Nat) : (s.each l State.drop).ply.standing = s.ply.standing :=
  State.each_kept (·.ply.standing) l State.drop State.drop_ply_standing s

@[simp] theorem State.removeRing_ply_standing (s : State) (f r : Nat) : (s.removeRing f r).ply.standing = s.ply.standing := by
  unfold State.removeRing State.destroyRing; dsimp only; (repeat' split) <;> simp

@[simp] theorem State.doneErr_ply_standing (s : State) (j m d : Nat) : (s.doneErr j m d).ply.standing = s.ply.standing := by
  unfold State.doneErr; split <;> simp

@[simp] theorem State.undoRestore_ply_standing (s : State) (f : Nat) : (s.undoRestore f).ply.standing = s.ply.standing := by
  have h (l : List Nat) := State.each_kept (·.ply.standing) l (fun s r => s.removeRing f r) (by simp) s
  simp [State.undoRestore, h]

@[simp] theorem State.replFail_ply_standing (s : State) (slot j m d : Nat) :
    (s.replFail slot j m d).ply.standing = s.ply.standing := by
  unfold State.replFail; dsimp only; (repeat' split) <;> simp

@[simp] theorem State.plyGone_ply_standing (s : State) : s.plyGone.ply.standing = s.ply.standing := by
  unfold State.plyGone; dsimp only
  split
  · rfl
  · refine (State.each_kept (·.ply.standing) _ _ (fun s j => ?transfer) _).trans
      ((State.each_kept (·.ply.standing) _ _ (fun s slot => ?replacement) _).trans ?ordinal)
    case transfer => (repeat' split) <;> simp
    case replacement => (repeat' split) <;> simp
    case ordinal => split <;> rfl

@[simp] theorem State.plyGone_evt (s : State) : s.plyGone.ply.evt = s.ply.evt := (congrArg Ply.evt s.plyGone_ply_standing :)

@[simp] theorem State.plyGone_plyPort (s : State) (p : Nat) : s.plyGone.plyPort p = s.plyPort p := by
  unfold State.plyPort
  split
  · exact (congrArg Ply.p0 s.plyGone_ply_standing :)
  · exact (congrArg Ply.p1 s.plyGone_ply_standing :)

/-! ## Ports and events -/

@[simp] theorem State.settle_plyPort (s : State) (p : Nat) : s.settle.plyPort p = s.plyPort p := by simp [State.plyPort]

@[simp] theorem State.plyPort_setPlyPort (s : State) (p : Nat) (x : PlyPort) : (s.setPlyPort p x).plyPort p = x := by
  unfold State.plyPort State.setPlyPort; split <;> rfl

@[simp] theorem State.setPlyPort_ord (s : State) (p : Nat) (x : PlyPort) : (s.setPlyPort p x).ply.ord = s.ply.ord := by
  unfold State.setPlyPort; split <;> rfl

@[simp] theorem State.plyEvent_plyPort (s : State) (p q : Nat) (bits : List Nat) : (s.plyEvent p bits).plyPort q = s.plyPort q := by
  simp [State.plyEvent, State.plyPort]

@[simp] theorem State.plyEvent_ord (s : State) (p : Nat) (bits : List Nat) : (s.plyEvent p bits).ply.ord = s.ply.ord := by
  simp [State.plyEvent]

theorem getLsbD_setBit_true {n : Nat} (x : BitVec n) (i k : Nat) :
    (setBit x i true).getLsbD k = (x.getLsbD k || (decide (k < n) && decide (i = k))) := by
  simp [setBit, BitVec.getLsbD_ofNat, Nat.testBit_two_pow, -BitVec.ofNat_pow]

/-- Events are added to those that stand. -/
theorem getLsbD_foldl_setBit (bits : List Nat) (v : W32) (base k : Nat) :
    (bits.foldl (fun v b => setBit v (base + b) true) v).getLsbD k =
      (v.getLsbD k || (decide (k < 32) && bits.any (fun b => decide (base + b = k)))) := by
  induction bits generalizing v with
  | nil => simp
  | cons b bits ih => rw [List.foldl_cons, ih, getLsbD_setBit_true, List.any_cons, Bool.and_or_distrib_left, Bool.or_assoc]

/-- A port sets its events in its own byte of PLY_EVT (R484). -/
theorem State.plyEvent_sets (s : State) {p b : Nat} {bits : List Nat} (hp : p < 2) (hb : b < 8) (h : b ∈ bits) :
    (s.plyEvent p bits).ply.evt.getLsbD (8 * p + b) = true := by
  have hlt : 8 * p + b < 32 := by omega
  have hany : bits.any (fun c => decide (8 * p + c = 8 * p + b)) = true := List.any_eq_true.mpr ⟨b, h, by simp⟩
  simp only [State.plyEvent, State.signal_frame, getLsbD_foldl_setBit, hlt, hany, decide_true, Bool.and_true, Bool.or_true]

/-! ## PLY_TRAINING (R13, R468, R484) -/

section
variable {s : State} {p : Nat} (hl : s.live = true) (hp : p < 2) (hs : (s.plyPort p).state ≠ 2)
include hl hp hs

/-- A port that is not up answers by its enable, then its clock, then its neighbour, then its lanes. -/
theorem exec_plyTraining_down (rc : Bool) (nb : Nat) (rg : List Nat) (lanes : BitVec 4) (se : Bool) :
    exec (.plyTraining p rc nb rg lanes se) s = .next
      (if s.plyEnabled p = false then s.setPlyPort p { state := 5 }
       else if rc = false then s.setPlyPort p { state := 4 }
       else if nb = fld s.ply.cfg.toNat 2 3 ∨ rg.contains nb = true then (s.setPlyPort p { state := 3 }).plyEvent p [3]
       else if lanes = 0 then s.setPlyPort p { state := 1 }
       else (({ s with ply := { s.ply with ord := fld s.ply.cfg.toNat 2 3 } } : State).setPlyPort p
         { state := 2, lanes := lanes, session := se, partner := some nb }).plyEvent p [0]).settle := by
  have hp' : ¬ 2 ≤ p := by omega
  simp [exec, execPlyTraining, finish, hl, hp', hs]

/-- A neighbour that repeats an ordinal of the ring is refused, with the event Pn_REFUSED. -/
theorem exec_plyTraining_refused {nb : Nat} {rg : List Nat} (lanes : BitVec 4) (se : Bool) (he : s.plyEnabled p = true)
    (hr : nb = fld s.ply.cfg.toNat 2 3 ∨ rg.contains nb = true) :
    ∃ t, exec (.plyTraining p true nb rg lanes se) s = .next t ∧ (t.plyPort p).state = 3 ∧
      t.ply.evt.getLsbD (8 * p + 3) = true := by
  refine ⟨_, exec_plyTraining_down hl hp hs true nb rg lanes se, ?_⟩
  rw [if_neg (by simp [he]), if_neg (by decide), if_pos hr, State.settle_ply]
  exact ⟨by simp, State.plyEvent_sets _ hp (by decide) (by decide)⟩

/-- With lanes and a neighbour that repeats no ordinal, the port comes up with its event and the ordinal of PLY_CFG. -/
theorem exec_plyTraining_up {nb : Nat} {rg : List Nat} {lanes : BitVec 4} (se : Bool) (he : s.plyEnabled p = true)
    (hn : nb ≠ fld s.ply.cfg.toNat 2 3) (hr : rg.contains nb = false) (hz : lanes ≠ 0) :
    ∃ t, exec (.plyTraining p true nb rg lanes se) s = .next t ∧ t.ply.ord = fld s.ply.cfg.toNat 2 3 ∧
      t.plyPort p = { state := 2, lanes := lanes, session := se, partner := some nb } ∧ t.ply.evt.getLsbD (8 * p) = true := by
  have hnot : ¬ (nb = fld s.ply.cfg.toNat 2 3 ∨ rg.contains nb = true) := by rw [hr]; simpa using hn
  refine ⟨_, exec_plyTraining_down hl hp hs true nb rg lanes se, ?_⟩
  rw [if_neg (by simp [he]), if_neg (by decide), if_neg hnot, if_neg hz, State.settle_ply]
  exact ⟨by simp, by simp, State.plyEvent_sets _ hp (b := 0) (by decide) (by decide)⟩

end

/-! ## A port that is up: EV_PLY, PLY_HEARTBEAT_MISS and PLY_LINK_DOWN (R329, R484) -/

section
variable {s : State} {p : Nat} (hl : s.live = true) (hp : p < 2)

theorem exec_evPly_sessionless (m : PlyMsg) (hse : (s.plyPort p).session = false) :
    exec (.evPly p m) s = .next s.settle := by
  simp [exec, execEvPly, finish, hse]

include hl hp

/-- A message for trusted firmware joins the inbox; its record in the trace touches nothing of the link. -/
theorem exec_evPly_firmware (hs : (s.plyPort p).state = 2) (hse : (s.plyPort p).session = true) (k : Nat) (ws : List W64) :
    ∃ t, exec (.evPly p (.firmware k ws)) s = .next t ∧ t.ply = { s.ply with inbox := s.ply.inbox ++ [(k, ws)] } := by
  have hp' : ¬ 2 ≤ p := by omega
  refine ⟨_, rfl, ?_⟩
  simp [hl, hp', hs, hse]

theorem exec_plyHeartbeatMiss_up (hs : (s.plyPort p).state = 2) :
    exec (.plyHeartbeatMiss p) s = .next (s.plyEvent p [4]).settle := by
  simp [exec, execPlyHeartbeatMiss, finish, hl, hp, hs]

theorem exec_plyLinkDown_up (hs : (s.plyPort p).state = 2) :
    exec (.plyLinkDown p) s = .next
      ((s.setPlyPort p { state := 0 }).plyEvent p (if (s.plyPort p).session then [1, 2] else [1])).plyGone.settle := by
  simp [exec, execPlyLinkDown, finish, State.plyDown, hl, hp, hs]

/-- The port is down with its event, and SESSION_LOST is set where it had a session. -/
theorem exec_plyLinkDown_sets (hs : (s.plyPort p).state = 2) :
    ∃ t, exec (.plyLinkDown p) s = .next t ∧ (t.plyPort p).state = 0 ∧ (t.plyPort p).session = false ∧
      t.ply.evt.getLsbD (8 * p + 1) = true ∧ ((s.plyPort p).session = true → t.ply.evt.getLsbD (8 * p + 2) = true) := by
  refine ⟨_, exec_plyLinkDown_up hl hp hs, ?_⟩
  rw [State.settle_ply, State.plyGone_evt]
  exact ⟨by simp, by simp, State.plyEvent_sets _ hp (by decide) (by split <;> decide),
    fun hse => State.plyEvent_sets _ hp (by decide) (by simp [hse])⟩

end

/-! ## The statement settled -/

/-- Settles O49: a port that is not up row by row of its training, then a port that is up message by message. -/
theorem plyCommands : Obligations.PlyCommands := by
  unfold Obligations.PlyCommands
  intro s p hl hp
  refine ⟨fun hs => ⟨fun rc nb rg lanes se he => ?disabled, fun nb rg lanes se he => ?noClock,
      fun nb rg lanes se he hr => exec_plyTraining_refused hl hp hs lanes se he hr,
      fun nb rg lanes se he hn hr hz => exec_plyTraining_up hl hp hs se he hn hr hz⟩,
    fun hs => ⟨fun k ws hse => exec_evPly_firmware hl hp hs hse k ws, fun m hse => exec_evPly_sessionless m hse,
      ⟨_, exec_plyHeartbeatMiss_up hl hp hs, ?missed, by simp⟩, exec_plyLinkDown_sets hl hp hs⟩⟩
  case disabled => rw [exec_plyTraining_down hl hp hs, if_pos he]
  case noClock => rw [exec_plyTraining_down hl hp hs, if_neg (by simp [he]), if_pos rfl]
  case missed => rw [State.settle_ply]; exact State.plyEvent_sets s hp (by decide) (by decide)

end Sys2Proof.Machine
end

section
/-! PROOFS. GLB_MODE of chapter 2: every step ends by settling it, and the order in which the conditions give its code; what a microsecond
of an idle block does. -/

namespace Sys2Proof.Machine

/-! ## Every step ends by settling GLB_MODE -/

theorem exec_eq_finish (c : Instr) (s : State) : ∃ u, exec c s = finish u := by
  cases c <;> exact ⟨_, rfl⟩

theorem step_eq_finish (s : State) : ∃ u, step s = finish u := by
  unfold step
  split
  · exact ⟨_, rfl⟩
  · exact exec_eq_finish _ _

/-- A settled state reports one of the codes of Table 2.1. -/
theorem State.Settled.mode_mem {s : State} (h : s.Settled) : s.glb.mode ∈ modeCodes := by
  rw [show s.glb.mode = s.modeNow from h]
  exact s.modeNow_mem

/-! ## The order of the conditions (R34) -/

theorem State.modeNow_vigil {s : State} (h : s.glb.phase = .vigil) : s.modeNow = 0x0F := by
  simp [State.modeNow, h]

theorem State.modeNow_zeroized {s : State} (hp : s.glb.phase ≠ .vigil) (hz : s.glb.zeroized = true) : s.modeNow = 0xC3 := by
  simp [State.modeNow, hp, hz]

section
variable {s : State} (hz : s.glb.zeroized = false)
include hz

theorem State.modeNow_halted (hp : s.glb.phase ≠ .vigil) (hh : s.glb.halted = true) : s.modeNow = 0xAA := by
  simp [State.modeNow, hp, hz, hh]

variable (hh : s.glb.halted = false)
include hh

theorem State.modeNow_kindle (hp : s.glb.phase = .kindle) : s.modeNow = 0x33 := by
  simp [State.modeNow, hp, hz, hh]

theorem State.modeNow_debug (hp : s.glb.phase = .gather ∨ s.glb.phase = .running) (hd : s.glb.debug = true) :
    s.modeNow = 0xA5 := by
  obtain hp | hp := hp <;> simp [State.modeNow, hp, hz, hh, hd]

variable (hd : s.glb.debug = false)
include hd

theorem State.modeNow_gather (hp : s.glb.phase = .gather) : s.modeNow = if s.glb.unseeded then 0x55 else 0x3C := by
  simp [State.modeNow, hp, hz, hh, hd]

/-- In the running phase RAW comes before UPDATE, then DRAIN, then UNSEEDED and CAPPED. -/
theorem State.modeNow_running (hp : s.glb.phase = .running) :
    s.modeNow = if s.glb.raw then 0x99 else if s.glb.update then 0x96 else if s.glb.drain ≠ .none then 0x69
      else if s.glb.unseeded then 0x55 else if s.capped then 0x66 else 0x5A := by
  simp [State.modeNow, hp, hz, hh, hd]

end

theorem State.settle_of_change {s : State} (h : s.modeNow ≠ s.glb.mode) :
    s.settle.glb.mode = s.modeNow ∧ s.settle.glb.prev = s.glb.mode := by
  simp [State.settle, h]

theorem State.settle_of_same {s : State} (h : s.modeNow = s.glb.mode) : s.settle = s := if_pos h

/-! ## What the start of a microsecond leaves -/

/-- The parts of the state that the delay lists are served from. -/
def State.timeParts (s : State) : Glb × Pins × Otp × Heddle × Trace × Tbl Unit' × Tbl Creel × List Instr :=
  (s.glb, s.pins, s.otp, s.hdl, s.trc, s.units, s.creels, s.pending)

theorem State.shtSettle_timeParts (s : State) (i : Nat) : (s.shtSettle i).timeParts = s.timeParts := by
  unfold State.shtSettle; dsimp only
  split
  · rfl
  · simp [State.timeParts]

@[simp] theorem State.vigilTick_parts (s : State) : s.vigilTick.timeParts = s.timeParts := by
  unfold State.vigilTick; split <;> rfl

@[simp] theorem State.advanceTime_ptcBoot (s : State) : s.advanceTime.glb.ptcBoot = s.glb.ptcBoot + 1 := by
  unfold State.advanceTime; dsimp only; split <;> rfl

/-- Counting a microsecond changes GLB_ only. -/
theorem State.advanceTime_parts (s : State) : s.advanceTime = { s with glb := s.advanceTime.glb } := by
  unfold State.advanceTime; dsimp only; split <;> rfl

/-- The state in which the delay lists are looked at: a microsecond counted, the commands that fired early in the queue. -/
def State.microsecond (s : State) : State :=
  (s.each (List.range 8) State.shtSettle).vigilTick.advanceTime.fireEarly

theorem State.microsecond_eq (s : State) :
    s.microsecond.glb.ptcBoot = s.glb.ptcBoot + 1 ∧ s.microsecond.pins = s.pins ∧ s.microsecond.otp = s.otp ∧
      s.microsecond.hdl = { s.hdl with early := [] } ∧ s.microsecond.trc = s.trc ∧
      s.microsecond.pending = s.pending ++ s.hdl.early := by
  have h := (State.vigilTick_parts _).trans
    (State.each_kept State.timeParts (List.range 8) State.shtSettle State.shtSettle_timeParts s)
  simp only [State.timeParts, Prod.mk.injEq] at h
  obtain ⟨hglb, hpins, hotp, hhdl, htrc, -, -, hpend⟩ := h
  unfold State.microsecond State.fireEarly
  rw [State.advanceTime_parts]
  simp only [State.advanceTime_ptcBoot, hglb, hpins, hotp, hhdl, htrc, hpend, and_self]

/-! ## What an expiry makes -/

/-- What an expired entry's command makes: itself, or of a capping interval one with free values (log 89). -/
def Makes (c d : Instr) : Prop := d = c ∨ (∃ p q, c = .cappingInterval p q) ∧ ∃ p q, d = .cappingInterval p q

theorem State.fire_frame (s : State) (c : Instr) :
    (s.fire c).glb = s.glb ∧ (s.fire c).pins = s.pins ∧ (s.fire c).otp = s.otp ∧ (s.fire c).hdl = s.hdl ∧
      (s.fire c).trc = s.trc := by
  unfold State.fire; split <;> simp [State.freeNum]

theorem State.fire_pending (s : State) (c : Instr) : ∃ d, (s.fire c).pending = s.pending ++ [d] ∧ Makes c d := by
  unfold State.fire
  split
  · exact ⟨_, rfl, .inr ⟨⟨_, _, rfl⟩, _, _, rfl⟩⟩
  · exact ⟨c, rfl, .inl rfl⟩

theorem State.fireAll_frame (s : State) (cs : List Instr) :
    (cs.foldl State.fire s).glb = s.glb ∧ (cs.foldl State.fire s).pins = s.pins ∧ (cs.foldl State.fire s).otp = s.otp ∧
      (cs.foldl State.fire s).hdl = s.hdl ∧ (cs.foldl State.fire s).trc = s.trc := by
  have h := State.foldl_kept (fun s => (s.glb, s.pins, s.otp, s.hdl, s.trc)) cs State.fire
    (fun s c => by simpa only [Prod.mk.injEq] using s.fire_frame c) s
  simpa only [Prod.mk.injEq] using h

theorem State.fireAll_pending (cs : List Instr) (s : State) :
    ∃ ds, (cs.foldl State.fire s).pending = s.pending ++ ds ∧ (∀ c ∈ cs, ∃ d ∈ ds, Makes c d) ∧
      ∀ d ∈ ds, ∃ c ∈ cs, Makes c d := by
  induction cs generalizing s with
  | nil => exact ⟨[], by simp⟩
  | cons c cs ih =>
    obtain ⟨d, hd, hmakes⟩ := s.fire_pending c
    obtain ⟨ds, hds, hall, hfrom⟩ := ih (s.fire c)
    refine ⟨d :: ds, by rw [List.foldl_cons, hds, hd]; simp, ?_, ?_⟩
    · simp only [List.forall_mem_cons]
      exact ⟨⟨d, by simp, hmakes⟩, fun x hx => (hall x hx).imp (by simp_all)⟩
    · simp only [List.forall_mem_cons]
      exact ⟨⟨c, by simp, hmakes⟩, fun x hx => (hfrom x hx).imp (by simp_all)⟩

/-! ## The expiry of a delay list (R335) -/

theorem State.dl_setDl_ne (s : State) {l k : Nat} (es : List DlEntry) (h : k ≠ l) : (s.setDl l es).dl k = s.dl k := by
  simp [State.dl, State.setDl, Tbl.getD_put_ne _ _ _ h]

/-- The entries of a delay list that have expired. -/
def State.due (s : State) (l : Nat) : List DlEntry := (s.dl l).filter (fun e => e.at_ ≤ s.now)

theorem State.mem_due {s : State} {l : Nat} {e : DlEntry} : e ∈ s.due l ↔ e ∈ s.dl l ∧ e.at_ ≤ s.now := by
  simp [State.due]

theorem State.due_congr {s t : State} {k : Nat} (hglb : t.glb = s.glb) (hdl : t.dl k = s.dl k) : t.due k = s.due k := by
  rw [State.due, State.now, hglb, hdl]; rfl

/-- An expiry keeps the time, the pins and OTP, whatever the trace records of it. -/
theorem State.expireList_frame (s : State) (l : Nat) :
    (s.expireList l).glb = s.glb ∧ (s.expireList l).pins = s.pins ∧ (s.expireList l).otp = s.otp := by
  unfold State.expireList; dsimp only
  split
  · simp
  · have h := State.each_kept (fun s => (s.glb, s.pins, s.otp)) (List.range (s.due l).length)
      (fun s _ => s.trace { event := 0x0E, src := some 3, arg := l }) (by simp)
      (s.setDl l ((s.dl l).filter (fun e => decide (s.now < e.at_))))
    simp only [Prod.mk.injEq, State.setDl_frame] at h
    simpa [State.due, State.fireAll_frame] using h

/-- No record is kept of an expiry and none waits for the mirror ring. -/
def State.TraceQuiet (s : State) : Prop := s.trc.enable = false ∧ s.trc.mirQ = []

theorem State.TraceQuiet.trace_expiry {s : State} (h : s.TraceQuiet) (l : Nat) :
    s.trace { event := 0x0E, src := some 3, arg := l } = s := by
  obtain ⟨he, hm⟩ := h
  simp [State.trace, State.traceBuf, State.records, he, State.mirrorAll, hm, State.mirrorFlush]

theorem State.TraceQuiet.each_trace_expiry {s : State} (h : s.TraceQuiet) (n l : Nat) :
    s.each (List.range n) (fun s _ => s.trace { event := 0x0E, src := some 3, arg := l }) = s := by
  generalize List.range n = ns
  induction ns with
  | nil => rfl
  | cons n ns ih => rw [State.each_cons, h.trace_expiry, ih]

/-- With the trace off an expiry fires the commands that are due, and nothing else. -/
theorem State.TraceQuiet.expireList_eq {s : State} (h : s.TraceQuiet) (l : Nat) :
    s.expireList l = if (s.due l).isEmpty then s else
      ((s.due l).map (·.cmd)).foldl State.fire (s.setDl l ((s.dl l).filter (fun e => decide (s.now < e.at_)))) := by
  have hset : (s.setDl l ((s.dl l).filter (fun e => decide (s.now < e.at_)))).TraceQuiet := by
    simpa [State.TraceQuiet] using h
  unfold State.expireList; dsimp only
  rw [hset.each_trace_expiry]
  rfl

/-- What the expiry of one list does with the trace off: the queue takes what its entries make, the other lists stay. -/
theorem State.TraceQuiet.expireList {s : State} (h : s.TraceQuiet) (l : Nat) :
    (s.expireList l).TraceQuiet ∧ (∀ k, k ≠ l → (s.expireList l).due k = s.due k) ∧
      ∃ ds, (s.expireList l).pending = s.pending ++ ds ∧ (∀ e ∈ s.due l, ∃ d ∈ ds, Makes e.cmd d) ∧
        ∀ d ∈ ds, ∃ e ∈ s.due l, Makes e.cmd d := by
  rw [h.expireList_eq]
  split
  · next hd => exact ⟨h, fun _ _ => rfl, [], by simp, by simp_all [List.isEmpty_iff], by simp⟩
  · obtain ⟨hglb, -, -, hhdl, htrc⟩ := State.fireAll_frame
      (s.setDl l ((s.dl l).filter (fun e => decide (s.now < e.at_)))) ((s.due l).map (·.cmd))
    obtain ⟨ds, hds, hall, hfrom⟩ := State.fireAll_pending ((s.due l).map (·.cmd))
      (s.setDl l ((s.dl l).filter (fun e => decide (s.now < e.at_))))
    refine ⟨?_, fun k hk => ?_, ds, by simpa using hds, by simpa using hall, by simpa using hfrom⟩
    · simpa [State.TraceQuiet, htrc] using h
    · exact State.due_congr hglb (by rw [State.dl, hhdl]; exact s.dl_setDl_ne _ hk)

/-- The expiry of several lists with the trace off. -/
theorem State.TraceQuiet.each_expireList {ls : List Nat} (hls : ls.Nodup) {s : State} (h : s.TraceQuiet) :
    ∃ ds, (s.each ls State.expireList).pending = s.pending ++ ds ∧ (∀ l ∈ ls, ∀ e ∈ s.due l, ∃ d ∈ ds, Makes e.cmd d) ∧
      ∀ d ∈ ds, ∃ l ∈ ls, ∃ e ∈ s.due l, Makes e.cmd d := by
  induction ls generalizing s with
  | nil => exact ⟨[], by simp⟩
  | cons l ls ih =>
    obtain ⟨hnot, hls⟩ := List.nodup_cons.mp hls
    obtain ⟨hq, hdue, ds, hds, hall, hfrom⟩ := h.expireList l
    obtain ⟨ds', hds', hall', hfrom'⟩ := ih hls hq
    have hkeep (k : Nat) (hk : k ∈ ls) : (s.expireList l).due k = s.due k := hdue k (fun hkl => hnot (hkl ▸ hk))
    refine ⟨ds ++ ds', by rw [State.each_cons, hds', hds, List.append_assoc], ?_, fun d hd => ?_⟩
    · rw [List.forall_mem_cons]
      exact ⟨fun e he => (hall e he).imp fun d hd => ⟨List.mem_append_left _ hd.1, hd.2⟩,
        fun k hk e he => (hall' k hk e (hkeep k hk ▸ he)).imp fun d hd => ⟨List.mem_append_right _ hd.1, hd.2⟩⟩
    · obtain hd | hd := List.mem_append.mp hd
      · exact ⟨l, by simp, hfrom d hd⟩
      · obtain ⟨k, hk, he⟩ := hfrom' d hd
        exact ⟨k, by simp [hk], hkeep k hk ▸ he⟩

/-! ## A microsecond of an idle block -/

/-- The state a ticking block is in when its delay lists have been served. -/
def State.expired (s : State) : State := s.microsecond.each (List.range 8) State.expireList

theorem step_ticking {s : State} (hp : s.pending = []) (ht : s.ticking = true) :
    step s = .next s.expired.expireWarm.settle := by
  simp [step, hp, tick, ht, finish, State.expired, State.microsecond]

theorem step_still {s : State} (hp : s.pending = []) (ht : s.ticking = false) : step s = .next s.settle := by
  simp [step, hp, tick, ht, finish]

theorem State.expired_frame (s : State) :
    s.expired.glb = s.microsecond.glb ∧ s.expired.pins = s.pins ∧ s.expired.otp = s.otp := by
  have h := State.each_kept (fun s => (s.glb, s.pins, s.otp)) (List.range 8) State.expireList
    (fun s l => by simpa only [Prod.mk.injEq] using s.expireList_frame l) s.microsecond
  obtain ⟨-, hpins, hotp, -⟩ := s.microsecond_eq
  simp only [Prod.mk.injEq, hpins, hotp] at h
  exact h

/-- Spindles' time-outs join the queue, and nothing else changes (R239). -/
theorem State.expireWarm_eq (s : State) :
    ∃ ws, s.expireWarm = { s with pending := s.pending ++ ws } ∧ ∀ c ∈ ws, ∃ f k u, c = .warmKeyTimeout f k u := by
  refine ⟨_, rfl, fun c hc => ?_⟩
  obtain ⟨e, -, rfl⟩ := List.mem_map.mp hc
  exact ⟨_, _, _, rfl⟩

/-- The queue after a microsecond with the trace off: what had fired early, what the due entries make, the warm keys' time-outs. -/
theorem State.TraceQuiet.pending_expired {s : State} (h : s.TraceQuiet) (hp : s.pending = []) :
    ∃ ds, s.expired.pending = s.hdl.early ++ ds ∧
      (∀ l < 8, ∀ e ∈ s.dl l, e.at_ ≤ s.microsecond.now → ∃ d ∈ ds, Makes e.cmd d) ∧
      ∀ d ∈ ds, ∃ l < 8, ∃ e ∈ s.dl l, e.at_ ≤ s.microsecond.now ∧ Makes e.cmd d := by
  obtain ⟨-, -, -, hhdl, htrc, hpend⟩ := s.microsecond_eq
  have hq : s.microsecond.TraceQuiet := by simpa [State.TraceQuiet, htrc] using h
  have hdl (l : Nat) : s.microsecond.dl l = s.dl l := by simp [State.dl, hhdl]
  obtain ⟨ds, hds, hall, hfrom⟩ := hq.each_expireList List.nodup_range (ls := List.range 8)
  simp only [State.mem_due, hdl, List.mem_range, and_imp, and_assoc] at hall hfrom
  exact ⟨ds, by rw [State.expired, hds, hpend, hp, List.nil_append], hall, hfrom⟩

/-! ## The statements settled -/

/-- Settles O4: every command of the table, and the tick, ends with `finish`. -/
theorem everyStepReportsItsMode : Obligations.EveryStepReportsItsMode := by
  unfold Obligations.EveryStepReportsItsMode
  intro s t h
  obtain ⟨u, hu⟩ := step_eq_finish s
  obtain rfl : u.settle = t := by simpa [hu, finish] using h
  exact ⟨u.settle_settled, u.settle_settled.mode_mem⟩

/-- Settles O6, condition by condition in the order of R34. -/
theorem modeOrder : Obligations.ModeOrder := by
  unfold Obligations.ModeOrder
  intro s
  refine ⟨State.modeNow_vigil, State.modeNow_zeroized, fun hp hz hh => State.modeNow_halted hz hp hh,
    fun hp hz hh => State.modeNow_kindle hz hh hp, fun hp hz hh => ⟨State.modeNow_debug hz hh hp,
      fun hd hg => State.modeNow_gather hz hh hd hg, fun hd hr => ?running⟩,
    State.settle_of_change, State.settle_of_same⟩
  case running =>
    rw [State.modeNow_running hz hh hd hr]
    exact ⟨fun h => by simp [h], fun h1 h2 => by simp [h1, h2],
      fun h1 h2 => ⟨fun h3 => by simp [h1, h2, h3], fun h3 => by simp [h1, h2, h3]⟩⟩

/-- Settles O2: a block that measures no time stays; of one that does, the queue is what `State.expired` and `expireWarm` put there. -/
theorem emptyQueuePassesAMicrosecond : Obligations.EmptyQueuePassesAMicrosecond := by
  unfold Obligations.EmptyQueuePassesAMicrosecond
  intro s hp
  refine ⟨step_still hp, fun ht => ?_⟩
  obtain ⟨hglb, hpins, hotp⟩ := s.expired_frame
  obtain ⟨hboot, -⟩ := s.microsecond_eq
  obtain ⟨ws, hwarm, hws⟩ := s.expired.expireWarm_eq
  have hnow : s.expired.expireWarm.settle.now = s.microsecond.now := by simp [State.now, hwarm, hglb]
  refine ⟨_, step_ticking hp ht, by simp [hwarm, hglb, hboot], by simp [hwarm, hotp], by simp [hwarm, hpins],
    fun he hm => ?_⟩
  obtain ⟨ds, hds, hall, hfrom⟩ := State.TraceQuiet.pending_expired (s := s) ⟨he, hm⟩ hp
  rw [hnow, State.settle_pending, hwarm]
  simp only [hds, List.mem_append]
  refine ⟨fun l e hl hel hat hcap => ?due, fun c hc => ?only⟩
  case due =>
    obtain ⟨d, hd, rfl | ⟨⟨p, q, hpq⟩, -⟩⟩ := hall l hl e hel hat
    · exact .inl (.inr hd)
    · exact absurd hpq (hcap p q)
  case only =>
    obtain (hc | hc) | hc := hc
    · exact .inl hc
    · obtain ⟨l, hl, e, hel, hat, hmakes⟩ := hfrom c hc
      exact .inr (.inl ⟨l, e, hl, hel, hat, hmakes.imp id (·.2)⟩)
    · exact .inr (.inr (hws c hc))

/-- Settles O3: every value is the default of its field. -/
theorem resetLeaves : Obligations.ResetLeaves := by
  unfold Obligations.ResetLeaves
  refine ⟨?_, ?_, ?_, ?_, ?_, ?_, ?_, ?_, ?_, ?_, ?_, ?_, ?_, ?_, ?_⟩ <;> rfl

/-- The state after reset is held in reset, and reports KINDLE. -/
theorem State.reset_settled : State.reset.Settled := rfl

/-- Settles O5. -/
theorem resetReportsItsMode : Obligations.ResetReportsItsMode := by
  unfold Obligations.ResetReportsItsMode
  exact ⟨State.reset_settled, State.reset_settled.mode_mem⟩

end Sys2Proof.Machine
end

section
/-! PROOFS. The resets of Table 2.6: what a power-on reset, a reset that keeps power and the loss of main power keep. -/

namespace Sys2Proof.Machine

/-! ## What a reset that keeps power keeps -/

/-- What `deviceReset` and `assertPerst` share with the reset they begin with. -/
theorem State.keptByReset_of_warm {s t : State} {c : BitVec 4} (hphase : t.glb.phase = .held) (hcause : t.glb.nextCause = c)
    (hrings : t.rings = []) (hjobs : t.jobs = []) (hvfs : t.host.numVfs = 0) (hotp : t.otp = s.otp) (hvigil : t.vigil = s.vigil)
    (hpers : t.rng.pers = s.rng.pers) (hkst : t.kst = (s.warmReset c).kst) : s.KeptByReset t c :=
  ⟨hphase, hcause, hrings, hjobs, hvfs, hotp, hvigil, hpers, fun h => by simp [hkst, State.warmReset, h]⟩

theorem State.deviceReset_settled_kept (s : State) (c : BitVec 4) : s.KeptByReset (s.deviceReset c).settle c := by
  refine State.keptByReset_of_warm ?_ ?_ ?_ ?_ ?_ ?_ ?_ ?_ ?_ <;> simp <;> rfl

theorem State.deviceReset_settled_linkStays (s : State) (c : BitVec 4) : s.LinkStays (s.deviceReset c).settle := by
  simp [State.LinkStays, State.deviceReset]

/-- PERST_N on a device that runs is a reset with cause 1. -/
theorem State.assertPerst_of_running {s : State} (h : s.glb.phase ≠ .held) :
    s.assertPerst = { s.warmReset 1 with
      pins := { (s.warmReset 1).pins with perst := true, armed := false }
      host := { (s.warmReset 1).host with width := 0, speed := 0, flit := false, bar0 := 0, bar2 := 0, command := 0 } } := by
  simp [State.assertPerst, h]

/-- PERST_N on a device that is held changes the cause of its next start and the link only. -/
theorem State.assertPerst_of_held {s : State} (h : s.glb.phase = .held) :
    s.assertPerst = { s with
      glb := { s.glb with nextCause := if s.glb.nextCause = 0 then 0 else 1 }
      pins := { s.pins with perst := true, armed := false }
      host := { s.host with width := 0, speed := 0, flit := false, bar0 := 0, bar2 := 0, command := 0 } } := by
  simp [State.assertPerst, h]

theorem State.assertPerst_kept {s : State} (h : s.glb.phase ≠ .held) : s.KeptByReset s.assertPerst 1 := by
  rw [State.assertPerst_of_running h]
  exact State.keptByReset_of_warm rfl rfl rfl rfl rfl rfl rfl rfl rfl

/-- Only GLB_MODE, the pins and the link separate a state from what `KeptByReset` says of it. -/
theorem State.KeptByReset.congr {s t u : State} {c : BitVec 4} (h : s.KeptByReset t c) (hphase : u.glb.phase = t.glb.phase)
    (hcause : u.glb.nextCause = t.glb.nextCause) (hhost : u.host = t.host) (hrings : u.rings = t.rings) (hjobs : u.jobs = t.jobs)
    (hotp : u.otp = t.otp) (hvigil : u.vigil = t.vigil) (hrng : u.rng = t.rng) (hkst : u.kst = t.kst) : s.KeptByReset u c := by
  unfold State.KeptByReset
  rw [hphase, hcause, hhost, hrings, hjobs, hotp, hvigil, hrng, hkst]
  exact h

/-! ## The commands -/

section
variable {s : State}

theorem exec_powerOn_off (h : s.pins.mainPower = false) : exec .powerOn s = .next ({ s.coldReset with
    pins := { s.coldReset.pins with mainPower := true, pwrOk := true, perst := true, onCell := false } } : State).settle := by
  simp [exec, execPowerOn, finish, h]

/-- The state after PWR_OK fell in state `t`. -/
def State.withoutPwrOk (t : State) : State := { t with pins := { t.pins with pwrOk := false, perst := true, thermTrip := false } }

theorem exec_pwrOkLow_powered (h : s.pins.mainPower = true) :
    exec .pwrOkLow s = .next (if s.glb.tripped then s.coldReset else s.assertPerst).withoutPwrOk.settle := by
  simp [exec, execPwrOkLow, finish, h, State.withoutPwrOk]

theorem exec_perstNAssert_powered (h : s.pins.mainPower = true) : exec .perstNAssert s = .next s.assertPerst.settle := by
  simp [exec, execPerstNAssert, finish, h]

theorem exec_glbResetWrite_open (h : s.barsOpen = true) (v : W32) :
    exec (.glbResetWrite v) s = .next (if v = 0x9528 then s.deviceReset 2 else s).settle := by
  simp [exec, execGlbResetWrite, finish, h]

theorem exec_pfFlr_open (h : s.barsOpen = true) : exec .pfFlr s = .next (s.deviceReset 3).settle := by
  simp [exec, execPfFlr, finish, h]

end

/-! ## The loss of main power (R426, R464) -/

/-- What is cut short when power is lost is OTP's: pins, vigil RAM and the modes stay. -/
theorem State.cutLife_frame (s : State) :
    s.cutLife.pins = s.pins ∧ s.cutLife.vigil = s.vigil ∧ s.cutLife.glb = s.glb ∧ s.cutLife.jobs = s.jobs := by
  unfold State.cutLife State.freeNum; dsimp only; (repeat' split) <;> simp

theorem State.cutPair_frame (s : State) (a b : OtpSlot) (da db : Bytes) :
    (s.cutPair a b da db).2.2.pins = s.pins ∧ (s.cutPair a b da db).2.2.vigil = s.vigil ∧
      (s.cutPair a b da db).2.2.glb = s.glb ∧ (s.cutPair a b da db).2.2.jobs = s.jobs := by
  unfold State.cutPair State.cutSlot State.freeBit State.freeBytes; dsimp only; (repeat' split) <;> simp

theorem State.drawDrs_frame (s : State) :
    s.drawDrs.2.pins = s.pins ∧ s.drawDrs.2.vigil = s.vigil ∧ s.drawDrs.2.glb = s.glb ∧ s.drawDrs.2.jobs = s.jobs := by
  unfold State.drawDrs State.drawT State.generate State.freeNum; dsimp only; split <;> simp

theorem State.cutDrs_frame (s : State) :
    s.cutDrs.pins = s.pins ∧ s.cutDrs.vigil = s.vigil ∧ s.cutDrs.glb = s.glb ∧ s.cutDrs.jobs = s.jobs := by
  unfold State.cutDrs; dsimp only
  split <;> simp [State.cutPair_frame, State.drawDrs_frame]

theorem State.cutIkey_frame (s : State) : s.cutIkey.pins = s.pins ∧ s.cutIkey.vigil = s.vigil := by
  unfold State.cutIkey; dsimp only
  (repeat' split) <;> simp [State.cutPair_frame]

theorem State.cutOtp_frame (s : State) : s.cutOtp.pins = s.pins ∧ s.cutOtp.vigil = s.vigil := by
  simp [State.cutOtp, State.cutIkey_frame, State.cutDrs_frame, State.cutLife_frame]

/-- Where nothing is being programmed, nothing is cut short. -/
theorem State.cutOtp_idle {s : State} (hrun : s.lcs.run = none) (hphase : s.glb.phase ≠ .gather) (hjobs : s.jobs = []) :
    s.cutOtp = s := by
  have hlife : s.cutLife = s := by simp [State.cutLife, hrun]
  have hdrs : s.cutDrs = s := by simp [State.cutDrs, hphase]
  simp [State.cutOtp, hlife, hdrs, State.cutIkey, hjobs]

/-- The device in VIGIL after it lost main power. -/
def State.unpowered (s : State) : State :=
  let t := if s.pins.cell then s.cutOtp.coldReset else s.cutOtp.coldReset.loseVigil
  { t with
    pins := { t.pins with mainPower := false, pwrOk := false, perst := true, onCell := t.pins.cell, thermTrip := false }
    glb := { t.glb with phase := .vigil, mode := 0x0F } }

theorem exec_mainPowerLoss_powered {s : State} (h : s.pins.mainPower = true) :
    exec .mainPowerLoss s = .next s.unpowered.settle := by
  simp [exec, execMainPowerLoss, finish, h, State.unpowered]

theorem State.unpowered_phase (s : State) : s.unpowered.glb.phase = .vigil := rfl

/-- It reports VIGIL already. -/
theorem State.settle_unpowered (s : State) : s.unpowered.settle = s.unpowered :=
  State.settle_of_same (State.modeNow_vigil s.unpowered_phase)

theorem State.unpowered_keeps (s : State) :
    s.unpowered.pins.onCell = s.pins.cell ∧ s.unpowered.kst.keys = [] ∧ s.unpowered.jobs = [] ∧ s.unpowered.rings = [] ∧
      s.unpowered.otp = s.cutOtp.otp ∧ (s.pins.cell = true → s.unpowered.vigil = s.vigil) := by
  obtain ⟨hpins, hvigil⟩ := s.cutOtp_frame
  by_cases hc : s.pins.cell = true
  · simp [State.unpowered, hc, State.coldReset, State.blank, hpins, hvigil, Kst.cold]
  · simp [State.unpowered, hc, State.coldReset, State.loseVigil, State.blank, hpins, Kst.cold]

/-! ## The statement settled -/

/-- Settles O7, reset by reset. -/
theorem resetCommands : Obligations.ResetCommands := by
  unfold Obligations.ResetCommands
  intro s
  refine ⟨fun h => ⟨_, exec_powerOn_off h, ?powerOn⟩,
    fun h ht => ⟨_, by rw [exec_pwrOkLow_powered h, if_pos ht], ?tripped⟩,
    fun h ht hp => ⟨_, by rw [exec_pwrOkLow_powered h, if_neg (by simp [ht])], ?pwrOk⟩,
    fun h hp => ⟨_, exec_perstNAssert_powered h, ?perst⟩,
    fun h hp ht c hc => ?held,
    fun hb => ⟨⟨_, by rw [exec_glbResetWrite_open hb, if_pos rfl], s.deviceReset_settled_linkStays 2,
        s.deviceReset_settled_kept 2⟩,
      fun v hv => by rw [exec_glbResetWrite_open hb, if_neg hv],
      ⟨_, exec_pfFlr_open hb, s.deviceReset_settled_linkStays 3, s.deviceReset_settled_kept 3⟩⟩,
    fun h => ⟨_, exec_mainPowerLoss_powered h, ?loss⟩⟩
  case powerOn => simp [State.coldReset, State.blank, Kst.cold]
  case tripped => simp [State.withoutPwrOk, State.coldReset, State.blank, Kst.cold]
  case pwrOk =>
    refine ⟨by simp [State.withoutPwrOk], by simp [State.withoutPwrOk], ?_,
      (State.assertPerst_kept hp).congr ?_ ?_ ?_ ?_ ?_ ?_ ?_ ?_ ?_⟩ <;> simp [State.withoutPwrOk, State.assertPerst]
  case perst =>
    refine ⟨?_, ?_, (State.assertPerst_kept hp).congr ?_ ?_ ?_ ?_ ?_ ?_ ?_ ?_ ?_⟩ <;> simp [State.assertPerst]
  case held =>
    simp only [List.mem_cons, List.not_mem_nil, or_false] at hc
    obtain rfl | rfl := hc
    · refine ⟨_, exec_perstNAssert_powered h, ?_⟩
      simp [State.assertPerst_of_held hp, hp]
    · refine ⟨_, by rw [exec_pwrOkLow_powered h, if_neg (by simp [ht])], ?_⟩
      simp [State.withoutPwrOk, State.assertPerst_of_held hp, hp]
  case loss =>
    obtain ⟨hcell, hkeys, hjobs, hrings, hotp, hvigil⟩ := s.unpowered_keeps
    rw [s.settle_unpowered]
    exact ⟨rfl, rfl, rfl, hcell, hkeys, hjobs, hrings, hotp,
      fun hr hp hj => by rw [hotp, State.cutOtp_idle hr hp hj], hvigil⟩

end Sys2Proof.Machine
end

section
/-! PROOFS. Power-up of Table 2.7: what a step of KINDLE leaves of the modes and how it fails, what t9 to t12 end with, UNSEEDED,
fail-stop and the sources of time. -/

namespace Sys2Proof.Machine

/-! ## What the tamper block and the erasures leave of a power-up -/

/-- Where a power-up stands: whether it has failed, the reset it follows, its phase, and what is known to fail. -/
def State.marks (s : State) : Bool × BitVec 4 × Phase × List Byte :=
  (s.glb.halted, s.glb.cause, s.glb.phase, s.glb.failCauses)

theorem State.marks_of_glb {s t : State} (h : t.glb = s.glb) : t.marks = s.marks := by simp [State.marks, h]

@[simp] theorem State.each_dgeMisuse_glb (s : State) (l : List Nat) : (s.each l (fun s _ => s.dgeMisuse)).glb = s.glb :=
  State.each_kept (·.glb) l (fun s _ => s.dgeMisuse) (fun _ _ => rfl) s

@[simp] theorem State.wipeDigests_glb (s : State) : s.wipeDigests.glb = s.glb := by
  refine State.each_kept (·.glb) _ _ (fun s n => ?_) s
  dsimp only
  split <;> simp

@[simp] theorem State.endSessions_glb (s : State) : s.endSessions.glb = s.glb := rfl

theorem State.eraseSecrets_glb (s : State) : s.eraseSecrets.glb = { s.glb with root := false } := by
  simp [State.eraseSecrets]

@[simp] theorem State.eraseSecrets_marks (s : State) : s.eraseSecrets.marks = s.marks := by
  simp [State.marks, State.eraseSecrets_glb]

@[simp] theorem State.freezeJobs_glb (s : State) (p : Job → Bool) (d : Nat) : (s.freezeJobs p d).glb = s.glb :=
  State.each_kept (·.glb) _ _ (by simp) s

@[simp] theorem State.endLifeDrain_marks (s : State) : s.endLifeDrain.marks = s.marks := by
  unfold State.endLifeDrain; split <;> rfl

@[simp] theorem State.stopTransition_marks (s : State) : s.stopTransition.marks = s.marks := by
  unfold State.stopTransition
  split
  · rfl
  · split
    · simp [State.marks_of_glb (s := s)]
    · exact State.marks_of_glb (by simp)

@[simp] theorem State.cancelDrain_marks (s : State) (j : Nat) : (s.cancelDrain j).marks = s.marks := by
  unfold State.cancelDrain; dsimp only; (repeat' split) <;> rfl

@[simp] theorem State.freeze_marks (s : State) : s.freeze.marks = s.marks := by
  refine Eq.trans ?_ s.stopTransition_marks
  simp [State.freeze, State.marks]

@[simp] theorem State.zeroize_marks (s : State) : s.zeroize.marks = s.marks := by
  refine Eq.trans ?_ ((State.each_kept State.marks s.stopTransition.glb.drainWaiters State.cancelDrain
    State.cancelDrain_marks _).trans s.stopTransition_marks)
  simp [State.zeroize, State.marks, State.eraseSecrets_glb]

@[simp] theorem State.tmpSettle_glb (s : State) : s.tmpSettle.glb = s.glb := rfl
@[simp] theorem State.logRec_glb (s : State) (a b c d e f : Nat) : (s.logRec a b c d e f).glb = s.glb := by
  simp [State.logRec]

/-- The alarm of a response: its bits in TMP_EVT, and vector 0. -/
theorem State.raiseAlarm_marks (s : State) (a : Nat) (v : W32) :
    (if 1 ≤ a then ({ s with tmp := { s.tmp with evt := v } } : State).signal 0 0 else s).marks = s.marks := by
  split
  · exact State.marks_of_glb (by simp)
  · rfl

@[simp] theorem State.respond_marks (s : State) (a : Nat) (l : List Nat) : (s.respond a l).marks = s.marks := by
  unfold State.respond; dsimp only
  split
  · (repeat' split) <;> rfl
  · refine (State.marks_of_glb (State.tmpSettle_glb _)).trans (Eq.trans ?_
      (s.raiseAlarm_marks a (s.tmp.evt ||| l.foldl (fun m n => setBit m n true) 0)))
    (repeat' split) <;> simp

theorem State.weigh_glb (s : State) (e : TamperEv) : (s.weigh e).2.glb = s.glb := by
  unfold State.weigh State.countEvent; dsimp only; split <;> rfl

theorem State.weighAll_glb (s : State) (es : List TamperEv) : (s.weighAll es).2.glb = s.glb := by
  induction es generalizing s with
  | nil => rfl
  | cons e es ih => simp [State.weighAll, ih, State.weigh_glb]

@[simp] theorem State.fireGroup_marks (s : State) (es : List TamperEv) : (s.fireGroup es).marks = s.marks := by
  unfold State.fireGroup; dsimp only
  split
  · rfl
  · rw [State.respond_marks]
    refine State.marks_of_glb ((State.foldl_kept (·.glb) _ _ (fun s w => ?_) _).trans (State.weighAll_glb _ _))
    simp [State.logEvent]

@[simp] theorem State.sourcesAtT2_marks (s : State) (es : List TamperEv) : (s.sourcesAtT2 es).marks = s.marks :=
  (State.fireGroup_marks _ _).trans (State.each_kept State.marks _ State.clearSource (fun _ _ => rfl) s)

/-! ## The steps of KINDLE -/

/-- A step of KINDLE goes through, or fails; either way the power-up is where it was. -/
def State.StepsTo (s t : State) : Prop := ∃ u, u.marks = s.marks ∧ (t = u ∨ ∃ c, t = u.kindleFail c)

theorem State.StepsTo.of_marks {s t : State} (h : t.marks = s.marks) : s.StepsTo t := ⟨t, h, .inl rfl⟩

theorem State.stepFails_of_marks {s t : State} (h : t.marks = s.marks) (c : Byte) : t.stepFails c = s.stepFails c := by
  simp only [State.marks, Prod.mk.injEq] at h
  obtain ⟨-, -, -, hf⟩ := h
  simp [State.stepFails, hf]

@[simp] theorem State.loadLcs_marks (s : State) (m : Nat) : (s.loadLcs m).marks = s.marks := rfl

theorem State.eraseUser_marks (s : State) : s.eraseUser.marks = s.marks := by
  refine Eq.trans ?_ s.eraseSecrets_marks
  simp [State.eraseUser, State.marks]

theorem State.resumeTransition_marks (s : State) (m k : Nat) : (s.resumeTransition m k).marks = s.marks := by
  unfold State.resumeTransition; dsimp only
  split
  · simpa [State.marks] using s.eraseUser_marks
  · rfl

/-- SCRAPPED is ZEROIZED from t1 on. -/
theorem State.scrapped_marks (s : State) : (if s.lcs.state = 0xC3 then
    ({ s.eraseSecrets with glb := { s.eraseSecrets.glb with zeroized := true, zeroizedThisBoot := true } } : State)
    else s).marks = s.marks := by
  split
  · simpa [State.marks] using s.eraseSecrets_marks
  · rfl


theorem State.StepsTo.of_fail {s u : State} {c : Byte} (h : u.marks = s.marks) : s.StepsTo (u.kindleFail c) :=
  ⟨u, h, .inr ⟨c, rfl⟩⟩

/-- t1 goes through or fails, and it fails where a failure with code 1 is due. -/
theorem State.kindleT1_cases (s : State) :
    ∃ u, u.marks = s.marks ∧ ((∃ c, s.kindleT1 = u.kindleFail c) ∨ s.kindleT1 = u ∧ u.stepFails 1 = false) := by
  suffices h : ∀ t, t = s.kindleT1 → ∃ u, u.marks = s.marks ∧ ((∃ c, t = u.kindleFail c) ∨ t = u ∧ u.stepFails 1 = false) from
    h _ rfl
  intro t ht
  unfold State.kindleT1 at ht
  extract_lets _ _ _ counted _ _ _ at ht
  split at ht
  · exact ⟨counted, rfl, .inl ⟨_, ht⟩⟩
  · next m pend h =>
    extract_lets loaded _ _ _ _ _ _ seen at ht
    have hloaded : loaded.marks = s.marks := by
      unfold loaded; split
      · exact (State.resumeTransition_marks _ _ _)
      · rfl
    have hseen : seen.marks = s.marks := loaded.scrapped_marks.trans hloaded
    split at ht
    · exact ⟨_, hseen, .inl ⟨_, ht⟩⟩
    · split at ht
      · exact ⟨_, hseen, .inl ⟨_, ht⟩⟩
      · next hnot =>
        obtain ⟨hpass, -⟩ := not_or.1 (by simpa only [Bool.or_eq_true] using hnot)
        exact ⟨_, hseen, .inr ⟨ht, by simpa only [Bool.not_eq_true] using hpass⟩⟩

theorem State.kindleT1_steps (s : State) : s.StepsTo s.kindleT1 := by
  obtain ⟨u, hu, ⟨c, h⟩ | ⟨h, -⟩⟩ := s.kindleT1_cases
  · exact ⟨u, hu, .inr ⟨c, h⟩⟩
  · exact ⟨u, hu, .inl h⟩

@[simp] theorem State.vbatRead_glb (s : State) (a b : Nat) : (s.vbatRead a b).glb = s.glb := rfl

theorem State.kindleT2_marks (s : State) (env : KindleEnv) : (s.kindleT2 env).marks = s.marks := by
  unfold State.kindleT2
  extract_lets read _ _ loaded timed alarmed _ _ _ _ _ fresh logged _ cell
  have htimed : timed.marks = s.marks := by
    refine State.marks_of_glb ((State.dlInsert_frame _ _ _ _).1.trans (?_ : read.glb = s.glb))
    unfold read; split <;> rfl
  clear_value timed
  split
  · have halarmed : alarmed.marks = timed.marks := by
      unfold alarmed; split
      · rfl
      · exact State.marks_of_glb (by simp)
    clear_value alarmed
    exact (State.sourcesAtT2_marks _ _).trans (Eq.trans rfl (halarmed.trans htimed))
  · have hcell : cell.marks = timed.marks := by
      unfold cell; split
      · rfl
      · exact (State.respond_marks _ _ _).trans (State.marks_of_glb (s := fresh) (show logged.glb = fresh.glb from State.logRec_glb ..))
    clear_value cell
    exact (State.sourcesAtT2_marks _ _).trans (hcell.trans htimed)

/-- A step that may fail by itself, and else leaves the power-up where it is. -/
theorem State.StepsTo.of_ite {s t : State} {c : Byte} {p : Prop} [Decidable p] (h : t.marks = s.marks) :
    s.StepsTo (if p then s.kindleFail c else t) := by
  split
  · exact ⟨s, rfl, .inr ⟨c, rfl⟩⟩
  · exact .of_marks h

theorem State.kindleT3_steps (s : State) : s.StepsTo s.kindleT3 := .of_ite rfl
theorem State.kindleT4_steps (s : State) : s.StepsTo s.kindleT4 := .of_ite rfl
theorem State.kindleT5_steps (s : State) : s.StepsTo s.kindleT5 := .of_ite rfl

/-- Holding creels leaves the power-up where it is. -/
theorem State.holdCreels_marks (s : State) (l : List Nat) : (s.each l (fun s k =>
    { s with creels := s.creels.put {} k { s.creels.getD k {} with heldLoad := true } })).marks = s.marks := by
  refine State.each_kept State.marks l _ (fun s k => ?_) s
  rfl

theorem State.kindleT6_steps (s : State) (env : KindleEnv) : s.StepsTo (s.kindleT6 env) :=
  .of_ite (State.holdCreels_marks _ _)

theorem State.startCores_marks (s : State) (l : List Nat) :
    (s.each l (fun s n => s.setCore n { s.core n with run := true })).marks = s.marks := by
  refine State.each_kept State.marks l _ (fun s k => ?_) s
  rfl

theorem State.kindleT7_steps (s : State) : s.StepsTo s.kindleT7 :=
  .of_ite (State.startCores_marks _ _)

/-! ## The sequence -/

/-- A power-up with this cause has failed with HALT_CAUSE 3, or is in KINDLE. -/
def State.InKindle (c : BitVec 4) (t : State) : Prop :=
  t.glb.cause = c ∧ (t.glb.halted = true ∧ t.glb.haltCause = 3 ∨ t.glb.halted = false ∧ t.glb.phase = .kindle)

theorem State.InKindle.step {c : BitVec 4} {t : State} (h : t.InKindle c) (n : BitVec 4) {f : State → State}
    (hf : ∀ u : State, u.StepsTo (f u)) : (t.kindleStep n f).InKindle c := by
  unfold State.kindleStep
  split
  · exact h
  · next hrun =>
    obtain ⟨hcause, ⟨hh, -⟩ | ⟨hh, hphase⟩⟩ := h
    · exact absurd hh hrun
    · obtain ⟨u, hu, ht⟩ := hf { t with glb := { t.glb with step := n } }
      simp only [State.marks, Prod.mk.injEq] at hu
      obtain ⟨huh, huc, hup, -⟩ := hu
      obtain ht | ⟨k, ht⟩ := ht
      · rw [ht]; exact ⟨huc.trans hcause, .inr ⟨huh.trans hh, hup.trans hphase⟩⟩
      · rw [ht]; exact ⟨huc.trans hcause, .inl ⟨rfl, rfl⟩⟩

theorem State.kindleStep_halted {t : State} (h : t.glb.halted = true) (n : BitVec 4) (f : State → State) :
    t.kindleStep n f = t := if_pos h

theorem State.newWindow_glb (s : State) (f : Nat) : (s.newWindow f).glb = s.glb := by
  simp [State.newWindow]

theorem State.kindleT0_glb (s : State) (env : KindleEnv) : (s.kindleT0 env).glb = (s.kindleBegin env).glb :=
  State.each_kept (·.glb) _ _ State.newWindow_glb _

theorem State.kindleT0_inKindle (s : State) (env : KindleEnv) : (s.kindleT0 env).InKindle s.glb.nextCause := by
  unfold State.InKindle
  rw [State.kindleT0_glb]
  exact ⟨rfl, .inr ⟨rfl, rfl⟩⟩

/-- What fails now is on record from t0 on (R48). -/
theorem State.kindleT0_stepFails (s : State) (env : KindleEnv) (h : env.fail ≠ 0) : (s.kindleT0 env).stepFails env.fail = true := by
  unfold State.stepFails
  rw [State.kindleT0_glb]
  simp only [State.kindleBegin, h, decide_false, Bool.false_or]
  split <;> simp_all

/-- t1 to t7. -/
def State.kindleTo7 (s : State) (env : KindleEnv) : State :=
  ((((((s.kindleStep 1 State.kindleT1).kindleStep 2 (fun s => s.kindleT2 env)).kindleStep 3 State.kindleT3).kindleStep 4
    State.kindleT4).kindleStep 5 State.kindleT5).kindleStep 6 (fun s => s.kindleT6 env)).kindleStep 7 State.kindleT7

/-- t8: gathering starts. -/
def State.beginGather (s : State) : State :=
  { s with glb := { s.glb with phase := .gather }, rng := { s.rng with startAt := s.now } }

theorem State.kindle_eq (s : State) (env : KindleEnv) :
    s.kindle env = ((s.kindleT0 env).kindleTo7 env).kindleStep 8 State.beginGather := rfl

theorem State.InKindle.to7 {c : BitVec 4} {t : State} (h : t.InKindle c) (env : KindleEnv) : (t.kindleTo7 env).InKindle c :=
  ((((((h.step 1 State.kindleT1_steps).step 2 (fun u => .of_marks (u.kindleT2_marks env))).step 3 State.kindleT3_steps).step 4
    State.kindleT4_steps).step 5 State.kindleT5_steps).step 6 (fun u => u.kindleT6_steps env)).step 7 State.kindleT7_steps

theorem State.kindleStep_running {t : State} (h : t.glb.halted = false) (n : BitVec 4) (f : State → State) :
    t.kindleStep n f = f { t with glb := { t.glb with step := n } } := if_neg (by simp [h])

/-- After t7, the power-up has failed or gathers. -/
theorem State.InKindle.step8 {c : BitVec 4} {t : State} (h : t.InKindle c) :
    (t.kindleStep 8 State.beginGather).glb.cause = c ∧
      ((t.kindleStep 8 State.beginGather).glb.halted = true ∧ (t.kindleStep 8 State.beginGather).glb.haltCause = 3 ∨
        (t.kindleStep 8 State.beginGather).glb.halted = false ∧ (t.kindleStep 8 State.beginGather).glb.phase = .gather ∧
          (t.kindleStep 8 State.beginGather).glb.step = 8) := by
  obtain ⟨hcause, ⟨hh, hc⟩ | ⟨hh, -⟩⟩ := h
  · rw [State.kindleStep_halted hh]; exact ⟨hcause, .inl ⟨hh, hc⟩⟩
  · rw [State.kindleStep_running hh]; exact ⟨hcause, .inr ⟨hh, rfl, rfl⟩⟩

/-- A failure with code 1 halts KINDLE at t1. -/
theorem State.kindleStep1_halts {t : State} (hf : t.stepFails 1 = true) :
    (t.kindleStep 1 State.kindleT1).glb.halted = true := by
  by_cases hh : t.glb.halted = true
  · rw [State.kindleStep_halted hh]; exact hh
  · rw [State.kindleStep_running (by simpa using hh)]
    obtain ⟨u, hu, ⟨c, ht⟩ | ⟨-, hno⟩⟩ := State.kindleT1_cases { t with glb := { t.glb with step := 1 } }
    · rw [ht]; rfl
    · rw [State.stepFails_of_marks hu] at hno
      exact absurd (hf.symm.trans hno) (by decide)

/-- Nothing runs after a failure at t1. -/
theorem State.kindleTo7_halted {t : State} {env : KindleEnv} (h : (t.kindleStep 1 State.kindleT1).glb.halted = true) :
    (t.kindleTo7 env).glb.halted = true := by
  simp only [State.kindleTo7, State.kindleStep_halted h]
  exact h

/-- KINDLE ends in HALTED, or at the start of gathering. -/
theorem State.kindle_ends (s : State) (env : KindleEnv) :
    (s.kindle env).glb.cause = s.glb.nextCause ∧ ((s.kindle env).glb.halted = true ∧ (s.kindle env).glb.haltCause = 3 ∨
      (s.kindle env).glb.halted = false ∧ (s.kindle env).glb.phase = .gather ∧ (s.kindle env).glb.step = 8) := by
  rw [State.kindle_eq]
  exact ((s.kindleT0_inKindle env).to7 env).step8

theorem State.kindle_halts {s : State} {env : KindleEnv} (h : env.fail = 1) : (s.kindle env).glb.halted = true := by
  have hfail := s.kindleT0_stepFails env (by simp [h])
  have h7 := State.kindleTo7_halted (env := env) (State.kindleStep1_halts (h ▸ hfail))
  rw [State.kindle_eq, State.kindleStep_halted h7]
  exact h7

/-! ## t9 to t12 -/

/-- t9 on a device that has its root secret. -/
theorem State.gatherT9_of_drs {s : State} (env : GatherEnv) (h : s.otp.drs0.kind = 1) :
    s.gatherT9 env = { s with glb := { s.glb with step := 9 } } := by
  simp [State.gatherT9, h]

/-- t12 is SERVICE, whatever t10 and t11 found. -/
theorem State.gatherT12_glb (s : State) :
    s.gatherT12.glb.phase = .running ∧ s.gatherT12.glb.step = 12 ∧ s.gatherT12.glb.unseeded = false := by
  simp [State.gatherT12]

theorem State.live_not_halted {s : State} (h : s.live = true) : s.glb.halted = false := by
  simp only [State.live, Bool.and_eq_true, Bool.not_eq_true'] at h
  exact h.1.2

section
variable {s : State}

theorem exec_gatherComplete_served {env : GatherEnv} (hl : s.live = true) (hp : s.glb.phase = .gather) (hr : s.rng.state = 1)
    (ho : s.glb.ringsOpen = false) (hd : s.otp.drs0.kind = 1) (hs : s.gatherDraws env = true → s.serves 4 = true) :
    exec (.gatherComplete env) s = .next ((s.gatherT9 env).gatherT10.gatherT11 env).gatherT12.settle := by
  have hruns : s.rngRuns = true := by simp [State.rngRuns, hr]
  have hdraw : (!s.gatherDraws env || s.serves 4) = true := by
    cases hg : s.gatherDraws env
    · rfl
    · simp [hs hg]
  have hnot : (s.gatherT9 env).glb.halted = false := by
    rw [State.gatherT9_of_drs env hd]; exact State.live_not_halted hl
  simp [exec, execGatherComplete, finish, hl, hp, hruns, ho, hdraw, hnot]

theorem exec_gatherTimeout_gathering (hl : s.live = true) (hp : s.glb.phase = .gather) (hr : s.rng.state = 0) :
    exec .gatherTimeout s = .next (if s.rng.startAt + 40000 ≤ s.now then
      ({ s with glb := { s.glb with unseeded := true } } : State) else s).settle := by
  simp [exec, execGatherTimeout, finish, hl, hp, hr]

theorem exec_perstNRelease_held (env : KindleEnv) (hm : s.pins.mainPower = true) (hp : s.glb.phase = .held)
    (ht : s.glb.tripped = false) : exec (.perstNRelease env) s = .next (s.kindle env).settle := by
  simp [exec, execPerstNRelease, finish, hm, hp, ht]

/-! ## Fail-stop and the sources of time -/

theorem exec_failStop_awake (h : s.awake = true) : exec .failStop s = .next (s.haltDevice 2).settle := by
  simp [exec, execFailStop, finish, h]

theorem State.haltDevice_glb (s : State) (c : Byte) : (s.haltDevice c).glb =
    { s.glb with halted := true, haltCause := if s.glb.halted then s.glb.haltCause else c } := by
  simp [State.haltDevice]

theorem State.haltDevice_jobs (s : State) (c : Byte) : (s.haltDevice c).jobs = [] := by
  unfold State.haltDevice State.dropAll
  simp [State.each_kept (·.jobs)]

theorem exec_refclkLoss_awake (h : s.awake = true) (p : Bool) : exec (.refclkLoss p) s = .next ({ s with
    pins := { s.pins with refclk := p }
    glb := { s.glb with osc := !p, oscUsed := s.glb.oscUsed || !p } } : State).settle := by
  have h' : ({ s with pins := { s.pins with refclk := p } } : State).awake = true := h
  simp [exec, execRefclkLoss, finish, h']

/-- PTC_LIFE and its time go to vigil RAM, and the next checkpoint to its delay list. -/
theorem exec_ptcLifeCheckpoint_ticking (ht : s.ticking = true) (hl : s.tmp.loaded = true) :
    ∃ u : State, exec .ptcLifeCheckpoint s =
        .next ({ u with vigil := { u.vigil with life := u.glb.ptcLife, lifeOk := true } } : State).settle ∧
      u.glb = s.glb ∧ u.vigil = s.vigil ∧ u.otp = s.otp :=
  ⟨(s.dlRemove 7 .ptcLifeCheckpoint).dlInsert 7 (s.now + 1000000) .ptcLifeCheckpoint,
    by simp [exec, execPtcLifeCheckpoint, finish, ht, hl], by simp, by simp, by simp⟩

end

/-! ## The statement settled -/

/-- Settles O8, command by command. -/
theorem powerUpCommands : Obligations.PowerUpCommands := by
  unfold Obligations.PowerUpCommands
  intro s
  refine ⟨fun env hm hp ht => ⟨_, exec_perstNRelease_held env hm hp ht, ?kindle⟩,
    fun hl hp hr => ⟨fun h => by rw [exec_gatherTimeout_gathering hl hp hr, if_pos h],
      fun h => by rw [exec_gatherTimeout_gathering hl hp hr, if_neg (by omega)]⟩,
    fun env hl hp hr ho hd hs => ⟨_, exec_gatherComplete_served hl hp hr ho hd hs, by simpa using State.gatherT12_glb _⟩,
    fun ha hh => ⟨_, exec_failStop_awake ha, ?failStop⟩,
    fun p ha => exec_refclkLoss_awake ha p, fun ht hl => ?checkpoint⟩
  case kindle =>
    obtain ⟨hcause, hend⟩ := s.kindle_ends env
    exact ⟨by simpa using hcause, by simpa using hend, fun hf => by simpa using State.kindle_halts hf⟩
  case failStop =>
    refine ⟨by simp [State.haltDevice_glb], by simp [State.haltDevice_glb, hh], by simp [State.haltDevice_jobs],
      by simp [State.haltDevice_glb], by simp, by simp, fun hz => ?_⟩
    have hphase : s.glb.phase ≠ .vigil := by simp [State.awake] at ha; tauto
    rw [(State.settle_settled _ : State.Settled _), State.modeNow_halted] <;> simp [State.haltDevice_glb, hz, hphase]
  case checkpoint =>
    obtain ⟨u, hu, hglb, hvigil, hotp⟩ := exec_ptcLifeCheckpoint_ticking ht hl
    exact ⟨_, hu, by simp [hglb, hvigil], by simp [hglb], by simp [hotp]⟩

end Sys2Proof.Machine
end

section
/-! PROOFS. Drains and the manager's mode commands: how a drain begins, what its end does for each command that waits for it, and DRAIN,
RESUME, POWER_DOWN_PREP, DEVICE_RESET, RAW_ENTER and RAW_EXIT. -/

namespace Sys2Proof

/-! ## A test of every entry of a table -/

theorem Tbl.mem_of_get? {α : Type} {t : Tbl α} {i : Nat} {v : α} (h : Tbl.get? t i = some v) : (i, v) ∈ t := by
  induction t with
  | nil => exact absurd h (by simp)
  | cons e t ih =>
    obtain ⟨k, w⟩ := e
    by_cases heq : i = k
    · subst heq
      obtain rfl : w = v := by simpa [Tbl.get?] using h
      exact List.mem_cons_self
    · exact List.mem_cons_of_mem _ (ih (by simpa [Tbl.get?, heq] using h))

/-- A write that a test does not see leaves its verdict on the whole table. -/
theorem Tbl.all_insert_of_get? {α : Type} {p : Nat × α → Bool} {t : Tbl α} {i : Nat} {v x : α} (h : Tbl.get? t i = some v)
    (hp : p (i, x) = p (i, v)) : (Tbl.insert t i x).all p = t.all p := by
  induction t with
  | nil => exact absurd h (by simp)
  | cons e t ih =>
    obtain ⟨k, w⟩ := e
    by_cases hlt : i < k
    · have hall : ((k, w) :: t).all p = true → p (i, v) = true := fun ha =>
        List.all_eq_true.mp ha _ (Tbl.mem_of_get? h)
      simp only [Tbl.insert, hlt, if_true, List.all_cons (a := (i, x)), hp]
      cases ha : ((k, w) :: t).all p
      · simp
      · simp [hall ha]
    · by_cases heq : i = k
      · subst heq
        obtain rfl : w = v := by simpa [Tbl.get?] using h
        simp [Tbl.insert, hp]
      · simp [Tbl.insert, hlt, heq, ih (by simpa [Tbl.get?, heq] using h)]

namespace Machine

/-! ## Commands -/

theorem State.cmdJob_opcode {s : State} {j op : Nat} {x : Job} (h : s.cmdJob j op = some x) : x.opcode = op := by
  unfold State.cmdJob at h
  split at h
  · split at h
    · next hc => obtain rfl := Option.some.inj h; simp at hc; exact hc.1.1.2
    · exact absurd h (by simp)
  · exact absurd h (by simp)

theorem State.unlessHw_quiet (s f : State) (j : Nat) (x : Job) : s.unlessHw j false x f = f := rfl

/-- A command that changes the mode and meets a change by the hardware as it starts (R35). -/
theorem State.unlessHw_meets (s f : State) (j : Nat) {x : Job} (h : x.phase = 0) :
    s.unlessHw j true x f = s.doneErr j busyErr 0x0104 := by
  simp [State.unlessHw, h]

/-- A command keeps its job raised, in the phase that it waits in. -/
theorem State.waitPhase_job? {s : State} {j p : Nat} {x : Job} (h : s.job? j = some x) :
    (s.waitPhase j p).job? j = some { x with phase := p } := by
  have hm : (((s.takeGate j).leaveS3 j).modJob j (fun x => { x with phase := p })).job? j = some { x with phase := p } := by
    simp [h]
  unfold State.waitPhase
  simp only [hm]
  split
  · split
    · exact (State.job?_of_jobs (by simp) j).trans hm
    · exact hm
  · exact hm

/-! ## What is left to drain -/

/-- No entry read is outstanding on a ring but the manager's administrative ring. -/
def State.readsDone (s : State) : Bool := s.rings.all (fun e => e.1 == 0 || e.2.reading.isEmpty)

/-- No job is in the device but those of the manager's administrative ring. -/
def State.jobsDone (s : State) : Bool := s.jobs.all (fun e => !!(e.2.fn == 0 && e.2.ring == 0))

theorem State.drained_congr {s t : State} (hjobs : t.jobsDone = s.jobsDone) (hready : t.hdl.ready = s.hdl.ready)
    (hframes : t.frames = s.frames) (hreads : t.readsDone = s.readsDone) : t.drained = s.drained := by
  simp only [State.jobsDone] at hjobs
  simp only [State.readsDone] at hreads
  simp only [State.drained, State.frame, hjobs, hready, hframes, hreads]

/-- A change of a ring that keeps its outstanding reads. -/
theorem State.setRing_readsDone {s : State} {f r : Nat} {g x : Ring} (h : s.ring? f r = some g) (hx : x.reading = g.reading) :
    (s.setRing f r x).readsDone = s.readsDone :=
  Tbl.all_insert_of_get? h (by simp [hx])

theorem State.readsDone_of_rings {s t : State} (h : t.rings = s.rings) : t.readsDone = s.readsDone := by
  simp [State.readsDone, h]

@[simp] theorem State.sendRingIrq_readsDone (s : State) (f r : Nat) : (s.sendRingIrq f r).readsDone = s.readsDone := by
  unfold State.sendRingIrq
  split
  · rfl
  · next g h =>
    refine (State.readsDone_of_rings (s := s.setRing f r { g with pendIrq := 0, timer := false }) (by simp)).trans ?_
    exact State.setRing_readsDone h rfl

@[simp] theorem State.dlFree_readsDone (s : State) : s.dlFree.readsDone = s.readsDone := by
  unfold State.dlFree
  split
  · dsimp only
    split
    · rw [State.sendRingIrq_readsDone]; exact State.readsDone_of_rings (by simp)
    · exact State.readsDone_of_rings (by simp)
  · split
    · exact State.readsDone_of_rings (by simp)
    · split
      · exact State.readsDone_of_rings (by simp)
      · rfl

@[simp] theorem State.dlPut_readsDone (s : State) (l a : Nat) (c : Instr) : (s.dlPut l a c).readsDone = s.readsDone := by
  unfold State.dlPut
  extract_lets fits t
  have ht : t.readsDone = s.readsDone := by unfold t; split <;> simp
  clear_value t
  split
  · exact (State.readsDone_of_rings (by simp)).trans ht
  · split
    · exact (State.readsDone_of_rings rfl).trans ht
    · exact ht

@[simp] theorem State.countIrq_readsDone (s : State) (f r : Nat) : (s.countIrq f r).readsDone = s.readsDone := by
  unfold State.countIrq
  split
  · rfl
  · next g h =>
    extract_lets n t
    have ht : t.readsDone = s.readsDone := State.setRing_readsDone h rfl
    split
    · rw [State.sendRingIrq_readsDone, ht]
    · split
      · rw [State.dlPut_readsDone]
        refine Eq.trans ?_ ht
        exact State.setRing_readsDone (State.ring?_setRing s f r { g with pendIrq := n }) rfl
      · exact ht

@[simp] theorem State.mirrorEntry_readsDone (s : State) (a b : List W64) : (s.mirrorEntry a b).readsDone = s.readsDone := by
  unfold State.mirrorEntry
  split
  · rfl
  · next g h =>
    rw [State.countIrq_readsDone]
    exact State.setRing_readsDone (s := s.send _) (g := g) (by simpa [State.ring?] using h) rfl

@[simp] theorem State.mirrorFlush_readsDone (s : State) (n : Nat) : (s.mirrorFlush n).readsDone = s.readsDone := by
  induction n generalizing s with
  | zero => rfl
  | succ n ih =>
    unfold State.mirrorFlush
    split
    · rw [ih, State.mirrorEntry_readsDone]; rfl
    · rfl

@[simp] theorem State.dlInsert_readsDone (s : State) (l a : Nat) (c : Instr) : (s.dlInsert l a c).readsDone = s.readsDone := by
  simp [State.dlInsert, State.mirrorAll]

theorem State.modJob_jobsDone (s : State) (j : Nat) {f : Job → Job} (h : ∀ x, (f x).fn = x.fn ∧ (f x).ring = x.ring) :
    (s.modJob j f).jobsDone = s.jobsDone := by
  unfold State.modJob
  split
  · rfl
  · next x hx => exact Tbl.all_insert_of_get? hx (by simp [h])

theorem State.modJob_drained (s : State) (j : Nat) {f : Job → Job} (h : ∀ x, (f x).fn = x.fn ∧ (f x).ring = x.ring) :
    (s.modJob j f).drained = s.drained :=
  State.drained_congr (s.modJob_jobsDone j h) (by simp) (by simp) (State.readsDone_of_rings (by simp))

/-- Waiting drains nothing. -/
theorem State.waitPhase_drained (s : State) (j p : Nat) : (s.waitPhase j p).drained = s.drained := by
  have h0 : ((s.takeGate j).leaveS3 j).drained = s.drained :=
    State.drained_congr (by simp [State.jobsDone]) (by simp [State.leaveS3]) (by simp) (State.readsDone_of_rings (by simp))
  have hm : (((s.takeGate j).leaveS3 j).modJob j (fun x => { x with phase := p })).drained = s.drained := by
    refine (State.modJob_drained _ j (fun x => ?_)).trans h0
    exact ⟨rfl, rfl⟩
  unfold State.waitPhase
  extract_lets t
  change t.drained = s.drained at hm
  clear_value t
  split
  · split
    · split
      · exact (State.drained_congr (by simp [State.jobsDone]) (by simp) (by simp) (by simp)).trans hm
      · exact hm
    · exact hm
  · exact hm

@[simp] theorem State.settle_drained (s : State) : s.settle.drained = s.drained :=
  State.drained_congr (by simp [State.jobsDone]) (by simp) (by simp) (State.readsDone_of_rings (by simp))

/-! ## How a drain begins -/

/-- A drain that a command has begun where none was in force, before it is looked at whether anything is left to drain. -/
def State.draining (s : State) (j : Nat) (why : DrainFor) : State :=
  (({ s with glb := { s.glb with drain := why, drainWaiters := s.glb.drainWaiters ++ [j] } } : State).waitPhase j 1).settle

theorem State.startDrain_of_none {s : State} (j : Nat) (why : DrainFor) (h : s.glb.drain = .none) :
    s.startDrain j why = (s.draining j why).drainCheck := by
  simp [State.startDrain, State.draining, h]

theorem State.draining_glb (s : State) (j : Nat) (why : DrainFor) :
    (s.draining j why).glb.drain = why ∧ (s.draining j why).glb.drainWaiters = s.glb.drainWaiters ++ [j] ∧
      (s.draining j why).glb.phase = s.glb.phase := by
  simp [State.draining]

theorem State.draining_job? {s : State} {j : Nat} (why : DrainFor) {x : Job} (h : s.job? j = some x) :
    (s.draining j why).job? j = some { x with phase := 1 } :=
  (State.settle_job? _ _).trans (State.waitPhase_job? h)

theorem State.draining_drained (s : State) (j : Nat) (why : DrainFor) : (s.draining j why).drained = s.drained :=
  (State.settle_drained _).trans ((State.waitPhase_drained _ j 1).trans rfl)

/-- While something is left to drain the command waits. -/
theorem State.startDrain_waits {s : State} (j : Nat) (why : DrainFor) (h : s.glb.drain = .none) (hd : s.drained = false) :
    s.startDrain j why = s.draining j why := by
  rw [State.startDrain_of_none j why h, State.drainCheck, State.draining_drained, hd, Bool.and_false]
  rfl

/-- A drain with nothing left ends at once. -/
theorem State.drainCheck_cases (s : State) : s.drainCheck = s ∨ s.drainCheck = s.drainEnd := by
  unfold State.drainCheck; split <;> simp

theorem State.drainCheck_ends {s : State} (h : s.glb.drain ≠ .none) (hd : s.drained = true) : s.drainCheck = s.drainEnd := by
  simp [State.drainCheck, h, hd]

/-! ## How a drain ends for the one command that waits for it -/

/-- A drain has ended, and nobody waits for it. -/
def State.drainOver (s : State) : State := { s with
  glb := { s.glb with drainWaiters := [] }
  lcs := { s.lcs with run := s.lcs.run.map (fun r => { r with at_ := max r.at_ 1 }) } }

section
variable {s : State} {j : Nat} {x : Job} (hw : s.glb.drainWaiters = [j]) (hj : s.job? j = some x)
include hw hj

theorem State.drainEnd_drain (h : x.opcode = 0xF201) : s.drainEnd = s.drainOver.done j [] := by
  unfold State.job? at hj
  simp [State.drainEnd, State.drainOver, State.job?, hw, hj, h]

/-- RAW begins. -/
theorem State.drainEnd_rawEnter (h : x.opcode = 0xF205) :
    s.drainEnd = (({ s.drainOver.leaveDrain with glb := { s.drainOver.leaveDrain.glb with raw := true } } : State).enterRaw).done j [] := by
  unfold State.job? at hj
  simp [State.drainEnd, State.drainOver, State.job?, hw, hj, h]

end

/-! ## The commands as they are carried out -/

section
variable {s : State} {j : Nat} {x : Job} 

theorem exec_drain_command (h : s.cmdJob j 0xF201 = some x) (hw : Bool) : exec (.drain j hw) s =
    .next (s.unlessHw j hw x (if x.phase = 0 then s.startDrain j .standalone else s)).settle := by
  simp [exec, execDrain, finish, h]

/-- The state in which RESUME has ended the drain it may end. -/
def State.resumed (s : State) : State :=
  if s.glb.drain = .standalone || s.glb.drain = .powerDown then { s with glb := { s.glb with drain := .none } } else s

theorem exec_resume_command (h : s.cmdJob j 0xF202 = some x) (hw : Bool) : exec (.resume j hw) s =
    .next (s.unlessHw j hw x (s.resumed.done j [])).settle := by
  simp [exec, execResume, finish, h, State.resumed]

theorem exec_powerDownPrep_command (h : s.cmdJob j 0xF203 = some x) : exec (.powerDownPrep j false) s =
    .next (if x.outCap < 16 then s.doneShort j 16 else if x.phase = 0 then s.startDrain j .powerDown
      else if x.phase = 2 then s.powerDownEnd else s).settle := by
  simp [exec, execPowerDownPrep, finish, h, State.unlessHw]

theorem exec_deviceReset_command (h : s.cmdJob j 0xF204 = some x) : exec (.deviceReset j false) s =
    .next (if x.param ≠ 0x9528 then s.doneErr j inputErr 4
      else ({ s with glb := { s.glb with resetDue := true, resetJob := some j } } : State).done j []).settle := by
  simp [exec, execDeviceReset, finish, h, State.unlessHw]

theorem exec_rawEnter_command (h : s.cmdJob j 0xF205 = some x) : exec (.rawEnter j false) s =
    .next (if s.lcs.access.getLsbD 6 = false then s.doneErr j conflictErr 0x0104
      else if x.phase = 0 then s.startDrain j .raw else s).settle := by
  simp [exec, execRawEnter, finish, h, State.unlessHw]

/-- The state in which RAW_EXIT has restarted the entropy island. -/
def State.rawLeft (s : State) : State :=
  if s.glb.raw then
    { s with
      glb := { s.glb with raw := false, phase := .gather }
      rng := { s.rng with
        state := 0, res := [], acc := [], instantiated := 0, startAt := s.now
        srcs := s.rng.srcs.each (fun _ x =>
          { x with state := if x.state = 3 then 3 else 0, startPass := 0, startFails := 0, white := [] }) } }
  else s

theorem exec_rawExit_command (h : s.cmdJob j 0xF207 = some x) : exec (.rawExit j false) s = .next (s.rawLeft.done j []).settle := by
  simp [exec, execRawExit, finish, h, State.unlessHw, State.rawLeft]

end

/-! ## How the commands' jobs end -/

/-- A command without output ends OK. -/
theorem State.done_nil_ends {s : State} {j : Nat} {x : Job} (h : s.job? j = some x) : (s.done j []).settle.EndedWith j [] :=
  State.settle_endedWith (State.done_ends s j x [] h (Nat.zero_le _))

theorem State.doneErr_settled_ends {s : State} {j : Nat} {x : Job} (h : s.job? j = some x) (m d : Nat) :
    (s.doneErr j m d).settle.Ended j m d 0 :=
  State.settle_ended (State.doneErr_ends s j m d x h)

/-- POWER_DOWN_PREP whose records are durable: PTC_LIFE, BOOTS and the ports written. -/
theorem State.powerDownEnd_durable {s : State} {j : Nat} {x : Job}
    (hf : s.jobs.find? (fun e => e.2.stage = .firmware && e.2.opcode = 0xF203 && e.2.phase = 2) = some (j, x))
    (hc : s.workPending .ckpt = false) (hb : s.workPending .boots = false) :
    s.powerDownEnd = s.done j (leBytes 4 s.glb.ptcLife.toNat ++ leBytes 4 s.glb.boots.toNat ++ leBytes 8 (s.ckptPorts x)) := by
  unfold State.powerDownEnd
  rw [hf]
  simp [hc, hb]

section
variable {s : State} {j : Nat} {x : Job}

/-- DRAIN where no drain is in force: DRAIN is entered, and stays in force when the command ends. -/
theorem State.startDrain_standalone (hj : s.job? j = some x) (ho : x.opcode = 0xF201) (hd : s.glb.drain = .none)
    (hw : s.glb.drainWaiters = []) :
    (s.startDrain j .standalone).glb.drain = .standalone ∧ (s.startDrain j .standalone).glb.phase = s.glb.phase ∧
      (s.startDrain j .standalone).otp = s.otp := by
  obtain ⟨hdrain, hwait, hphase⟩ := s.draining_glb j .standalone
  have hotp : (s.draining j .standalone).otp = s.otp := by simp [State.draining]
  rw [State.startDrain_of_none j _ hd]
  obtain h | h := (s.draining j .standalone).drainCheck_cases
  · rw [h]; exact ⟨hdrain, hphase, hotp⟩
  · rw [h, State.drainEnd_drain (by rw [hwait, hw]; rfl) (State.draining_job? _ hj) ho]
    simp [State.drainOver, hdrain, hphase, hotp]

/-- RAW_ENTER where no drain is in force: it waits for its drain, or RAW begins at once. -/
theorem State.startDrain_raw (hj : s.job? j = some x) (ho : x.opcode = 0xF205) (hd : s.glb.drain = .none)
    (hw : s.glb.drainWaiters = []) :
    (s.startDrain j .raw).glb.drain = .raw ∨ (s.startDrain j .raw).glb.raw = true ∧ (s.startDrain j .raw).rng.state = 4 := by
  obtain ⟨hdrain, hwait, -⟩ := s.draining_glb j .raw
  rw [State.startDrain_of_none j _ hd]
  obtain h | h := (s.draining j .raw).drainCheck_cases
  · rw [h]; exact .inl hdrain
  · rw [h, State.drainEnd_rawEnter (by rw [hwait, hw]; rfl) (State.draining_job? _ hj) ho]
    exact .inr (by simp [State.enterRaw])

/-- The end of the drain of a standalone DRAIN, and of that of RAW_ENTER. -/
theorem exec_drainComplete_cases (hj : s.job? j = some x) (hw : s.glb.drainWaiters = [j]) (hd : s.drained = true) :
    (s.glb.drain = .standalone → x.opcode = 0xF201 → ∃ t, exec .drainComplete s = .next t ∧ t.EndedWith j [] ∧
      t.glb.drain = .standalone ∧ t.glb.drainWaiters = []) ∧
    (s.glb.drain = .raw → x.opcode = 0xF205 → ∃ t, exec .drainComplete s = .next t ∧ t.EndedWith j [] ∧
      t.glb.raw = true ∧ t.rng.state = 4 ∧ t.rng.insts = [] ∧ t.rng.resBits = 0) := by
  refine ⟨fun hs ho => ⟨_, rfl, ?_⟩, fun hs ho => ⟨_, rfl, ?_⟩⟩
  · rw [State.drainCheck_ends (by simp [hs]) hd, State.drainEnd_drain hw hj ho]
    exact ⟨State.done_nil_ends (s := s.drainOver) hj, by simp [State.drainOver, hs], by simp [State.drainOver]⟩
  · rw [State.drainCheck_ends (by simp [hs]) hd, State.drainEnd_rawEnter hw hj ho]
    exact ⟨State.done_nil_ends (x := x) hj, by simp [State.enterRaw], by simp [State.enterRaw], by simp [State.enterRaw],
      by simp [State.enterRaw, Rng.resBits]⟩

end

/-! ## The statement settled -/

/-- Settles O34, command by command. -/
theorem modeCommands : Obligations.ModeCommands := by
  unfold Obligations.ModeCommands
  intro s j x
  refine ⟨fun h hp => ⟨_, by rw [exec_drain_command h, State.unlessHw_meets _ _ _ hp],
      State.doneErr_settled_ends (State.cmdJob_job? h) _ _, by simp, by simp⟩,
    fun h hp => ⟨_, by rw [exec_resume_command h, State.unlessHw_meets _ _ _ hp],
      State.doneErr_settled_ends (State.cmdJob_job? h) _ _, by simp⟩,
    fun h hp hd hw => ⟨_, by rw [exec_drain_command h, State.unlessHw_quiet, if_pos hp], by
      simpa using State.startDrain_standalone (State.cmdJob_job? h) (State.cmdJob_opcode h) hd hw⟩,
    fun h hd => ⟨_, by rw [exec_resume_command h, State.unlessHw_quiet], ?resumed⟩,
    fun h h1 h2 => ⟨_, by rw [exec_resume_command h, State.unlessHw_quiet], ?notResumed⟩,
    fun h => ⟨fun hc => ⟨_, by rw [exec_powerDownPrep_command h, if_pos hc],
        State.settle_ended (State.doneShort_ends s j 16 x (State.cmdJob_job? h))⟩,
      fun hc hp hd hn => ⟨_, { x with phase := 1 }, by rw [exec_powerDownPrep_command h, if_neg (by omega), if_pos hp,
        State.startDrain_waits j _ hd hn], ?prepDrains⟩,
      fun hc hp hf hck hb => ⟨_, by rw [exec_powerDownPrep_command h, if_neg (by omega), if_neg (by omega), if_pos hp,
        State.powerDownEnd_durable hf hck hb], ?prepEnds⟩⟩,
    fun h => ⟨fun hp => ⟨_, by rw [exec_deviceReset_command h, if_neg (by simp [hp])], ?reset⟩,
      fun hp => ⟨_, by rw [exec_deviceReset_command h, if_pos hp], State.doneErr_settled_ends (State.cmdJob_job? h) _ _,
        by simp⟩⟩,
    fun h => ⟨fun ha => ⟨_, by rw [exec_rawEnter_command h, if_pos ha],
        State.doneErr_settled_ends (State.cmdJob_job? h) _ _⟩,
      fun ha hp hd hw => ⟨_, by rw [exec_rawEnter_command h, if_neg (by simp only [ha]; decide), if_pos hp], by
        simpa using State.startDrain_raw (State.cmdJob_job? h) (State.cmdJob_opcode h) hd hw⟩⟩,
    fun h hr => ⟨_, exec_rawExit_command h, ?rawExit⟩, fun h hr => ⟨_, exec_rawExit_command h, ?rawStays⟩,
    fun hj hw hd => exec_drainComplete_cases hj hw hd⟩
  case resumed =>
    have hs : s.resumed = { s with glb := { s.glb with drain := .none } } := if_pos (by simpa using hd)
    rw [hs]
    exact ⟨by simp, State.done_nil_ends (x := x) (State.cmdJob_job? h), by simp⟩
  case notResumed =>
    have hs : s.resumed = s := if_neg (by simp [h1, h2])
    rw [hs]
    exact ⟨by simp, State.done_nil_ends (State.cmdJob_job? h)⟩
  case prepDrains =>
    obtain ⟨hdrain, -, -⟩ := s.draining_glb j .powerDown
    exact ⟨by simpa using hdrain, (State.settle_job? _ _).trans (State.draining_job? _ (State.cmdJob_job? h)), rfl⟩
  case prepEnds =>
    refine State.settle_endedWith (State.done_ends s j x _ (State.cmdJob_job? h) ?_)
    simpa [leBytes] using hc
  case reset => exact ⟨State.done_nil_ends (x := x) (State.cmdJob_job? h), by simp, by simp, by simp⟩
  case rawExit =>
    have hs : s.rawLeft.glb.raw = false ∧ s.rawLeft.glb.phase = .gather ∧ s.rawLeft.rng.state = 0 ∧ s.rawLeft.rng.res = [] ∧
        s.rawLeft.jobs = s.jobs := by simp [State.rawLeft, hr]
    obtain ⟨hraw, hphase, hstate, hres, hjobs⟩ := hs
    exact ⟨State.done_nil_ends ((State.job?_of_jobs hjobs j).trans (State.cmdJob_job? h)), by simpa using hraw,
      by simpa using hphase, by simpa using hstate, by simp [Rng.resBits, hres]⟩
  case rawStays =>
    have hs : s.rawLeft = s := by simp [State.rawLeft, hr]
    rw [hs]
    exact ⟨State.done_nil_ends (State.cmdJob_job? h), by simp, by simp⟩

end Machine
end Sys2Proof
end

section
/-! PROOFS. IMAGE_LOAD refused as an applet: its message leaves the T-gate (R115, log 122), so what the statement says of the
applet cores is false. -/

namespace Sys2Proof.Machine

/-- A command of trusted firmware that ends with a status takes its message out of the T-gate. -/
theorem State.doneErr_g2t {s : State} {j : Nat} {x : Job} (h : s.job? j = some x) (ht : x.trusted = true) (m d : Nat) :
    (s.doneErr j m d).crx.g2t = s.crx.g2t.erase (gateMessage j x) := by
  have hj : (s.endShadow j).job? j = some x := by simpa using h
  have htake : ((s.endShadow j).takeGate j).crx.g2t = s.crx.g2t.erase (gateMessage j x) := by
    simp [State.takeGate, hj, ht]
  simp [State.doneErr, h, htake]

/-- An applet image that fails a check ends IMAGE_LOAD with that check's status. -/
theorem exec_imageLoad_applet_refused {s : State} {j : Nat} {x : Job} (h : s.cmdJob j 0xF301 = some x)
    (ht : fld x.param 0 4 = 5) (hl : x.inLen ≤ 4194304) {e : Nat × Nat} (he : s.appletErr x.block = some e)
    (failed : List Nat) (spoils : BitVec 2) (hw : Bool) :
    exec (.imageLoad j failed spoils hw) s = .next (s.doneErr j e.1 e.2).settle := by
  have hl' : ¬ 4194304 < x.inLen := by omega
  simp [exec, execImageLoad, finish, h, ht, imageLimit, hl', he]

/-- Without an integrator key no applet image is accepted. -/
theorem State.appletErr_of_no_key {s : State} (h : s.ikeyDigest = none) (b : Bytes) :
    s.appletErr b = some (integrityErr, 0x0101) := by
  simp [State.appletErr, h]

/-- An IMAGE_LOAD of an applet image (PARAM 5), started. -/
def appletLoad : Job := {
  fn := 0, ring := 0, start := 0, n := 1, seq := 0, opcode := 0xF301, cls := 0, order := false, irq := false
  words := [0, 0, 0, 0, 0, 0x500000000], exts := [], deadline := none, gen := 0, stage := .firmware }

/-- The command has come to trusted firmware through the T-gate; no integrator key is registered. -/
def appletLoadWaiting : State := { jobs := [(1, appletLoad)], crx := { g2t := [gateMessage 1 appletLoad] } }

theorem appletLoadWaiting_cmdJob : appletLoadWaiting.cmdJob 1 0xF301 = some appletLoad := by decide

theorem appletLoadWaiting_ikeyDigest : appletLoadWaiting.ikeyDigest = none := by decide

/-- Refutes O45: an applet image that is refused leaves the image there is, but not the whole of the applet cores' state, as the
statement has it (`t.crx = s.crx`): the command's own message, by which it came to trusted firmware, leaves the T-gate. -/
theorem not_imageCommands : ¬ Obligations.ImageCommands := by
  unfold Obligations.ImageCommands
  intro hall
  have hjob := appletLoadWaiting_cmdJob
  have herr := State.appletErr_of_no_key appletLoadWaiting_ikeyDigest appletLoad.block
  obtain ⟨-, -, -, -, happlet⟩ := hall appletLoadWaiting 1 appletLoad [] 0 false hjob
  obtain ⟨hrefused, -⟩ := happlet (by decide) (by decide)
  obtain ⟨t, hrun, -, hcrx⟩ := hrefused _ herr
  rw [exec_imageLoad_applet_refused hjob (by decide) (by decide) herr] at hrun
  obtain rfl := Host.Outcome.next.inj hrun
  have hgate := State.doneErr_g2t (State.cmdJob_job? hjob) (by decide) integrityErr 0x0101
  have hkept : (appletLoadWaiting.doneErr 1 integrityErr 0x0101).crx = appletLoadWaiting.crx := by simpa using hcrx
  rw [hkept] at hgate
  exact absurd hgate (by decide)

end Sys2Proof.Machine
end

section
/-! PROOFS. The events of a spool port (R283, R291, R293, R297): what an operation on one port leaves of the other, that a port
without a session stays without one, and what a link error, an insertion, a removal and a checkpoint do. -/

namespace Sys2Proof.Machine

/-! ## Ports -/

theorem State.port_of_spl {s t : State} (h : t.spl = s.spl) (p : Port) : t.port p = s.port p := by
  cases p <;> simp only [State.port, h]

theorem State.port_setPort_ne (s : State) {p q : Port} (h : q ≠ p) (x : Spl) : (s.setPort p x).port q = s.port q :=
  match p, q, h with
  | .a, .b, _ | .b, .a, _ => rfl
  | .a, .a, h | .b, .b, h => absurd rfl h

theorem otherPort_ne (p : Port) : otherPort p ≠ p := by cases p <;> decide

@[simp] theorem State.setPort_cfg (s : State) (p : Port) (x : Spl) : (s.setPort p x).spl.cfg = s.spl.cfg := by cases p <;> rfl
@[simp] theorem State.setPort_evt (s : State) (p : Port) (x : Spl) : (s.setPort p x).spl.evt = s.spl.evt := by cases p <;> rfl
@[simp] theorem State.setPort_cntErr (s : State) (p : Port) (x : Spl) : (s.setPort p x).spl.cntErr = s.spl.cntErr := by
  cases p <;> rfl

@[simp] theorem State.port_modPort (s : State) (p : Port) (f : Spl → Spl) : (s.modPort p f).port p = f (s.port p) :=
  State.port_setPort s p _

@[simp] theorem State.settle_port (s : State) (p : Port) : s.settle.port p = s.port p := State.port_of_spl (by simp) p

@[simp] theorem State.dlRemove_port (s : State) (l : Nat) (c : Instr) (p : Port) : (s.dlRemove l c).port p = s.port p :=
  State.port_of_spl (by simp) p

@[simp] theorem State.dlInsert_port (s : State) (l a : Nat) (c : Instr) (p : Port) : (s.dlInsert l a c).port p = s.port p :=
  State.port_of_spl (by simp) p

@[simp] theorem State.doneErr_port (s : State) (j m d : Nat) (p : Port) : (s.doneErr j m d).port p = s.port p :=
  State.port_of_spl (by simp) p

@[simp] theorem State.splEvt_port (s : State) (bit : Nat) (p : Port) : (s.splEvt bit).port p = s.port p := by
  cases p <;> simp [State.splEvt, State.port]

@[simp] theorem State.portEvt_port (s : State) (p : Port) (bit : Nat) (q : Port) : (s.portEvt p bit).port q = s.port q :=
  s.splEvt_port _ q

theorem State.splEvt_evt (s : State) (bit : Nat) : (s.splEvt bit).spl.evt = setBit s.spl.evt bit true := by
  simp [State.splEvt]

/-- A port event sets its bit in SPL_EVT. -/
theorem State.portEvt_evt (s : State) (p : Port) {bit : Nat} (h : bit < 8) :
    (s.portEvt p bit).spl.evt.getLsbD (bit + 8 * portNo p) = true := by
  have hp : portNo p ≤ 1 := by cases p <;> decide
  rw [State.portEvt, State.splEvt_evt, getLsbD_setBit_true]
  simp
  omega

/-! ## One port alone -/

/-- Of the key spool an operation changes one port alone: the other, SPL_CFG, SPL_EVT and SPL_CNT_ERR stay. -/
structure State.OnlyPort (p : Port) (s t : State) : Prop where
  other : ∀ q, q ≠ p → t.port q = s.port q
  cfg : t.spl.cfg = s.spl.cfg
  evt : t.spl.evt = s.spl.evt
  cntErr : t.spl.cntErr = s.spl.cntErr

section
variable {p : Port} {s t u : State}

theorem State.OnlyPort.of_spl (h : t.spl = s.spl) : s.OnlyPort p t :=
  ⟨fun q _ => State.port_of_spl h q, by rw [h], by rw [h], by rw [h]⟩

theorem State.OnlyPort.trans (h : s.OnlyPort p t) (g : t.OnlyPort p u) : s.OnlyPort p u :=
  ⟨fun q hq => (g.other q hq).trans (h.other q hq), g.cfg.trans h.cfg, g.evt.trans h.evt, g.cntErr.trans h.cntErr⟩

end

theorem State.setPort_onlyPort (s : State) (p : Port) (x : Spl) : s.OnlyPort p (s.setPort p x) :=
  ⟨fun _ hq => s.port_setPort_ne hq x, by simp, by simp, by simp⟩

theorem State.modPort_onlyPort (s : State) (p : Port) (f : Spl → Spl) : s.OnlyPort p (s.modPort p f) :=
  s.setPort_onlyPort p _

theorem State.emitSpl_onlyPort (s : State) (p : Port) (o : SplOut) : s.OnlyPort p (s.emitSpl p o) := s.modPort_onlyPort p _

theorem State.sendSpl_onlyPort (s : State) (p : Port) (o : SplOut) : s.OnlyPort p (s.sendSpl p o) :=
  (s.emitSpl_onlyPort p o).trans (State.modPort_onlyPort _ p _)

theorem State.drawT_spl (s : State) (n : Nat) : (s.drawT n).2.spl = s.spl := rfl

theorem State.writeRecord_onlyPort (s : State) (p : Port) (w : SplWork) : s.OnlyPort p (s.writeRecord p w) :=
  (State.OnlyPort.of_spl (s.drawT_spl 12)).trans (State.setPort_onlyPort _ p _)

/-- The record of a work leaves the port's queues as they are. -/
theorem State.writeRecord_port (s : State) (p : Port) (w : SplWork) :
    ((s.writeRecord p w).port p).staged = (s.port p).staged ∧ ((s.writeRecord p w).port p).coalesce = (s.port p).coalesce := by
  unfold State.writeRecord
  rw [State.port_setPort]
  exact ⟨rfl, rfl⟩

@[simp] theorem State.sendSpl_port (s : State) (p : Port) (o : SplOut) : (s.sendSpl p o).port p = { s.port p with
    out := (s.port p).out ++ [o], frames := (s.port p).frames ++ [s.frameOfReq (s.port p) o], seq := (s.port p).seq + 1
    flight := some o } := by
  simp [State.sendSpl, State.emitSpl]

/-- Without a session no frame is issued. -/
theorem State.splKick_of_no_session {s : State} {p : Port} (h : (s.port p).session = false) : s.splKick p = s := by
  simp [State.splKick, h]

theorem State.splKick_onlyPort (s : State) (p : Port) : s.OnlyPort p (s.splKick p) := by
  have hsame : s.OnlyPort p s := .of_spl rfl
  unfold State.splKick
  extract_lets x
  split
  · exact hsame
  split
  · exact (s.setPort_onlyPort p _).trans (State.sendSpl_onlyPort _ p _)
  · split
    · exact s.sendSpl_onlyPort p _
    split
    · exact hsame
    · exact ((s.setPort_onlyPort p _).trans (State.writeRecord_onlyPort _ p _)).trans (State.sendSpl_onlyPort _ p _)
  · split
    · exact s.sendSpl_onlyPort p _
    split
    · exact s.sendSpl_onlyPort p _
    · exact hsame

/-- A port's works staged, its coalesced records behind them. -/
def Spl.stage (x : Spl) (ws : List SplWork) : Spl := { x with staged := x.staged ++ ws ++ x.coalesce, coalesce := [] }

/-- A device record coalesced. -/
def Spl.coalesceWith (x : Spl) (w : SplWork) : Spl := { x with coalesce := x.coalesce ++ [w] }

theorem State.stageAt_eq (s : State) (p : Port) (ws : List SplWork) :
    s.stageAt p ws = ((s.modPort p (·.stage ws)).dlRemove 5 (.spoolCoalesceExpiry p)).splKick p := rfl

theorem State.coalesceAt_eq (s : State) (p : Port) (w : SplWork) : s.coalesceAt p w =
    if fld s.spl.cfg.toNat 16 16 = 0 then s.stageAt p [w]
    else if (s.port p).coalesce.contains w then s
    else if (s.port p).coalesce = [] then
      (s.modPort p (·.coalesceWith w)).dlInsert 5 ((s.modPort p (·.coalesceWith w)).now + fld s.spl.cfg.toNat 16 16)
        (.spoolCoalesceExpiry p)
    else s.modPort p (·.coalesceWith w) := rfl

theorem State.stageAt_onlyPort (s : State) (p : Port) (ws : List SplWork) : s.OnlyPort p (s.stageAt p ws) := by
  rw [State.stageAt_eq]
  exact ((s.modPort_onlyPort p (·.stage ws)).trans (.of_spl (by simp))).trans (State.splKick_onlyPort _ p)

theorem State.coalesceAt_onlyPort (s : State) (p : Port) (w : SplWork) : s.OnlyPort p (s.coalesceAt p w) := by
  have hmod := s.modPort_onlyPort p (·.coalesceWith w)
  rw [State.coalesceAt_eq]
  split
  · exact s.stageAt_onlyPort p _
  split
  · exact .of_spl rfl
  split
  · exact hmod.trans (.of_spl (by simp))
  · exact hmod

/-! ## A port without a session -/

/-- A port without a session has none after the operation, and keeps its state; no bit of SPL_EVT is cleared. -/
def State.Shut (p : Port) (s t : State) : Prop :=
  (s.port p).session = false → ((t.port p).session = false ∧ (t.port p).state = (s.port p).state) ∧
    ∀ i, s.spl.evt.getLsbD i = true → t.spl.evt.getLsbD i = true

section
variable {p : Port} {s t u : State}

theorem State.Shut.of_port (hs : (t.port p).session = (s.port p).session) (hst : (t.port p).state = (s.port p).state)
    (he : t.spl.evt = s.spl.evt) : s.Shut p t :=
  fun h => ⟨⟨hs.trans h, hst⟩, fun i hi => by rw [he]; exact hi⟩

theorem State.Shut.of_spl (h : t.spl = s.spl) : s.Shut p t :=
  .of_port (by rw [State.port_of_spl h]) (by rw [State.port_of_spl h]) (by rw [h])

theorem State.Shut.trans (h : s.Shut p t) (g : t.Shut p u) : s.Shut p u := by
  intro hs
  obtain ⟨⟨ht, hst⟩, he⟩ := h hs
  obtain ⟨⟨hu, hsu⟩, hf⟩ := g ht
  exact ⟨⟨hu, hsu.trans hst⟩, fun i hi => hf i (he i hi)⟩

theorem State.OnlyPort.shut {q : Port} (h : s.OnlyPort q t) (hq : p ≠ q) : s.Shut p t :=
  .of_port (by rw [h.other p hq]) (by rw [h.other p hq]) h.evt

theorem State.Shut.foldl {α : Type} {f : State → α → State} (h : ∀ s a, State.Shut p s (f s a)) (l : List α) (s : State) :
    s.Shut p (l.foldl f s) := by
  induction l generalizing s with
  | nil => exact .of_spl rfl
  | cons a l ih => exact (h s a).trans (ih _)

end

/-- Nothing but the session and the state of the port itself counts. -/
theorem State.modPort_shut (s : State) (p q : Port) {f : Spl → Spl} (hs : ∀ x, (f x).session = x.session)
    (hst : ∀ x, (f x).state = x.state) : s.Shut p (s.modPort q f) := by
  by_cases hq : p = q
  · subst hq
    exact .of_port (by simp [hs]) (by simp [hst]) (s.modPort_onlyPort p f).evt
  · exact (s.modPort_onlyPort q f).shut hq

theorem State.splKick_shut (s : State) (p q : Port) : s.Shut p (s.splKick q) := by
  by_cases hq : p = q
  · subst hq
    intro h
    rw [State.splKick_of_no_session h]
    exact State.Shut.of_spl rfl h
  · exact (s.splKick_onlyPort q).shut hq

theorem State.stageAt_shut (s : State) (p q : Port) (ws : List SplWork) : s.Shut p (s.stageAt q ws) := by
  have hmod : s.Shut p (s.modPort q (·.stage ws)) := s.modPort_shut p q (fun _ => rfl) (fun _ => rfl)
  rw [State.stageAt_eq]
  exact (hmod.trans (.of_spl (by simp))).trans (State.splKick_shut _ p q)

theorem State.coalesceAt_shut (s : State) (p q : Port) (w : SplWork) : s.Shut p (s.coalesceAt q w) := by
  have hmod : s.Shut p (s.modPort q (·.coalesceWith w)) := s.modPort_shut p q (fun _ => rfl) (fun _ => rfl)
  rw [State.coalesceAt_eq]
  split
  · exact s.stageAt_shut p q _
  split
  · exact .of_spl rfl
  split
  · exact hmod.trans (.of_spl (by simp))
  · exact hmod

theorem State.splEvt_shut (s : State) (p : Port) (bit : Nat) : s.Shut p (s.splEvt bit) := by
  intro h
  refine ⟨by simpa using h, fun i hi => ?_⟩
  rw [State.splEvt_evt, getLsbD_setBit_true, hi, Bool.true_or]

/-- The role of a port once a re-spooling has ended without its completion. -/
def State.abortedRole (s : State) (x : Spl) : Spl :=
  if x.state ≠ 6 then x
  else if s.vigil.primSerial = some x.serial then { x with role := 1 }
  else if x.role = 2 || x.role = 3 then { x with role := 4 }
  else x

theorem State.abortedRole_keeps (s : State) (x : Spl) :
    (s.abortedRole x).session = x.session ∧ (s.abortedRole x).state = x.state := by
  unfold State.abortedRole
  split_ifs <;> exact ⟨rfl, rfl⟩

theorem State.respoolAbort_shut (s : State) (p : Port) (detail : Nat) : s.Shut p (s.respoolAbort detail) := by
  unfold State.respoolAbort
  split
  · exact .of_spl rfl
  · extract_lets _ t t1 t2
    have hbegin : s.Shut p t := by cases p <;> exact .of_port rfl rfl rfl
    have hroles : t.Shut p t1 :=
      .foldl (fun u q => u.modPort_shut p q (fun x => (u.abortedRole_keeps x).1) (fun x => (u.abortedRole_keeps x).2)) _ _
    have hrecords : t1.Shut p t2 := .foldl (fun u q => u.coalesceAt_shut p q _) _ _
    exact (((hbegin.trans hroles).trans hrecords).trans (.of_spl (by simp))).trans (State.splEvt_shut _ p 17)

/-! ## What is lost with a session -/

theorem State.each_spl {f : State → Nat → State} (h : ∀ s n, (f s n).spl = s.spl) (l : List Nat) (s : State) :
    (s.each l f).spl = s.spl :=
  State.each_kept (·.spl) l f h s

@[simp] theorem State.splJobFail_spl (s : State) (j detail : Nat) : (s.splJobFail j detail).spl = s.spl := by
  unfold State.splJobFail
  split
  · rfl
  · split <;> simp

@[simp] theorem State.ckptRefused_spl (s : State) (p : Port) : (s.ckptRefused p).spl = s.spl :=
  State.each_spl (fun _ _ => by simp) _ s

@[simp] theorem State.powerDownEnd_spl (s : State) : s.powerDownEnd.spl = s.spl := by
  unfold State.powerDownEnd
  split
  · split <;> simp
  · rfl

@[simp] theorem State.undoRestore_spl (s : State) (f : Nat) : (s.undoRestore f).spl = s.spl := by
  unfold State.undoRestore
  simp [State.each_spl]

@[simp] theorem State.restored_spl (s : State) (j : Nat) (x : Job) : (s.restored j x).spl = s.spl := by
  simp [State.restored]

@[simp] theorem State.restDone_spl (s : State) (job : Nat) : (s.restDone job).spl = s.spl := by
  unfold State.restDone
  extract_lets mine
  split
  · rfl
  split
  · split <;> simp
  · rfl

@[simp] theorem State.readFail_spl (s : State) (n detail : Nat) : (s.readFail n detail).spl = s.spl := by
  have hawait (t : State) (slot uid : Nat) : (t.awaitersFail slot uid spoolErr detail).spl = t.spl := by
    refine State.each_spl (fun u j => ?_) _ t
    unfold State.awaitFail
    split
    · split <;> simp
    · rfl
  unfold State.readFail
  split
  · split
    · split <;> simp [hawait]
    · exact hawait _ _ _
  · rfl

/-- A work that fails ends a re-spooling, or leaves the key spool as it is. -/
theorem State.workFail_cases (s : State) (p : Port) (detail : Nat) (w : SplWork) :
    (s.workFail p detail w).spl = s.spl ∨ s.workFail p detail w = s.respoolAbort detail := by
  cases w with
  | index slot ceil =>
    left
    simp only [State.workFail]
    split
    · split
      · exact State.each_spl (fun _ _ => by simp) _ _
      · rfl
    · rfl
  | key slot job => exact .inl (State.splJobFail_spl _ _ _)
  | commitRec slot job | shadowRec slot job =>
    left
    simp only [State.workFail, State.splJobFail_spl]
    split
    · split <;> simp
    · rfl
  | tomb slot job _ _ => exact .inl (State.splJobFail_spl _ _ _)
  | restKey _ job | restIndex _ job =>
    left
    simp only [State.workFail]
    split
    · split <;> simp
    · rfl
  | ckpt | boots => exact .inl (s.ckptRefused_spl p)
  | primary _ | copy _ _ => exact .inr rfl
  | role => exact .inl rfl

theorem State.workFail_shut (s : State) (p q : Port) (detail : Nat) (w : SplWork) : s.Shut p (s.workFail q detail w) := by
  obtain h | h := s.workFail_cases q detail w
  · exact .of_spl h
  · rw [h]
    exact s.respoolAbort_shut p detail

theorem State.commitWorks_shut (s : State) (p : Port) (ws : List SplWork) : s.Shut p (s.commitWorks ws) := by
  unfold State.commitWorks
  extract_lets ps
  split
  · exact .foldl (fun t w => t.workFail_shut p .a _ w) ws s
  · exact .foldl (fun t q => t.stageAt_shut p q ws) ps s

/-- The record of a key is durable. -/
def State.keyRecorded (s : State) (slot : Nat) : State :=
  match s.key? slot with
  | some k => s.setKey slot { k with recOk := true }
  | none => s

/-- The command that waits for its key's record ends. -/
def State.recordDone (s : State) (job : Nat) : State :=
  match s.job? job with
  | some x => if x.stage = .firmware then s.done job x.result else s
  | none => s

@[simp] theorem State.keyRecorded_spl (s : State) (slot : Nat) : (s.keyRecorded slot).spl = s.spl := by
  unfold State.keyRecorded
  split <;> rfl

@[simp] theorem State.recordDone_spl (s : State) (job : Nat) : (s.recordDone job).spl = s.spl := by
  unfold State.recordDone
  split
  · split <;> simp
  · rfl

theorem State.workDone_key (s : State) (slot job : Nat) :
    s.workDone (.key slot job) = (s.keyRecorded slot).recordDone job := rfl

theorem State.workDone_restKey (s : State) (slot job : Nat) :
    s.workDone (.restKey slot job) = (s.keyRecorded slot).restDone job := rfl

/-- A work that is durable commits the next record of its replacement, or leaves the key spool as it is. -/
theorem State.workDone_cases (s : State) (w : SplWork) :
    (s.workDone w).spl = s.spl ∨ ∃ slot job, s.workDone w = s.commitWorks [.commitRec slot job] := by
  cases w with
  | index slot ceil =>
    left
    simp only [State.workDone]
    split
    · split <;> rfl
    · rfl
  | key slot job => exact .inl (by simp [State.workDone_key])
  | restKey slot job => exact .inl (by simp [State.workDone_restKey])
  | restIndex _ job => exact .inl (s.restDone_spl job)
  | shadowRec slot job =>
    simp only [State.workDone]
    split
    · split
      · split
        · exact .inr ⟨_, _, rfl⟩
        · exact .inl rfl
      · exact .inl rfl
    · exact .inl rfl
  | commitRec slot job =>
    left
    simp only [State.workDone]
    split
    · split
      · split <;> rfl
      · rfl
    · rfl
  | tomb slot job _ _ =>
    left
    simp only [State.workDone]
    split <;> simp
  | ckpt | boots | role | primary _ | copy _ _ => exact .inl rfl

theorem State.workDone_shut (s : State) (p : Port) (w : SplWork) : s.Shut p (s.workDone w) := by
  obtain h | ⟨slot, job, h⟩ := s.workDone_cases w
  · exact .of_spl h
  · rw [h]
    exact s.commitWorks_shut p _

theorem State.workLost_shut (s : State) (p q : Port) (detail : Nat) (w : SplWork) : s.Shut p (s.workLost q detail w) := by
  unfold State.workLost
  extract_lets o
  split_ifs
  · exact .of_spl rfl
  · exact s.workDone_shut p w
  · exact s.workFail_shut p q detail w

/-- A port that has lost its session has none, in the state that it was in. -/
theorem State.splLose_port (s : State) (p : Port) (detail : Nat) :
    ((s.splLose p detail).port p).session = false ∧ ((s.splLose p detail).port p).state = (s.port p).state := by
  unfold State.splLose
  extract_lets x t0 t1 t2
  have hp : (t0.port p).session = false ∧ (t0.port p).state = (s.port p).state := by simp [t0, x]
  have hworks : t0.Shut p t1 := 
    (State.Shut.foldl (fun u w => u.workLost_shut p p detail w) x.works t0).trans (.of_spl (State.powerDownEnd_spl _))
  have hreads : t1.Shut p t2 := .foldl (fun u n => .of_spl (u.readFail_spl n detail)) _ t1
  obtain ⟨hsession, hstate⟩ := hp
  obtain ⟨⟨hsession2, hstate2⟩, -⟩ := hworks.trans hreads hsession
  split
  · simp [State.port_of_spl (State.splJobFail_spl t2 _ detail), hsession2, hstate2, hstate]
  · exact ⟨hsession2, hstate2.trans hstate⟩

/-- A port that fails (R288, R293). -/
theorem State.splFailed_port (s : State) (p : Port) (detail : Nat) :
    ((s.splFailed p detail).port p).state = 8 ∧ ((s.splFailed p detail).port p).session = false ∧
      (s.splFailed p detail).spl.evt.getLsbD (4 + 8 * portNo p) = true := by
  unfold State.splFailed
  extract_lets t u
  have hsession : (u.port p).session = false := by simp [u, t, (s.splLose_port p detail).1]
  have hstate : (u.port p).state = 8 := by simp [u]
  obtain ⟨⟨hsession2, hstate2⟩, hevt⟩ := u.respoolAbort_shut p detail hsession
  exact ⟨hstate2.trans hstate, hsession2, hevt _ (State.portEvt_evt _ p (by decide))⟩

/-! ## Link errors (R293) -/

@[simp] theorem State.splCount_port (s : State) (p q : Port) : (s.splCount p).port q = s.port q := by cases q <;> rfl

/-- A link error counts in its port's half of SPL_CNT_ERR, up to 0xFFFF. -/
theorem State.splCount_cntErr (s : State) (p : Port) : fld (s.splCount p).spl.cntErr.toNat (16 * portNo p) 16 =
    min (fld s.spl.cntErr.toNat (16 * portNo p) 16 + 1) 0xFFFF := by
  have hlt := s.spl.cntErr.isLt
  cases p <;> simp [State.splCount, fld, setFld, portNo] <;> omega

theorem exec_spoolLinkTimeout_eq {s : State} {p : Port} (h : (s.port p).flight.isSome = true) :
    exec (.spoolLinkTimeout p) s = .next (s.linkError p).settle := by
  simp [exec, execSpoolLinkTimeout, finish, h]

/-- The fourth link error in a row fails the port. -/
theorem State.linkError_fourth {s : State} {p : Port} (h : 3 ≤ (s.port p).errors) :
    s.linkError p = (s.splCount p).splFailed p 0x0701 := by
  simp [State.linkError, h]

/-- An earlier one outside the handshake repeats the frame. -/
theorem State.linkError_repeats {s : State} {p : Port} {o : SplOut} (h : (s.port p).errors < 3) (h1 : (s.port p).shake ≠ 1)
    (h2 : (s.port p).shake ≠ 2) (hf : (s.port p).flight = some o) :
    s.linkError p = ((s.splCount p).modPort p (fun x => { x with errors := x.errors + 1 })).emitSpl p o := by
  have h' : ¬ 3 ≤ (s.port p).errors := by omega
  simp [State.linkError, State.modPort, h', h1, h2, hf]

/-! ## The handshake's first frame -/

/-- Whether a generator serves rests on the entropy island and the time. -/
theorem State.serves_of_rng {s t : State} (hr : t.rng = s.rng) (hg : t.glb = s.glb) (i : Nat) : t.serves i = s.serves i := by
  unfold State.serves State.inst State.rngRuns State.now
  rw [hr, hg]

@[simp] theorem State.modPort_serves (s : State) (p : Port) (f : Spl → Spl) (i : Nat) : (s.modPort p f).serves i = s.serves i :=
  State.serves_of_rng (State.setPort_rng s p _) (State.setPort_glb s p _) i

@[simp] theorem State.drawT_port (s : State) (n : Nat) (p : Port) : (s.drawT n).2.port p = s.port p :=
  State.port_of_spl (s.drawT_spl n) p

/-- HELLO goes out where the generator of core T serves; otherwise the handshake waits. -/
theorem State.sayHello_port (s : State) (p : Port) : ((s.sayHello p).port p).state = (s.port p).state ∧
    ((s.sayHello p).port p).serial = (s.port p).serial ∧ ((s.sayHello p).port p).shake = 1 ∧
    (s.serves 4 = true → ((s.sayHello p).port p).flight = some .hello) := by
  unfold State.sayHello
  extract_lets t
  have ht : t.serves 4 = s.serves 4 := State.modPort_serves s p _ 4
  have hport : (t.port p).state = (s.port p).state ∧ (t.port p).serial = (s.port p).serial ∧ (t.port p).shake = 1 := by simp [t]
  cases hs : s.serves 4 <;> simp [ht, hs, hport]

theorem State.startShake_port (s : State) (p : Port) (pairing : Bool) (job : Option Nat) :
    ((s.startShake p pairing job).port p).state = (s.port p).state ∧
      ((s.startShake p pairing job).port p).serial = (s.port p).serial ∧ ((s.startShake p pairing job).port p).shake = 1 ∧
      (s.serves 4 = true → ((s.startShake p pairing job).port p).flight = some .hello) := by
  have h := (s.modPort p (fun x => { x with pairing := pairing, job := job })).sayHello_port p
  rwa [State.modPort_serves, State.port_modPort] at h

/-! ## Presence (R283, R297) -/

@[simp] theorem State.modPort_splUp (s : State) (p : Port) (f : Spl → Spl) : (s.modPort p f).splUp = s.splUp := by
  simp [State.modPort, State.splUp, State.awake]

theorem exec_spoolPresEdge_idle {s : State} {p : Port} (hm : s.pins.mainPower = true) (hf : (s.port p).flight = none)
    (high : Bool) : exec (.spoolPresEdge p high) s = .next (s.setPort p { s.port p with highZ := high }).settle := by
  simp [exec, execSpoolPresEdge, finish, hm, hf, State.modPort]

theorem exec_spoolInsert_empty {s : State} {p : Port} (hu : s.splUp = true) (hs : (s.port p).state = 0) :
    exec (.spoolInsert p) s = .next ((((s.modPort p (fun x => { x with pres := true })).modPort p
      (fun x => { x with state := 1 })).portEvt p 0)).settle := by
  simp [exec, execSpoolInsert, finish, hu, hs]

/-- The port of a cartridge that has been removed: what was sent and written, and the next record number, are all that is left. -/
def Spl.removed (x : Spl) : Spl := { out := x.out, frames := x.frames, nextRec := x.nextRec, written := x.written }

theorem exec_spoolRemove_present {s : State} {p : Port} (hs : (s.port p).state ≠ 0) : exec (.spoolRemove p) s =
    .next ((((s.respoolAbort 0x0704).splLose p 0x0701).modPort p Spl.removed).portEvt p 1).settle := by
  simp only [exec, execSpoolRemove, finish, if_neg hs]
  rfl

/-! ## The end of a probe (R285) -/

/-- A port whose probe has ended. -/
def State.probed (s : State) (p : Port) (r : SpoolReport) : State :=
  s.modPort p (fun x => { x with state := r.outcome, serial := r.serial, mine := r.outcome = 5 })

theorem exec_spoolProbeResult_eq {s : State} {p : Port} {r : SpoolReport} (hu : s.splUp = true) (hs : (s.port p).state = 1)
    (hlo : 2 ≤ r.outcome) (hhi : r.outcome ≤ 5) : exec (.spoolProbeResult p r) s =
    finish (if r.outcome = 5 then
        if bitOf s.spl.cfg.toNat 0 || (s.port p).job.isSome then (s.probed p r).startShake p false (s.port p).job else s.probed p r
      else
        match (s.port p).job with
        | some j => ((s.probed p r).modPort p (fun x => { x with job := none })).doneErr j spoolErr 0x0102
        | none => s.probed p r) := by
  have hcfg : (s.probed p r).spl.cfg = s.spl.cfg := (s.modPort_onlyPort p _).cfg
  simp only [exec, execSpoolProbeResult, hu, hs, hlo, hhi, ← hcfg]
  rfl

/-- The result of a probe is the port's state, whatever becomes of the command that asked for it. -/
theorem exec_spoolProbeResult_port {s : State} {p : Port} {r : SpoolReport} (hu : s.splUp = true) (hs : (s.port p).state = 1)
    (hlo : 2 ≤ r.outcome) (hhi : r.outcome ≤ 5) : ∃ t, exec (.spoolProbeResult p r) s = .next t ∧
      (t.port p).state = r.outcome ∧ (t.port p).serial = r.serial ∧ (r.outcome = 5 → bitOf s.spl.cfg.toNat 0 = true →
        (t.port p).shake = 1 ∧ (s.serves 4 = true → (t.port p).flight = some .hello)) := by
  have hprobed : ((s.probed p r).port p).state = r.outcome ∧ ((s.probed p r).port p).serial = r.serial := by
    simp [State.probed]
  obtain ⟨hstate, hserial⟩ := hprobed
  rw [exec_spoolProbeResult_eq hu hs hlo hhi]
  refine ⟨_, rfl, ?_⟩
  rw [State.settle_port]
  by_cases h5 : r.outcome = 5
  · rw [if_pos h5]
    split
    · obtain ⟨hst, hse, hsh, hfl⟩ := (s.probed p r).startShake_port p false (s.port p).job
      exact ⟨hst.trans hstate, hse.trans hserial, fun _ _ => ⟨hsh, fun hv => hfl ((s.modPort_serves p _ 4).trans hv)⟩⟩
    · rename_i hauto
      exact ⟨hstate, hserial, fun _ hc => absurd (by simp [hc]) hauto⟩
  · rw [if_neg h5]
    refine ⟨?_, ?_, fun h => absurd h h5⟩
    all_goals
      split
      · simp [hstate, hserial]
      · assumption

/-! ## Coalesced records (R291) -/

/-- A staged record goes out where the link is free and nothing waits to be committed first. -/
theorem State.splKick_writes {s : State} {p : Port} {w : SplWork} {ws : List SplWork} (hs : (s.port p).session = true)
    (hf : (s.port p).flight = none) (hw : (s.port p).wants = []) (hst : (s.port p).staged = w :: ws)
    (hc : (s.port p).inCommit = []) (hv : s.serves 4 = true) : s.splKick p =
    ((s.modPort p (fun x => { x with staged := ws })).writeRecord p w).sendSpl p (.write w) := by
  simp [State.splKick, commitsNow, hs, hf, hw, hst, hc, hv, State.modPort]

theorem exec_spoolCoalesceExpiry_stages {s : State} {p : Port} (hs : (s.port p).session = true)
    (hc : (s.port p).coalesce ≠ []) : exec (.spoolCoalesceExpiry p) s = .next (s.stageAt p []).settle := by
  simp [exec, execSpoolCoalesceExpiry, finish, hs, hc]

/-- The coalesced records are staged, and the first goes out. -/
theorem State.stageAt_nil_writes {s : State} {p : Port} {w : SplWork} {ws : List SplWork} (hs : (s.port p).session = true)
    (hc : (s.port p).coalesce = w :: ws) (hst : (s.port p).staged = []) (hf : (s.port p).flight = none)
    (hw : (s.port p).wants = []) (hi : (s.port p).inCommit = []) (hv : s.serves 4 = true) :
    ((s.stageAt p []).port p).coalesce = [] ∧ ((s.stageAt p []).port p).flight = some (.write w) ∧
      ((s.stageAt p []).port p).staged = ws := by
  rw [State.stageAt_eq]
  generalize ht : (s.modPort p (·.stage [])).dlRemove 5 (.spoolCoalesceExpiry p) = t
  have hport : t.port p = (s.port p).stage [] := by simp [← ht]
  have hserves : t.serves 4 = true := by
    rw [← ht, State.serves_of_rng (s := s.modPort p (·.stage [])) (by simp) (by simp), State.modPort_serves, hv]
  obtain ⟨hstaged, hcoalesce⟩ := State.writeRecord_port (t.modPort p (fun x => { x with staged := ws })) p w
  rw [State.splKick_writes (w := w) (ws := ws) (by simpa [hport, Spl.stage] using hs) (by simpa [hport, Spl.stage] using hf)
    (by simpa [hport, Spl.stage] using hw) (by simp [hport, Spl.stage, hst, hc]) (by simpa [hport, Spl.stage] using hi) hserves]
  simp [hstaged, hcoalesce, hport, Spl.stage]

/-! ## Checkpoints (R52, R296) -/

/-- The next checkpoint is due in 60 s. -/
def State.checkpointDue (s : State) : State :=
  (s.dlRemove 5 .spoolCheckpoint).dlInsert 5 (s.now + 60000000) .spoolCheckpoint

theorem exec_spoolCheckpoint_due {s : State} (ht : s.ticking = true) (hl : s.glb.lifeSrc ≠ 3) :
    exec .spoolCheckpoint s = .next (s.checkpointDue.deviceRecord .ckpt).settle := by
  have hl' : s.glb.lifeSrc ≠ 3#2 := hl
  simp [exec, execSpoolCheckpoint, finish, ht, hl', State.checkpointDue]

@[simp] theorem State.checkpointDue_spl (s : State) : s.checkpointDue.spl = s.spl := by simp [State.checkpointDue]

@[simp] theorem State.checkpointDue_port (s : State) (p : Port) : s.checkpointDue.port p = s.port p :=
  State.port_of_spl s.checkpointDue_spl p

/-- With no spool to take them, device records are not written. -/
theorem State.deviceRecord_of_none {s : State} (h : ∀ q, (s.port q).takesDevice = false) (w : SplWork) :
    s.deviceRecord w = s := by
  simp [State.deviceRecord, bothPorts, h, State.eachPort]

/-- While records are coalesced, a device record joins those of its port, which still takes device records. -/
theorem State.coalesceAt_delays {s : State} (hc : fld s.spl.cfg.toNat 16 16 ≠ 0) (q : Port) (w : SplWork) :
    w ∈ ((s.coalesceAt q w).port q).coalesce ∧ ((s.coalesceAt q w).port q).takesDevice = (s.port q).takesDevice := by
  have hmod : w ∈ ((s.modPort q (·.coalesceWith w)).port q).coalesce ∧
      ((s.modPort q (·.coalesceWith w)).port q).takesDevice = (s.port q).takesDevice := by
    simp [Spl.coalesceWith, Spl.takesDevice]
  rw [State.coalesceAt_eq, if_neg hc]
  split
  · rename_i hin
    exact ⟨by simpa using hin, rfl⟩
  split
  · simpa using hmod
  · exact hmod

/-- On several ports: each of them has the record coalesced, none loses it, and each still takes device records. -/
theorem State.eachPort_coalesceAt (w : SplWork) (p : Port) (l : List Port) {s : State} (hc : fld s.spl.cfg.toNat 16 16 ≠ 0) :
    (p ∈ l ∨ w ∈ (s.port p).coalesce → w ∈ ((s.eachPort l (fun s q => s.coalesceAt q w)).port p).coalesce) ∧
      ((s.eachPort l (fun s q => s.coalesceAt q w)).port p).takesDevice = (s.port p).takesDevice := by
  induction l generalizing s with
  | nil => exact ⟨fun h => h.resolve_left (List.not_mem_nil), rfl⟩
  | cons q l ih =>
    have hq := s.coalesceAt_onlyPort q w
    obtain ⟨hmem, htakes⟩ := ih (s := s.coalesceAt q w) (by rwa [hq.cfg])
    by_cases hp : p = q
    · subst hp
      obtain ⟨hin, hkeeps⟩ := State.coalesceAt_delays hc p w
      exact ⟨fun _ => hmem (.inr hin), htakes.trans hkeeps⟩
    · rw [hq.other p hp] at hmem htakes
      exact ⟨fun h => hmem (h.imp_left (fun h => (List.mem_cons.1 h).resolve_left hp)), htakes⟩

theorem mem_bothPorts (p : Port) : p ∈ bothPorts := by cases p <;> decide

/-- A device record waits on each spool that takes it. -/
theorem State.deviceRecord_waits {s : State} {p : Port} (hp : (s.port p).takesDevice = true)
    (hc : fld s.spl.cfg.toNat 16 16 ≠ 0) (w : SplWork) :
    w ∈ ((s.deviceRecord w).port p).coalesce ∧ ((s.deviceRecord w).port p).takesDevice = true := by
  obtain ⟨hmem, htakes⟩ := State.eachPort_coalesceAt w p (bothPorts.filter (fun q => (s.port q).takesDevice)) hc
  have hin : p ∈ bothPorts.filter (fun q => (s.port q).takesDevice) := List.mem_filter.2 ⟨mem_bothPorts p, hp⟩
  exact ⟨hmem (.inl hin), htakes.trans hp⟩

/-- A spool that takes device records takes checkpoints. -/
theorem State.ckptOff_of_takes {s : State} {p : Port} (h : (s.port p).takesDevice = true) : s.ckptOff = false := by
  have hany : bothPorts.any (fun q => (s.port q).takesDevice) = true := List.any_eq_true.2 ⟨p, mem_bothPorts p, h⟩
  simp [State.ckptOff, hany]

/-- With none, SPOOL_CKPT_OFF reads 1 from t11 on. -/
theorem State.ckptOff_of_none {s : State} (h : ∀ q, (s.port q).takesDevice = false) (hs : 11 ≤ s.glb.step) :
    s.ckptOff = true := by
  have hs' : 11#4 ≤ s.glb.step := hs
  simp [State.ckptOff, bothPorts, h, hs']

/-! ## The statement settled -/

/-- Settles O46, event by event. -/
theorem spoolPortEvents : Obligations.SpoolPortEvents := by
  unfold Obligations.SpoolPortEvents
  intro s p
  refine ⟨fun high hm hf => exec_spoolPresEdge_idle hm hf high,
    fun hu hs => ⟨_, exec_spoolInsert_empty hu hs, ?inserted⟩,
    fun hs => ⟨_, exec_spoolRemove_present hs, ?removed⟩,
    fun r hu hs hlo hhi => exec_spoolProbeResult_port hu hs hlo hhi,
    fun o hf h1 h2 => ⟨fun he => ⟨_, by rw [exec_spoolLinkTimeout_eq (by simp [hf]), State.linkError_repeats he h1 h2 hf], ?repeats⟩,
      fun he => ⟨_, by rw [exec_spoolLinkTimeout_eq (by simp [hf]), State.linkError_fourth he], ?fails⟩⟩,
    fun w ws hs hc hst hf hw hi hv => ⟨_, exec_spoolCoalesceExpiry_stages hs (by simp [hc]), ?expires⟩,
    fun ht hl => ⟨fun hn => ⟨_, exec_spoolCheckpoint_due ht hl, ?nowhere⟩,
      fun hp hc => ⟨_, exec_spoolCheckpoint_due ht hl, ?waits⟩⟩⟩
  case inserted =>
    refine ⟨by simp, by simp, by simpa using State.portEvt_evt _ p (bit := 0) (by decide), ?_⟩
    rw [State.settle_port, State.portEvt_port, (State.modPort_onlyPort _ p _).other _ (otherPort_ne p),
      (s.modPort_onlyPort p _).other _ (otherPort_ne p)]
  case removed =>
    exact ⟨by simp [Spl.removed], by simp [Spl.removed], by simp [Spl.removed], by simp [Spl.removed],
      by simpa using State.portEvt_evt _ p (bit := 1) (by decide)⟩
  case repeats =>
    have hemit (u : State) : (u.emitSpl p o).spl.cntErr = u.spl.cntErr := (u.emitSpl_onlyPort p o).cntErr
    refine ⟨by simp [State.emitSpl], by simp [State.emitSpl], by simp [State.emitSpl], ?_⟩
    rw [State.settle_spl, hemit, (State.modPort_onlyPort _ p _).cntErr, State.splCount_cntErr]
  case fails => simpa using (s.splCount p).splFailed_port p 0x0701
  case expires => simpa using State.stageAt_nil_writes hs hc hst hf hw hi hv
  case nowhere =>
    have hn' (q : Port) : (s.checkpointDue.port q).takesDevice = false := by rw [State.checkpointDue_port, hn]
    rw [State.deviceRecord_of_none hn']
    refine ⟨fun hstep => State.ckptOff_of_none (fun q => ?_) ?_, by simp⟩
    · rw [State.settle_port, hn']
    · simpa [State.checkpointDue] using hstep
  case waits =>
    obtain ⟨hmem, htakes⟩ := State.deviceRecord_waits (s := s.checkpointDue) (p := p) (by simpa using hp) (by simpa using hc) .ckpt
    exact ⟨State.ckptOff_of_takes (p := p) (by simpa using htakes), by simpa using hmem⟩

end Sys2Proof.Machine
end

section
/-! PROOFS. The doorbells of chapter 3: what the operations on the state leave of a ring's BASE, size, TAIL and DONE, what a structural
fault records in its function's page, and the cases of DOORBELL_WRITE (R62, R63, R67). -/

namespace Sys2Proof

theorem Tbl.get?_each {α : Type} (t : Tbl α) (f : Nat → α → α) (i : Nat) :
    Tbl.get? (Tbl.each t f) i = (Tbl.get? t i).map (f i) := by
  induction t with
  | nil => rfl
  | cons e t ih =>
    obtain ⟨k, v⟩ := e
    by_cases h : i = k
    · simp [Tbl.each, Tbl.get?, h]
    · simpa [Tbl.each, Tbl.get?, h] using ih

namespace Machine

/-! ## Reading rings and pages -/

theorem State.ring?_of_rings {s t : State} (h : t.rings = s.rings) (f r : Nat) : t.ring? f r = s.ring? f r := by
  simp [State.ring?, h]

@[simp] theorem State.settle_ring? (s : State) (f r : Nat) : s.settle.ring? f r = s.ring? f r :=
  State.ring?_of_rings (by simp) f r

theorem State.page_of_fns {s t : State} (h : t.fns = s.fns) (f : Nat) : t.page f = s.page f := by
  simp [State.page, h]

theorem State.setRing_ring? (s : State) (f r : Nat) (x : Ring) (f' r' : Nat) :
    (s.setRing f r x).ring? f' r' = if ringNo f' r' = ringNo f r then some x else s.ring? f' r' := by
  split
  · next h => simp [State.ring?, State.setRing, h]
  · next h => exact State.ring?_setRing_ne s x h

/-! ## What a structural fault leaves of the rings -/

/-- BASE, LOG2_SIZE, TAIL and DONE of a ring: what its bounds are made of. -/
def Ring.extent (g : Ring) : W64 × Nat × W32 × W32 := (g.base, g.log2, g.tail, g.done)

/-- The extent of the ring of a number, where there is one. -/
def State.extent? (s : State) (f r : Nat) : Option (W64 × Nat × W32 × W32) := (s.ring? f r).map Ring.extent

theorem State.extent?_of_rings {s t : State} (h : t.rings = s.rings) (f r : Nat) : t.extent? f r = s.extent? f r := by
  rw [State.extent?, State.ring?_of_rings h, State.extent?]

/-- A change of a ring that keeps its extent keeps every ring's. -/
theorem State.setRing_extent? {s : State} {f r : Nat} {g x : Ring} (h : s.ring? f r = some g) (hx : x.extent = g.extent)
    (f' r' : Nat) : (s.setRing f r x).extent? f' r' = s.extent? f' r' := by
  rw [State.extent?, State.setRing_ring?, State.extent?]
  split
  · next hn =>
    have hg : s.ring? f' r' = some g := by rw [State.ring?, hn]; exact h
    rw [hg, Option.map_some, Option.map_some, hx]
  · rfl

@[simp] theorem State.dropEntries_extent? (s : State) (f r f' r' : Nat) :
    (s.dropEntries f r).extent? f' r' = s.extent? f' r' := by
  unfold State.dropEntries
  extract_lets other t
  split
  · next g h => exact (State.setRing_extent? h (x := { g with held := [], reading := [] }) rfl f' r').trans (State.extent?_of_rings rfl f' r')
  · exact State.extent?_of_rings rfl f' r'

theorem State.dropAll_rings (s : State) : s.dropAll.rings = s.rings.each (fun _ g => { g with held := [], reading := [] }) := by
  simp [State.dropAll]

@[simp] theorem State.haltDevice_extent? (s : State) (c : Byte) (f r : Nat) : (s.haltDevice c).extent? f r = s.extent? f r := by
  have hrings : (s.haltDevice c).rings = s.rings.each (fun _ g => { g with held := [], reading := [] }) := by
    simp [State.haltDevice, State.wipeCache, State.wipeEngines, State.dropAll_rings]
  rw [State.extent?, State.ring?, hrings, Tbl.get?_each, Option.map_map]
  rfl

/-- A structural fault drops entries and jobs; it moves no ring. -/
theorem State.structFault_extent? (s : State) (f r a b c f' r' : Nat) :
    (s.structFault f r a b c).extent? f' r' = s.extent? f' r' := by
  unfold State.structFault
  split
  · split
    · rfl
    · have hsignal : (((s.recordFault f r a b c).haltDevice 1).signal 0 0).rings =
          ((s.recordFault f r a b c).haltDevice 1).rings := by simp
      rw [State.extent?_of_rings hsignal, State.haltDevice_extent?]
      exact State.extent?_of_rings (by simp) f' r'
  · extract_lets t u v
    have ht : t.extent? f' r' = s.extent? f' r' := State.extent?_of_rings (by simp [t]) f' r'
    have hu : u.extent? f' r' = t.extent? f' r' :=
      State.each_kept (·.extent? f' r') _ _ (fun s r => State.dropEntries_extent? s f r f' r') t
    have hv : v.extent? f' r' = u.extent? f' r' := State.extent?_of_rings (by simp [v]) f' r'
    rw [← ht, ← hu, ← hv]
    exact State.extent?_of_rings (by simp) f' r'

/-! ## What a structural fault records (Table 3.13) -/

theorem State.recordFault_page (s : State) (f r a b : Nat) {c : Nat} (hc : c < 256) :
    ((s.recordFault f r a b c).page f).halted = true ∧
      (fld (s.page f).fault.toNat 0 8 = 0 → fld ((s.recordFault f r a b c).page f).fault.toNat 0 8 = c) := by
  refine ⟨by simp [State.recordFault], fun h => ?_⟩
  simp only [State.recordFault, State.page_setPage, if_pos h]
  simp only [fld, BitVec.toNat_ofNat]
  omega

theorem State.structFault_fns {s : State} {f : Nat} (r a b c : Nat) (h : f = 0 → s.glb.halted = false) :
    (s.structFault f r a b c).fns = (s.recordFault f r a b c).fns := by
  by_cases hf : f = 0
  · simp [State.structFault, hf, h hf]
  · simp [State.structFault, hf]

/-- A structural fault halts its function, and the first one of the function is the one its page reports (R91). -/
theorem State.structFault_page {s : State} {f : Nat} (r a b : Nat) {c : Nat} (hc : c < 256) (h : f = 0 → s.glb.halted = false) :
    ((s.structFault f r a b c).page f).halted = true ∧
      (fld (s.page f).fault.toNat 0 8 = 0 → fld ((s.structFault f r a b c).page f).fault.toNat 0 8 = c) := by
  rw [State.page_of_fns (State.structFault_fns r a b c h)]
  exact s.recordFault_page f r a b hc

/-! ## DOORBELL_WRITE -/

theorem exec_doorbellWrite_eq (s : State) (f r size : Nat) (v : W64) :
    exec (.doorbellWrite f r size v) s = .next (s.doorbell f r size v).settle := rfl

section
variable {s : State} {f r : Nat} (hb : s.barsOpen = true) (hf : s.fnThere f = true) (hr : r < ringLimit f)
include hb hf hr

theorem State.doorbell_unsupported {size : Nat} (h4 : size ≠ 4) (h8 : size ≠ 8) (v : W64) :
    s.doorbell f r size v = s.unsupported := by
  simp [State.doorbell, hb, hf, hr, h4, h8]

theorem State.doorbell_missing {size : Nat} (hs : size = 4 ∨ size = 8) (h : s.ring? f r = none) (v : W64) :
    s.doorbell f r size v = s.dropBell f := by
  obtain rfl | rfl := hs <;> simp [State.doorbell, hb, hf, hr, h]

variable {g : Ring} (h : s.ring? f r = some g)
include h

theorem State.doorbell_ignored {size : Nat} (hs : size = 4 ∨ size = 8) (hi : size ≠ 8 ∨ g.destroying = true ∨ g.mirror = true ∨
    (s.page f).halted = true ∨ s.glb.ringsOpen = false) (v : W64) : s.doorbell f r size v = s.dropBell f := by
  have hignored : (size ≠ 8 || g.destroying || g.mirror || (s.page f).halted || !s.glb.ringsOpen) = true := by
    simpa [or_assoc] using hi
  obtain rfl | rfl := hs <;> simp only [State.doorbell, hb, hf, hr, h, hignored] <;> simp

theorem State.doorbell_taken (ho : s.glb.ringsOpen = true) (hd : g.destroying = false) (hm : g.mirror = false)
    (hh : (s.page f).halted = false) (v : W64) : s.doorbell f r 8 v = s.bell f r g (v.setWidth 32) := by
  simp [State.doorbell, hb, hf, hr, h, ho, hd, hm, hh, BitVec.ofNat_toNat]

end

/-! ## The three answers of R63 -/

section
variable {s : State} {g : Ring} {tail : W32} (f r : Nat)

theorem State.bell_moves (ha : (g.tail - g.done).toNat < (tail - g.done).toNat) (hb : (tail - g.done).toNat ≤ 2 ^ g.log2) :
    s.bell f r g tail = s.setRing f r { g with tail := tail, bells := g.bells ++ [(tail, s.glb.ptcBoot)] } := by
  simp only [State.bell, if_neg (Nat.ne_of_gt ha), if_pos (And.intro ha.le hb)]

theorem State.bell_same (h : (tail - g.done).toNat = (g.tail - g.done).toNat) : s.bell f r g tail = s := by
  simp only [State.bell, if_pos h]

theorem State.bell_outside (hne : (tail - g.done).toNat ≠ (g.tail - g.done).toNat)
    (h : (tail - g.done).toNat < (g.tail - g.done).toNat ∨ 2 ^ g.log2 < (tail - g.done).toNat) :
    s.bell f r g tail = s.structFault f r (tail.toNat % 2 ^ g.log2) 0 0x0B := by
  simp only [State.bell, if_neg hne]
  exact if_neg (by omega)

/-- Whatever TAIL a write carries, the ring keeps BASE, size and DONE, and either its TAIL or at most its size outstanding. -/
theorem State.bell_keeps_bounds {f r : Nat} (h : s.ring? f r = some g) (hle : (g.tail - g.done).toNat ≤ 2 ^ g.log2) {g' : Ring}
    (hg' : (s.bell f r g tail).ring? f r = some g') :
    (g'.tail - g'.done).toNat ≤ 2 ^ g'.log2 ∧ g'.log2 = g.log2 ∧ g'.base = g.base := by
  have hkeep : (s.bell f r g tail).extent? f r = s.extent? f r →
      (g'.tail - g'.done).toNat ≤ 2 ^ g'.log2 ∧ g'.log2 = g.log2 ∧ g'.base = g.base := by
    intro he
    rw [State.extent?, State.extent?, hg', h, Option.map_some, Option.map_some, Option.some_inj] at he
    simp only [Ring.extent, Prod.mk.injEq] at he
    obtain ⟨hbase, hlog, htail, hdone⟩ := he
    rw [hbase, hlog, htail, hdone]
    exact ⟨hle, rfl, rfl⟩
  by_cases hne : (tail - g.done).toNat = (g.tail - g.done).toNat
  · exact hkeep (by rw [State.bell_same f r hne])
  by_cases hin : (g.tail - g.done).toNat < (tail - g.done).toNat ∧ (tail - g.done).toNat ≤ 2 ^ g.log2
  · rw [State.bell_moves f r hin.1 hin.2, State.ring?_setRing, Option.some_inj] at hg'
    subst hg'
    exact ⟨hin.2, rfl, rfl⟩
  · exact hkeep (by rw [State.bell_outside f r hne (by omega)]; exact s.structFault_extent? ..)

end

/-- A doorbell write leaves the rings as they are, or acts as `bell` on the ring it names. -/
theorem State.doorbell_cases (s : State) (f r size : Nat) (v : W64) : (s.doorbell f r size v).rings = s.rings ∨
    ∃ g tail, s.ring? f r = some g ∧ s.doorbell f r size v = s.bell f r g tail := by
  unfold State.doorbell
  split
  · split
    · exact .inl rfl
    · split
      · exact .inl rfl
      · next g h =>
        split
        · exact .inl rfl
        · exact .inr ⟨g, _, h, rfl⟩
  · exact .inl rfl

/-! ## The statements settled -/

/-- Settles O9, answer by answer. -/
theorem doorbellWrites : Obligations.DoorbellWrites := by
  unfold Obligations.DoorbellWrites
  refine ⟨fun s f r size v hb hf hr => ⟨fun h4 h8 => ?unsupported, fun hs h => ?missing⟩,
    fun s f r g v hb hf hr h => ⟨fun ho hd hm hh ha hle => ?moves, fun ho hd hm hh => ⟨fun he => ?same, fun hout hhalt => ?outside⟩,
      fun size hs hi => ?ignored⟩⟩
  case unsupported => rw [exec_doorbellWrite_eq, State.doorbell_unsupported hb hf hr h4 h8]
  case missing => rw [exec_doorbellWrite_eq, State.doorbell_missing hb hf hr hs h]; rfl
  case moves => rw [exec_doorbellWrite_eq, State.doorbell_taken hb hf hr h ho hd hm hh, State.bell_moves f r ha hle]
  case same => rw [exec_doorbellWrite_eq, State.doorbell_taken hb hf hr h ho hd hm hh, State.bell_same f r he]
  case outside =>
    refine ⟨_, by rw [exec_doorbellWrite_eq, State.doorbell_taken hb hf hr h ho hd hm hh,
      State.bell_outside f r (by omega) (by omega)], ?_⟩
    rw [State.page_of_fns (State.settle_fns _)]
    exact State.structFault_page r _ _ (by decide) hhalt
  case ignored => rw [exec_doorbellWrite_eq, State.doorbell_ignored hb hf hr h hs hi]; rfl

/-- Settles O10: a write either leaves the rings or is one of R63's three answers, none of which breaks the ring's bounds. -/
theorem doorbellKeepsRingBounds : Obligations.DoorbellKeepsRingBounds := by
  unfold Obligations.DoorbellKeepsRingBounds
  intro s t f r size v g h hle hexec g' hg'
  rw [exec_doorbellWrite_eq, Host.Outcome.next.injEq] at hexec
  rw [← hexec, State.settle_ring?] at hg'
  obtain hrings | ⟨g₀, tail, h₀, hbell⟩ := s.doorbell_cases f r size v
  · rw [State.ring?_of_rings hrings, h, Option.some_inj] at hg'
    subst hg'
    exact ⟨hle, rfl, rfl⟩
  · rw [h, Option.some_inj] at h₀
    subst h₀
    rw [hbell] at hg'
    exact State.bell_keeps_bounds h hle hg'

end Machine
end Sys2Proof
end

section
/-! PROOFS. From a ring's entries to a job (chapter 3; R329 to R331 of chapter 12): the fetch of an entry, the return of a read, dispatch
and parse, each as an equation for the case that the statement names. -/

namespace Sys2Proof.Machine

/-! ## Fetch (R64, R65) -/

theorem State.wantsFetch_of {s : State} {f r : Nat} {g : Ring} (hm : s.mayFetch f r = true) (hd : g.destroying = false)
    (hk : g.mirror = false) (hne : g.fetched ≠ g.tail) (hheld : s.ringHeld f r g < 64) : s.wantsFetch f r g = true := by
  simp [State.wantsFetch, hm, hd, hk, hne, hheld]

/-- A ring that wants an entry has it read at the ring's turn. -/
theorem exec_entryFetch_reads {s : State} {f r : Nat} {g : Ring} (h : s.ring? f r = some g) (hw : s.wantsFetch f r g = true)
    (hall : s.allHeld < 8192) (ht : s.fetchTurn f r = true) :
    exec (.entryFetch f r) s = .next
      (((s.setRing f r { g with fetched := g.fetched + 1, reading := g.reading ++ [g.fetched.toNat] }).send
        (.readReq f (g.base.toNat + 64 * (g.fetched.toNat % 2 ^ g.log2)) 64)).fetchedFrom f r).settle := by
  simp [exec, execEntryFetch, finish, h, hw, hall, ht]

/-! ## The return of a read (R65, R68, R86) -/

/-- An entry that is valid, first and last is a chain of its own. -/
theorem chainLen_single {e : List W64} (h : fld (ew e 0) 0 3 = 7) : chainLen [e] = some 1 := by
  have hlast : bitOf (ew e 0) 2 = true := by
    simp only [fld, bitOf, beq_iff_eq] at h ⊢
    omega
  simp [chainLen, hlast]

/-- Where a ring holds one entry that is a whole chain, its token joins the ready tokens. -/
theorem State.makeToken_single {s : State} {f r c : Nat} {g : Ring} {e : List W64} (h : s.ring? f r = some g)
    (hheld : g.held = [(c, e)]) (he : fld (ew e 0) 0 3 = 7) :
    ∃ tok : Token, (s.makeToken f r).hdl.ready = s.hdl.ready ++ [tok] ∧ tok.fn = f ∧ tok.ring = r ∧ tok.start = c ∧
      tok.entries = [e] ∧ tok.cls = min (fld (ew e 0) 8 2) g.ceil ∧ (s.makeToken f r).jobs = s.jobs ∧
      (s.makeToken f r).fns = s.fns := by
  simp only [State.makeToken, h, hheld, List.map_cons, List.map_nil, chainLen_single he]
  exact ⟨_, rfl, rfl, rfl, rfl, rfl, rfl, rfl, rfl⟩

theorem State.freeBytes_zero (s : State) : s.freeBytes 0 = ([], s) := rfl

section
variable {s : State} {f r : Nat} {g : Ring} (h : s.ring? f r = some g)
include h

/-- Eight words that come whole are the entry of the oldest read. -/
theorem exec_entryReadCompletion_ok {c : Nat} {e : List W64} (hr : g.reading = [c]) (hheld : g.held = []) (he : e.length = 8) :
    exec (.entryReadCompletion f r .ok e) s = .next
      (((s.setRing f r { g with reading := [] }).setRing f r { g with reading := [], held := [(c, e)] }).makeToken f r).settle := by
  simp [exec, execEntryReadCompletion, finish, h, hr, hheld, he, State.freeBytes_zero, State.readError, readErrBit]

/-- A read that fails is structural fault 0x0C of the ring's function. -/
theorem exec_entryReadCompletion_fails {o : ReadOutcome} (ho : o ≠ .ok) (hs : o ≠ .short) {c : Nat} {rest : List Nat}
    (hr : g.reading = c :: rest) (e : List W64) :
    exec (.entryReadCompletion f r o e) s = .next
      (((s.setRing f r { g with reading := rest }).readError o).structFault f r (c % 2 ^ g.log2) 0 0x0C).settle := by
  simp [exec, execEntryReadCompletion, finish, h, hr, ho, hs]

end

/-! ## Dispatch (R329 to R331) -/

/-- Frame `k`, its round at `x`, has taken a token of class `c` and queue `q`: it is in the parse buffer and no longer ready. -/
def State.tokenTaken (s : State) (k c q : Nat) (x : Frame) (tok : Token) : State :=
  { s.setFrame k { x with parse := x.parse ++ [tok], rrPtr := x.rrPtr.put 63 c q } with
    hdl := { s.hdl with ready := s.hdl.ready.erase tok } }

theorem State.tokenTaken_parse (s : State) (k c q : Nat) (x : Frame) (tok : Token) :
    ((s.tokenTaken k c q x tok).frame k).parse = x.parse ++ [tok] :=
  congrArg Frame.parse (State.frame_setFrame s k { x with parse := x.parse ++ [tok], rrPtr := x.rrPtr.put 63 c q })

/-- The frame takes the token that its round chose. -/
theorem exec_dispatch_takes {s : State} {k c q : Nat} {x : Frame} {tok : Token} (hl : s.live = true) (hk : k < 4)
    (he : s.eventWaits k = false) (hc : s.chooseClass k = some (c, x))
    (hq : nextAfter 64 (x.rrPtr.getD c 63) (fun q => (s.tokensOf k c).any (fun t => queueOf t.fn = q)) = some q)
    (ht : (s.tokensOf k c).find? (fun t => queueOf t.fn = q) = some tok) (hlen : x.parseLen + tok.entries.length ≤ 64) :
    ∃ ev, exec (.dispatch k) s = .next ((s.tokenTaken k c q x tok).trace ev).settle := by
  refine ⟨{ event := 1, src := some 0, cls := tok.cls, fn := tok.fn, loc := some (locCode s.dev k 15 15), jseq := tok.seq,
            ring := tok.ring, arg := q }, ?_⟩
  simp only [exec, execDispatch, finish, hl, hk, he, hc, hq, ht, if_neg (Nat.not_lt.2 hlen)]
  rfl

/-- An event token that waits comes first (R329). -/
theorem exec_dispatch_eventWaits {s : State} {k : Nat} (h : s.eventWaits k = true) : exec (.dispatch k) s = .next s.settle := by
  simp [exec, execDispatch, finish, h]

/-! ## Parse (R86) -/

/-- A well-formed chain becomes a job. -/
theorem exec_parse_job {s : State} {k : Nat} {tok : Token} {rest : List Token} (hl : s.live = true) (hk : k < 4)
    (hp : (s.frame k).parse = tok :: rest) (hc : chainFault tok.entries = none) :
    exec (.parse k) s = .next
      ({ (s.setFrame k { s.frame k with parse := rest }).setJob s.nextJob (s.jobOf tok) with nextJob := s.nextJob + 1 } : State).settle := by
  simp only [exec, execParse, finish, hl, hk, hp, hc]
  rfl

/-! ## The statement settled -/

theorem State.frame_of_frames {s t : State} (h : t.frames = s.frames) (k : Nat) : t.frame k = s.frame k := by
  simp [State.frame, h]

/-- Settles O11, stage by stage. -/
theorem entriesBecomeJobs : Obligations.EntriesBecomeJobs := by
  unfold Obligations.EntriesBecomeJobs
  intro s f r g h
  refine ⟨fun hm hd hk hne hheld hall ht => ⟨_, exec_entryFetch_reads h (State.wantsFetch_of hm hd hk hne hheld) hall ht, ?fetched⟩,
    fun c e hr hheld he hw => ?token, fun o e ho hs hr hhalt => ?fault, fun k c x q tok hl hk he hc hq ht hlen => ?dispatched,
    fun k he => exec_dispatch_eventWaits he, fun k tok rest hl hk hp hc => ⟨_, exec_parse_job hl hk hp hc, ?parsed⟩⟩
  case fetched => exact ⟨by simp [State.fetchedFrom], by simp [State.fetchedFrom, State.send], by simp [State.fetchedFrom]⟩
  case token =>
    obtain ⟨tok, hready, hfn, hring, hstart, hentries, hcls, hjobs, hfns⟩ :=
      State.makeToken_single (State.ring?_setRing (s.setRing f r { g with reading := [] }) f r
        { g with reading := [], held := [(c, e)] }) rfl hw
    exact ⟨_, tok, exec_entryReadCompletion_ok h hr hheld he, by simp [hready], hfn, hring, hstart, hentries, hcls,
      by simp [hjobs], by simp [hfns]⟩
  case fault =>
    obtain ⟨c, rest, hr⟩ := List.exists_cons_of_ne_nil hr
    refine ⟨_, exec_entryReadCompletion_fails h ho hs hr e, ?_⟩
    have hpage : ((s.setRing f r { g with reading := rest }).readError o).page f = s.page f := State.page_of_fns (by simp) f
    rw [State.page_of_fns (State.settle_fns _), ← hpage]
    exact State.structFault_page r _ _ (by decide) (by simpa using hhalt)
  case dispatched =>
    obtain ⟨ev, hexec⟩ := exec_dispatch_takes hl hk he hc hq ht hlen
    have hframe : ((s.tokenTaken k c q x tok).trace ev).settle.frame k = (s.tokenTaken k c q x tok).frame k :=
      State.frame_of_frames (by simp) k
    exact ⟨_, hexec, by rw [hframe, State.tokenTaken_parse], by simp [State.tokenTaken], by simp [State.tokenTaken]⟩
  case parsed =>
    refine ⟨(State.settle_job? _ _).trans (State.job?_setJob _ s.nextJob (s.jobOf tok)), by simp, rfl, ?_, by simp⟩
    rw [State.frame_of_frames (State.settle_frames _)]
    exact congrArg Frame.parse (State.frame_setFrame s k { s.frame k with parse := rest })

end Sys2Proof.Machine
end

section
/-! PROOFS. Interrupts of a ring and of a vector (R82, R83, R102): how a signal meets a mask, the timer of a ring, the clearing of a
vector's mask, and IRQ_SET. -/

namespace Sys2Proof.Machine

/-! ## Masks (R83) -/

theorem bitOf_zero_setBit_false (w : W32) : bitOf (setBit w 0 false).toNat 0 = false := by
  have h : (setBit w 0 false).toNat.testBit 0 = false := by simp [setBit]
  simpa [bitOf, Nat.testBit_zero] using h

theorem State.masked_of_host {s t : State} (h : t.host = s.host) (f v : Nat) : t.masked f v = s.masked f v := by
  simp [State.masked, h]

theorem State.signal_unmasked {s : State} {f v : Nat} (h : s.masked f v = false) : s.signal f v = s.send (.msix f v) := by
  simp [State.signal, h]

/-- A signal to a masked vector waits in the PBA. -/
theorem State.signal_masked {s : State} {f v : Nat} (h : s.masked f v = true) :
    (s.signal f v).host = { s.host with pba := s.host.pba.put false (vecNo f v) true } := by
  simp [State.signal, h]

/-! ## The ring's timer (R82) -/

/-- A ring whose message is due, its pending count back at 0 and its timer ended. -/
def State.irqDone (s : State) (f r : Nat) (g : Ring) : State :=
  (s.setRing f r { g with pendIrq := 0, timer := false }).dlRemove 3 (.coalesceTimeout f r)

@[simp] theorem State.irqDone_host (s : State) (f r : Nat) (g : Ring) : (s.irqDone f r g).host = s.host := by
  simp [State.irqDone]

theorem State.irqDone_ring? (s : State) (f r : Nat) (g : Ring) :
    (s.irqDone f r g).ring? f r = some { g with pendIrq := 0, timer := false } :=
  (State.ring?_of_rings (by simp [State.irqDone]) f r).trans (s.ring?_setRing f r _)

theorem exec_coalesceTimeout_fires {s : State} {f r : Nat} {g : Ring} (h : s.ring? f r = some g) (hp : 0 < g.pendIrq)
    (ht : g.timer = true)
    (he : (s.dl 3).any (fun e => e.cmd = .coalesceTimeout f r && decide (s.now < e.at_)) = false) :
    exec (.coalesceTimeout f r) s = .next ((s.irqDone f r g).signal f g.vec).settle := by
  simp only [exec, execCoalesceTimeout, finish, h, ht, he, hp, State.sendRingIrq]
  rfl

/-! ## Clearing a mask -/

/-- A vector with its mask clear. -/
def MsixVec.unmask (x : MsixVec) : MsixVec := { x with ctrl := setBit x.ctrl 0 false }

/-- The vector's mask is clear. -/
def State.unmask (s : State) (f v : Nat) : State :=
  { s with host := { s.host with msix := s.host.msix.put {} (vecNo f v) (s.host.msix.getD (vecNo f v) {}).unmask } }

/-- The vector's PBA bit is clear. -/
def State.clearPba (s : State) (f v : Nat) : State :=
  { s with host := { s.host with pba := s.host.pba.put false (vecNo f v) false } }

theorem State.unmask_masked (s : State) (f v : Nat) : (s.unmask f v).masked f v = false := by
  simp [State.masked, State.unmask, MsixVec.unmask, bitOf_zero_setBit_false]

theorem State.clearPba_pba (s : State) (f v : Nat) : (s.clearPba f v).host.pba.getD (vecNo f v) false = false := by
  simp [State.clearPba]

section
variable {s : State} {f v : Nat} (hb : s.barsOpen = true) (hf : s.fnThere f = true) (hv : v < vecLimit f)
include hb hf hv

theorem State.vectorUnmask_idle (hp : s.host.pba.getD (vecNo f v) false = false) : s.vectorUnmask f v = s.unmask f v := by
  simp only [State.vectorUnmask, hb, hf, hv, hp]
  rfl

theorem State.vectorUnmask_waiting (hp : s.host.pba.getD (vecNo f v) false = true) :
    s.vectorUnmask f v = ((s.unmask f v).clearPba f v).send (.msix f v) := by
  simp only [State.vectorUnmask, hb, hf, hv, hp]
  rfl

/-- The mask is clear, and a message that waited in the PBA has gone out. -/
theorem State.vectorUnmask_sends : (s.vectorUnmask f v).masked f v = false ∧
    (s.vectorUnmask f v).host.pba.getD (vecNo f v) false = false ∧
    (s.vectorUnmask f v).host.out = s.host.out ++ (if s.host.pba.getD (vecNo f v) false then [.msix f v] else []) ∧
    (s.vectorUnmask f v).rings = s.rings := by
  cases hp : s.host.pba.getD (vecNo f v) false
  · rw [State.vectorUnmask_idle hb hf hv hp]
    exact ⟨s.unmask_masked f v, hp, (List.append_nil _).symm, rfl⟩
  · rw [State.vectorUnmask_waiting hb hf hv hp]
    exact ⟨s.unmask_masked f v, (s.unmask f v).clearPba_pba f v, rfl, rfl⟩

end

/-! ## IRQ_SET (R102) -/

/-- With no completion pending, an IRQ_SET that passes its checks replaces VEC, CNT and TMO and ends OK. -/
theorem exec_irqSet_sets {s : State} {j : Nat} {x : Job} {g : Ring} (hx : s.cmdJob j 0xF004 = some x)
    (hr : fld x.param 0 8 < ringLimit x.fn) (hv : (irqFields (leAt x.block 0 8)).vec < vecLimit x.fn)
    (h0 : fld x.param 0 8 ≠ 0) (hc : 0 < (irqFields (leAt x.block 0 8)).cnt) (hc' : (irqFields (leAt x.block 0 8)).cnt ≤ 256)
    (h : s.ring? x.fn (fld x.param 0 8) = some g) (hd : g.destroying = false) (hp : g.pendIrq = 0) :
    exec (.irqSet j) s = .next ((s.setRing x.fn (fld x.param 0 8) { g with
      vec := (irqFields (leAt x.block 0 8)).vec, cnt := (irqFields (leAt x.block 0 8)).cnt
      tmo := (irqFields (leAt x.block 0 8)).tmo }).done j []).settle := by
  have hcnt : ¬ (irqFields (leAt x.block 0 8)).cnt ≤ g.pendIrq := by omega
  simp [exec, execIrqSet, finish, hx, Nat.not_le.2 hr, Nat.not_le.2 hv, h0, hc.ne', Nat.not_lt.2 hc', h, hd, hcnt]

/-! ## The statement settled -/

/-- Settles O13, command by command. -/
theorem interruptCommands : Obligations.InterruptCommands := by
  unfold Obligations.InterruptCommands
  intro s
  refine ⟨fun f r g h hp ht he => ⟨_, exec_coalesceTimeout_fires h hp ht he, ?ring, fun hm => ?sent, fun hm => ?waits⟩,
    fun f v hb hf hv => ⟨_, rfl, ?unmask⟩,
    fun j x g hx hr hv h0 hc hc' h hd hp => ⟨_, exec_irqSet_sets hx hr hv h0 hc hc' h hd hp, ?ends, ?replaced⟩⟩
  case ring => exact (State.ring?_of_rings (by simp) f r).trans (s.irqDone_ring? f r g)
  case sent =>
    rw [State.settle_host, State.signal_unmasked ((State.masked_of_host (s.irqDone_host f r g) f g.vec).trans hm)]
    exact ⟨by simp [State.send], by simp [State.send]⟩
  case waits =>
    rw [State.settle_host, State.signal_masked ((State.masked_of_host (s.irqDone_host f r g) f g.vec).trans hm)]
    exact ⟨by simp, by simp⟩
  case unmask =>
    obtain ⟨hmask, hpba, hout, hrings⟩ := State.vectorUnmask_sends hb hf hv
    exact ⟨(State.masked_of_host (State.settle_host _) f v).trans hmask, by simpa using hpba, by simpa using hout,
      by simpa using hrings⟩
  case ends => exact State.done_nil_ends (s := s.setRing _ _ _) (State.cmdJob_job? hx)
  case replaced => exact (State.ring?_of_rings (by simp) _ _).trans (State.ring?_setRing s _ _ _)

end Sys2Proof.Machine
end

section
/-! PROOFS. The shuttles of chapter 12 (R345 to R351): when a shuttle has no decision to take, and what each of its commands then sets;
firmware timers (R335, R336). -/

namespace Sys2Proof.Machine

/-! ## A shuttle with no decision to take (R348) -/

theorem State.shuttle_of_sht {s t : State} (h : t.sht = s.sht) (i : Nat) : t.shuttle i = s.shuttle i := by
  simp [State.shuttle, h]

/-- A decision is for a request that was raised before its cycle, and for a free lane. -/
theorem State.shtNext_some {s : State} {i c : Nat} (h : s.shtNext i = some c) :
    s.shtFree i ≠ [] ∧ ∃ r ∈ (s.shuttle i).waiting, r.since < c := by
  revert c
  unfold State.shtNext
  refine List.foldlRecOn (motive := fun m => ∀ {c}, m = some c → s.shtFree i ≠ [] ∧ ∃ r ∈ (s.shuttle i).waiting, r.since < c) _ _
    (by simp) (fun m ih a ha c hc => ?_)
  have hcand : s.shtFree i ≠ [] ∧ ∃ r ∈ (s.shuttle i).waiting, r.since < a := by
    obtain ⟨cs, hcs, ha⟩ := List.mem_flatten.1 ha
    obtain ⟨l, hl, rfl⟩ := List.mem_map.1 hcs
    obtain ⟨r, hr, rfl⟩ := List.mem_map.1 ha
    have hr := (List.mem_filter.1 hr).1
    exact ⟨List.ne_nil_of_mem hl, r, hr, by omega⟩
  cases m with
  | none => exact Option.some_inj.1 hc ▸ hcand
  | some b =>
    obtain h | h := min_choice b a
    · exact ih (by rw [← h]; exact hc)
    · obtain rfl : a = c := by rw [← h]; exact Option.some_inj.1 hc
      exact hcand

/-- With every lane held, or no request older than this cycle, nothing is decided. -/
theorem State.shtAdvance_still {s : State} {i now : Nat}
    (h : s.shtFree i = [] ∨ ∀ r ∈ (s.shuttle i).waiting, now ≤ r.since) : s.shtAdvance i now = s := by
  unfold State.shtAdvance State.shtUpTo
  split
  · rfl
  · next c hc =>
    obtain ⟨hfree, r, hr, hlt⟩ := State.shtNext_some hc
    obtain h | h := h
    · exact absurd h hfree
    · exact if_neg (by have := h r hr; omega)

theorem State.shtAdvance_nobody {s : State} {i : Nat} (h : (s.shuttle i).waiting = []) (now : Nat) : s.shtAdvance i now = s :=
  State.shtAdvance_still (.inr (by simp [h]))

/-! ## The operations of a shuttle -/

@[simp] theorem State.trace_shuttle (s : State) (e : Ev) (i : Nat) : (s.trace e).shuttle i = s.shuttle i :=
  State.shuttle_of_sht (by simp) i

@[simp] theorem State.signal_shuttle (s : State) (f v i : Nat) : (s.signal f v).shuttle i = s.shuttle i :=
  State.shuttle_of_sht (by simp) i

/-- An event sets its bit of SHT_EVT. -/
@[simp] theorem State.shtEvent_shuttle (s : State) (i r event bit : Nat) :
    (s.shtEvent i r event bit).shuttle i = { s.shuttle i with evt := setBit (s.shuttle i).evt bit true } := by
  unfold State.shtEvent
  dsimp only
  split <;> simp

theorem State.shtEnd_frees {s : State} {g : ShtGrant} (h : g.susp = none) (i l now : Nat) :
    (s.shtEnd i l now g).shuttle i =
      { s.shuttle i with grants := (s.shuttle i).grants.erase l, freed := (s.shuttle i).freed.put 0 l now } := by
  simp [State.shtEnd, h]

theorem State.shtEnd_resumes {s : State} {g : ShtGrant} {r : ShtReq} {held : Nat} (h : g.susp = some (r, held)) (i l now : Nat) :
    (s.shtEnd i l now g).shuttle i = { s.shuttle i with
      grants := (s.shuttle i).grants.insert l
        { slot := r.slot, ctx := r.ctx, lst := r.lst, raised := r.raised, since := now + 1 - held, cls := r.cls } } := by
  simp [State.shtEnd, h]

/-- Counting touches SHT_CNT only. -/
theorem Shuttle.count_eq (x : Shuttle) (r a b c : Nat) : ∃ v, x.count r a b c = { x with cnt := v } := ⟨_, rfl⟩

@[simp] theorem Shuttle.count_waiting (x : Shuttle) (r a b c : Nat) : (x.count r a b c).waiting = x.waiting := by
  obtain ⟨v, hv⟩ := x.count_eq r a b c; rw [hv]
@[simp] theorem Shuttle.count_grants (x : Shuttle) (r a b c : Nat) : (x.count r a b c).grants = x.grants := by
  obtain ⟨v, hv⟩ := x.count_eq r a b c; rw [hv]
@[simp] theorem Shuttle.count_evt (x : Shuttle) (r a b c : Nat) : (x.count r a b c).evt = x.evt := by
  obtain ⟨v, hv⟩ := x.count_eq r a b c; rw [hv]

/-- The request that the holder of a cut grant keeps (R346, R350). -/
def ShtGrant.cut (g : ShtGrant) (i l now : Nat) : ShtReq :=
  { slot := g.slot, ctx := g.ctx, lst := g.lst, raised := g.raised, since := now, cls := g.cls
    lane := if shtLanes i ≠ 1 && g.slot < 4 then some l else none }

/-- The cut is counted and its event raised, and the holder waits again. -/
def State.holderCut (s : State) (i l now : Nat) (g : ShtGrant) : State :=
  let t := (s.setShuttle i ((s.shuttle i).count g.slot 0 1 0)).shtEvent i g.slot 0x10 g.slot
  t.setShuttle i { t.shuttle i with waiting := (t.shuttle i).waiting ++ [g.cut i l now] }

theorem State.holderCut_shuttle (s : State) (i l now : Nat) (g : ShtGrant) :
    ((s.holderCut i l now g).shuttle i).waiting = (s.shuttle i).waiting ++ [g.cut i l now] ∧
      ((s.holderCut i l now g).shuttle i).evt = setBit (s.shuttle i).evt g.slot true := by
  simp [State.holderCut]

/-- The grant that the emergency requester takes from a holder, which it suspends with the cycles it has held (R345). -/
def ShtReq.preempts (q : ShtReq) (g : ShtGrant) (now : Nat) : ShtGrant :=
  { slot := q.slot, ctx := q.ctx, lst := q.lst, raised := q.raised, since := now + 1, emerg := true
    susp := some ({ slot := g.slot, ctx := g.ctx, lst := g.lst, raised := g.raised, since := now, cls := g.cls },
      now + 1 - g.since) }

/-! ## SHUTTLE_REQUEST (R74, R346, R347) -/

/-- The job that a request is made for: at a pool of lanes the context of a frame's slot. -/
def State.askingJob (s : State) (i r ctx : Nat) (job : Option Nat) : Option Job :=
  (if shtLanes i ≠ 1 && r < 4 then some ctx else job).bind s.job?

/-- The request raised: of its job's class, due by its job's deadline. -/
def State.shtRequest (s : State) (i r ctx now : Nat) (lst bound job : Option Nat) : ShtReq :=
  { slot := r, ctx := ctx, raised := now, since := now
    lst := earlierLst lst (((s.askingJob i r ctx job).bind (·.deadline)).map (· * shtMhz i))
    cls := (s.askingJob i r ctx job).map (·.cls)
    lane := bound.bind (fun l => if l < shtLanes i then some l else none) }

section
variable {s : State} (hl : s.live = true) {i now : Nat}
include hl

/-- With nobody waiting, the request of a context that no grant has suspended waits alone. -/
theorem exec_shuttleRequest_waits {r ctx : Nat} (lst bound job : Option Nat) (hm : s.shtMay i r = true)
    (hw : (s.shuttle i).waiting = []) (hs : ∀ e ∈ (s.shuttle i).grants, e.2.suspends r ctx = false) :
    exec (.shuttleRequest i r ctx now lst bound job) s = .next
      (s.setShuttle i { s.shuttle i with waiting := [s.shtRequest i r ctx now lst bound job] }).settle := by
  have hnone : (s.shuttle i).grants.any (fun e => e.2.suspends r ctx) = false := by simpa using hs
  simp only [exec, execShuttleRequest, finish, hl, hm, State.shtAdvance_nobody hw, State.shtAsk, hw, hnone]
  rfl

/-! ## SHUTTLE_RELEASE, HOLD_CUT (R349, R350) -/

section
variable (hi : i < 8) (hw : (s.shuttle i).waiting = []) {l : Nat} {g : ShtGrant} (hg : (s.shuttle i).grants.get? l = some g)
include hi hw hg

/-- A release ends the grant, and one before the grant began counts as stale. -/
theorem exec_shuttleRelease_ends : exec (.shuttleRelease i l now) s = .next
    (if now < g.since then
      (s.setShuttle i { s.shuttle i with cntStale := satInc (s.shuttle i).cntStale }).shtEnd i l g.since g
    else s.shtEnd i l now g).settle := by
  simp [exec, execShuttleRelease, finish, hl, Nat.not_le.2 hi, State.shtAdvance_nobody hw, hg]

/-- A cut before HOLD cycles are over has no effect. -/
theorem exec_holdCut_early (h : now + 1 < g.since + s.shtHold i g.slot) : exec (.holdCut i l now) s = .next s.settle := by
  simp [exec, execHoldCut, finish, hl, Nat.not_le.2 hi, State.shtAdvance_nobody hw, hg, h]

/-- Once HOLD cycles are over the cut is counted, its event raised, and the lane's grant ends. -/
theorem exec_holdCut_cuts (hh : s.shtHold i g.slot ≠ 0) (h : g.since + s.shtHold i g.slot ≤ now + 1) :
    exec (.holdCut i l now) s = .next ((s.holderCut i l now g).shtEnd i l now g).settle := by
  simp [exec, execHoldCut, finish, hl, Nat.not_le.2 hi, State.shtAdvance_nobody hw, hg, hh, Nat.not_lt.2 h, State.holderCut,
    ShtGrant.cut]

end

/-! ## STARVATION (R351) -/

section
variable (hi : i < 8) {q : ShtReq} (hw : (s.shuttle i).waiting = [q]) (hn : s.shtFree i = [] ∨ now ≤ q.since)
include hi hw hn

theorem exec_starvation_early (h : now < q.since + max 1 (s.shuttle i).starve.toNat) :
    exec (.starvation i q.slot q.ctx now) s = .next s.settle := by
  have hstill : s.shtAdvance i now = s := State.shtAdvance_still (hn.imp_right (by simp [hw]))
  simp [exec, execStarvation, finish, hl, Nat.not_le.2 hi, hstill, hw, Nat.not_le.2 h]

theorem exec_starvation_flags (hf : q.starved = false) (h : q.since + max 1 (s.shuttle i).starve.toNat ≤ now) :
    exec (.starvation i q.slot q.ctx now) s = .next
      ((s.setShuttle i { (s.shuttle i).count q.slot 0 0 1 with waiting := [{ q with starved := true }] }).shtEvent
        i q.slot 0x11 (16 + q.slot)).settle := by
  have hstill : s.shtAdvance i now = s := State.shtAdvance_still (hn.imp_right (by simp [hw]))
  simp [exec, execStarvation, finish, hl, Nat.not_le.2 hi, hstill, hw, hf, h, Shuttle.count]

end

/-! ## EMERGENCY_PREEMPT (R345, R346) -/

/-- The emergency requester takes the grant found: its holder is suspended with the cycles it has held. -/
theorem exec_emergencyPreempt_takes (hi : i < 8) {q : ShtReq} (hw : (s.shuttle i).waiting = [q]) (hq : q.slot = shtEmerg i)
    (hfree : s.shtFree i = []) {lane : Option Nat} {l : Nat} {g : ShtGrant}
    (hg : (s.shuttle i).grants.find? (fun e => !e.2.emerg && lane.all (fun l => l = e.1)) = some (l, g)) :
    ∃ ev, exec (.emergencyPreempt i now lane) s = .next ((s.trace ev).setShuttle i { (s.shuttle i).count q.slot 1 0 0 with
      cntPreempt := satInc (s.shuttle i).cntPreempt, waiting := []
      grants := (s.shuttle i).grants.insert l (q.preempts g now) }).settle := by
  have hstill : s.shtAdvance i now = s := State.shtAdvance_still (.inl hfree)
  refine ⟨{ event := 0x12, src := none, arg := i + g.slot * 16 }, ?_⟩
  cases lane <;> simp only [Option.all, Bool.and_true] at hg <;>
    simp [exec, execEmergencyPreempt, finish, hl, Nat.not_le.2 hi, hstill, hw, hq, hfree, hg, Shuttle.count, ShtReq.preempts]

end

/-! ## Firmware timers (R335, R336) -/

/-- List 6 and the tokens of the firmware timers. -/
def State.timerParts (s : State) : List DlEntry × List Nat := (s.dl 6, s.hdl.fwTimers)

theorem State.timerParts_of_hdl {s t : State} (h : t.hdl = s.hdl) : t.timerParts = s.timerParts := by
  simp [State.timerParts, State.dl, h]

theorem State.setDl_timerParts (s : State) {l : Nat} (h : l ≠ 6) (es : List DlEntry) :
    (s.setDl l es).timerParts = s.timerParts := by
  simp only [State.timerParts, s.dl_setDl_ne es h.symm]
  rfl

@[simp] theorem State.signal_timerParts (s : State) (f v : Nat) : (s.signal f v).timerParts = s.timerParts :=
  State.timerParts_of_hdl (by simp)

@[simp] theorem State.sendRingIrq_timerParts (s : State) (f r : Nat) : (s.sendRingIrq f r).timerParts = s.timerParts := by
  unfold State.sendRingIrq
  split
  · rfl
  · next g h =>
    rw [State.signal_timerParts]
    exact State.setDl_timerParts _ (by decide) _

@[simp] theorem State.traceBuf_timerParts (s : State) (e : Ev) : (s.traceBuf e).timerParts = s.timerParts :=
  State.timerParts_of_hdl (by simp)

/-- What is freed for another entry is of list 3, 5 or 4. -/
@[simp] theorem State.dlFree_timerParts (s : State) : s.dlFree.timerParts = s.timerParts := by
  have hset (l : Nat) (h : l ≠ 6) (es : List DlEntry) := s.setDl_timerParts h es
  unfold State.dlFree
  split
  · dsimp only
    split
    · rw [State.sendRingIrq_timerParts, State.traceBuf_timerParts]; exact hset 3 (by decide) _
    · rw [State.traceBuf_timerParts]; exact hset 3 (by decide) _
  · split
    · rw [State.traceBuf_timerParts]; exact hset 5 (by decide) _
    · split
      · rw [State.traceBuf_timerParts]; exact hset 4 (by decide) _
      · rfl

theorem State.dlPut_timerParts (s : State) {l : Nat} (h : l ≠ 6) (a : Nat) (c : Instr) :
    (s.dlPut l a c).timerParts = s.timerParts := by
  unfold State.dlPut
  extract_lets fits t
  have ht : t.timerParts = s.timerParts := by unfold t; split <;> simp
  clear_value t
  split
  · rw [State.setDl_timerParts t h, ht]
  · split <;> exact ht

@[simp] theorem State.countIrq_timerParts (s : State) (f r : Nat) : (s.countIrq f r).timerParts = s.timerParts := by
  unfold State.countIrq
  split
  · rfl
  · dsimp only
    split
    · rw [State.sendRingIrq_timerParts]; rfl
    · split
      · rw [State.dlPut_timerParts _ (by decide)]; rfl
      · rfl

@[simp] theorem State.mirrorEntry_timerParts (s : State) (a b : List W64) : (s.mirrorEntry a b).timerParts = s.timerParts := by
  unfold State.mirrorEntry
  split
  · rfl
  · rw [State.countIrq_timerParts]; rfl

@[simp] theorem State.mirrorFlush_timerParts (s : State) (n : Nat) : (s.mirrorFlush n).timerParts = s.timerParts := by
  induction n generalizing s with
  | zero => rfl
  | succ n ih =>
    unfold State.mirrorFlush
    split
    · rw [ih, State.mirrorEntry_timerParts]; rfl
    · rfl

/-- While the reserve of list 6 has room, a firmware timer joins the list. -/
theorem State.fwTimer_joins {s : State} (h : (s.dl 6).length < dlReserve 6) (k a : Nat) :
    (s.fwTimer k a).timerParts = (s.dl 6 ++ [{ at_ := a, cmd := .firmwareTimerExpiry k }], s.hdl.fwTimers) := by
  have hput : s.dlPut 6 a (.firmwareTimerExpiry k) = s.setDl 6 (s.dl 6 ++ [{ at_ := a, cmd := .firmwareTimerExpiry k }]) := by
    simp [State.dlPut, h]
  rw [State.fwTimer, if_pos h, State.dlInsert, hput, State.mirrorAll, State.mirrorFlush_timerParts, State.timerParts]
  simp [State.dl, State.setDl]

/-- The timer has left list 6 and its token waits for firmware. -/
def State.timerFired (s : State) (n : Nat) : State :=
  { s.dlRemove 6 (.firmwareTimerExpiry n) with
    hdl := { (s.dlRemove 6 (.firmwareTimerExpiry n)).hdl with fwTimers := s.hdl.fwTimers ++ [n] } }

theorem State.timerFired_timerParts (s : State) (n : Nat) : (s.timerFired n).timerParts =
    ((s.dl 6).filter (fun e => e.cmd ≠ .firmwareTimerExpiry n), s.hdl.fwTimers ++ [n]) := by
  simp [State.timerFired, State.timerParts, State.dl, State.dlRemove, State.setDl]

theorem exec_firmwareTimerExpiry_eq {s : State} (hl : s.live = true) (n : Nat) (arms : List (Nat × Nat)) :
    exec (.firmwareTimerExpiry n arms) s =
      .next (arms.foldl (fun s a => s.fwTimer a.1 (s.now + a.2)) (s.timerFired n)).settle := by
  simp only [exec, execFirmwareTimerExpiry, finish, hl]
  rfl

/-! ## The statement settled -/

theorem State.timerParts_eq {s : State} {es : List DlEntry} {ns : List Nat} (h : s.timerParts = (es, ns)) :
    s.settle.dl 6 = es ∧ s.settle.hdl.fwTimers = ns := by
  have hsettle : s.settle.timerParts = (es, ns) := (State.timerParts_of_hdl (by simp)).trans h
  simpa [State.timerParts] using hsettle

/-- Settles O50, command by command. -/
theorem shuttleCommands : Obligations.ShuttleCommands := by
  unfold Obligations.ShuttleCommands
  intro s hl
  refine ⟨fun i r ctx now lst bound job hm hw hs => ⟨_, s.shtRequest i r ctx now lst bound job,
      exec_shuttleRequest_waits hl lst bound job hm hw hs, ?asked⟩,
    fun i l now g hi hw hg => ⟨fun hs => ⟨_, exec_shuttleRelease_ends hl hi hw hg, ?released⟩,
      fun h held hs hn => ⟨_, exec_shuttleRelease_ends hl hi hw hg, ?resumed⟩,
      fun hs hh hc => ⟨_, g.cut i l now, exec_holdCut_cuts hl hi hw hg hh hc, ?cut⟩, exec_holdCut_early hl hi hw hg⟩,
    fun i q now hi hq hw hn hf => ⟨fun h => ⟨_, exec_starvation_flags hl hi hw hn hf h, ?flagged⟩,
      exec_starvation_early hl hi hw hn⟩,
    fun i q g now lane hi hw hq hfree hg => ?preempted,
    fun n => ⟨⟨_, exec_firmwareTimerExpiry_eq hl n [], ?expired⟩,
      fun k d hroom => ⟨_, exec_firmwareTimerExpiry_eq hl n [(k, d)], ?armed⟩⟩⟩
  case asked => exact ⟨by simp, rfl, rfl, rfl, rfl, rfl, rfl, by simp⟩
  case released =>
    rw [State.settle_shuttle]
    split
    · rw [State.shtEnd_frees hs]; simp
    · rw [State.shtEnd_frees hs]; simp
  case resumed =>
    rw [if_neg (Nat.not_lt.2 hn), State.settle_shuttle, State.shtEnd_resumes hs]
    simp
  case cut =>
    obtain ⟨hwaiting, hevt⟩ := s.holderCut_shuttle i l now g
    rw [State.settle_shuttle, State.shtEnd_frees hs]
    exact ⟨by simp, by simp [hwaiting, hw], rfl, rfl, by simpa [hevt, getLsbD_setBit_true] using BitVec.lt_of_getLsbD⟩
  case flagged =>
    rw [State.settle_shuttle, State.shtEvent_shuttle]
    have hbit : 16 + q.slot < 32 := by omega
    exact ⟨by simp, by simp [getLsbD_setBit_true, hbit]⟩
  case preempted =>
    obtain ⟨l, g⟩ := g
    obtain ⟨ev, hexec⟩ := exec_emergencyPreempt_takes hl hi hw hq hfree hg
    exact ⟨_, q.preempts g now, hexec, by simp, by simp, rfl, hq, rfl, ⟨_, rfl, rfl, rfl, rfl, rfl⟩, by simp⟩
  case expired =>
    obtain ⟨hlist, htokens⟩ := State.timerParts_eq (s.timerFired_timerParts n)
    refine ⟨htokens, fun e he => ?_⟩
    rw [List.foldl_nil, hlist] at he
    have hcmd := List.of_mem_filter he
    exact of_decide_eq_true hcmd
  case armed =>
    obtain ⟨hlist, htokens⟩ := Prod.mk.inj (s.timerFired_timerParts n)
    have hlen : ((s.timerFired n).dl 6).length < dlReserve 6 := by
      rw [hlist]; exact (List.length_filter_le _ _).trans_lt hroom
    obtain ⟨hjoined, htokens'⟩ := State.timerParts_eq (State.fwTimer_joins hlen k ((s.timerFired n).now + d))
    exact ⟨htokens'.trans htokens, _, by rw [List.foldl_cons, List.foldl_nil, hjoined]; exact List.mem_append_right _ (.head _), rfl,
      rfl⟩

end Sys2Proof.Machine
end

section
/-! PROOFS. CAP_QUERY, TRACE_CTRL and the mirror ring's timeout (R103, R114, R343): the capability block, what TRACE_CTRL sets, and the
entry of a single record. -/

namespace Sys2Proof

@[simp] theorem leBytes_length (n w : Nat) : (leBytes n w).length = n := by
  induction n generalizing w with
  | zero => rfl
  | succ n ih => simp [leBytes, ih]

@[simp] theorem zeros_length (n : Nat) : (zeros n).length = n := List.length_replicate

namespace Machine

/-! ## CAP_QUERY (R103, Table 4.6) -/

/-- The capability block is 64 bytes and begins with GLB_ID and GLB_STEP. -/
theorem State.capBlock_bytes (s : State) (f : Nat) : (s.capBlock f).1.length = 64 ∧
    (s.capBlock f).1.take 8 = leBytes 4 glbId ++ leBytes 4 glbStep := by
  unfold State.capBlock
  exact ⟨by simp, by simp [List.append_assoc, List.take_append, List.take_of_length_le]⟩

theorem exec_capQuery (j : Nat) (s : State) : exec (.capQuery j) s = execCapQuery j s := rfl

theorem exec_capQuery_eq {s : State} {j : Nat} {x : Job} (h : s.cmdJob j 0xF001 = some x) :
    exec (.capQuery j) s = .next (({ s with free := s.free + 1 } : State).done j (s.capBlock x.fn).1).settle := by
  simp only [exec_capQuery, execCapQuery, finish, h]
  rfl

/-! ## TRACE_CTRL (R114) -/

/-- The trace settings that a block's word gives where it asks for neither the port nor a mirror ring. -/
def Trace.set (c : Trace) (w : Nat) : Trace :=
  { c with enable := bitOf w 0, port := false, blocked := false, mirror := false, mirQ := [], mask := BitVec.ofNat 32 (fld w 32 32) }

theorem exec_traceCtrl (j : Nat) (s : State) : exec (.traceCtrl j) s = execTraceCtrl j s := rfl

theorem exec_traceCtrl_sets {s : State} {j : Nat} {x : Job} (h : s.cmdJob j 0xF501 = some x)
    (hm : fld (leAt x.block 0 8) 32 32 < 32) (hp : bitOf (leAt x.block 0 8) 1 = false) (hr : bitOf (leAt x.block 0 8) 2 = false) :
    exec (.traceCtrl j) s = .next (({ s with trc := s.trc.set (leAt x.block 0 8) } : State).done j []).settle := by
  simp [exec_traceCtrl, execTraceCtrl, finish, h, Nat.not_le.2 hm, hp, hr, Trace.set]

/-- A source mask of Table 4.8 has five bits. -/
theorem exec_traceCtrl_refused {s : State} {j : Nat} {x : Job} (h : s.cmdJob j 0xF501 = some x)
    (hm : 32 ≤ fld (leAt x.block 0 8) 32 32) : exec (.traceCtrl j) s = .next (s.doneErr j inputErr 4).settle := by
  simp [exec_traceCtrl, execTraceCtrl, finish, h, hm]

/-! ## The mirror ring (R343) -/

theorem State.sendRingIrq_of_ring {s : State} {f r : Nat} {g : Ring} (h : s.ring? f r = some g) :
    s.sendRingIrq f r = (s.irqDone f r g).signal f g.vec := by
  simp only [State.sendRingIrq, h, State.irqDone]

/-- A completion that fills the ring's count signals at once (R82). -/
theorem State.countIrq_signals {s : State} {f r : Nat} {g : Ring} (h : s.ring? f r = some g) (hc : g.cnt ≤ g.pendIrq + 1) :
    s.countIrq f r = ((s.setRing f r { g with pendIrq := g.pendIrq + 1 }).irqDone f r { g with pendIrq := g.pendIrq + 1 }).signal
      f g.vec := by
  simp only [State.countIrq, h, if_pos hc, State.sendRingIrq_of_ring (s.ring?_setRing f r _)]

/-- The entry of two records stands at the mirror ring's next slot. -/
def State.mirrorWritten (s : State) (g : Ring) (a b : List W64) : State :=
  (s.send (.write 0 (g.base.toNat + 64 * (g.done.toNat % 2 ^ g.log2)) ((a ++ b).map (fun w => leBytes 8 w.toNat)).flatten)).setRing
    0 s.trc.mirrorRing { g with done := g.done + 1 }

theorem State.mirrorEntry_of_ring {s : State} {g : Ring} (h : s.ring? 0 s.trc.mirrorRing = some g) (a b : List W64) :
    s.mirrorEntry a b = (s.mirrorWritten g a b).countIrq 0 s.trc.mirrorRing := by
  simp only [State.mirrorEntry, h]
  rfl

theorem State.mirrorWritten_ring? (s : State) (g : Ring) (a b : List W64) :
    (s.mirrorWritten g a b).ring? 0 s.trc.mirrorRing = some { g with done := g.done + 1 } := State.ring?_setRing _ _ _ _

/-- On a mirror ring whose every completion signals, its vector masked, the entry is written and the message waits. -/
theorem State.mirrorEntry_masked {s : State} {g : Ring} (h : s.ring? 0 s.trc.mirrorRing = some g) (hc : g.cnt = 1)
    (hm : s.masked 0 g.vec = true) (a b : List W64) : (s.mirrorEntry a b).trc = s.trc ∧ (s.mirrorEntry a b).host.out =
      s.host.out ++ [.write 0 (g.base.toNat + 64 * (g.done.toNat % 2 ^ g.log2))
        ((a ++ b).map (fun w => leBytes 8 w.toNat)).flatten] := by
  have hcnt : g.cnt ≤ g.pendIrq + 1 := by omega
  rw [State.mirrorEntry_of_ring h, State.countIrq_signals (s.mirrorWritten_ring? g a b) hcnt]
  refine ⟨by simp [State.irqDone, State.mirrorWritten], ?_⟩
  rw [State.signal_masked (by rw [State.masked_of_host (State.irqDone_host _ _ _ _)]; exact hm)]
  simp [State.mirrorWritten, State.send]

theorem exec_mirrorEntryTimeout (s : State) : exec .mirrorEntryTimeout s = execMirrorEntryTimeout s := rfl

theorem exec_mirrorEntryTimeout_single {s : State} {a : List W64} (h : s.trc.mirQ = [a]) : exec .mirrorEntryTimeout s =
    .next (({ s with trc := { s.trc with mirQ := [] } } : State).mirrorEntry a [0, 0, 0, 0]).settle := by
  simp only [exec_mirrorEntryTimeout, execMirrorEntryTimeout, finish, h]

/-! ## The statement settled -/

/-- Settles O15, command by command. -/
theorem queryAndTraceCommands : Obligations.QueryAndTraceCommands := by
  unfold Obligations.QueryAndTraceCommands
  intro s
  refine ⟨fun j x h hc => ⟨_, (s.capBlock x.fn).1, exec_capQuery_eq h, ?answers⟩,
    fun j x h hm hp hr => ⟨_, exec_traceCtrl_sets h hm hp hr, ?sets⟩,
    fun j x h hm => ⟨_, exec_traceCtrl_refused h hm, ?refused⟩,
    fun a g hq h ha hc hm => ⟨_, exec_mirrorEntryTimeout_single hq, ?written⟩⟩
  case answers =>
    obtain ⟨hlen, hhead⟩ := s.capBlock_bytes x.fn
    exact ⟨State.settle_endedWith (State.done_ends { s with free := s.free + 1 } j x _ (State.cmdJob_job? h) (hlen.trans_le hc)),
      hlen, hhead.trans (by decide), by simp, by simp⟩
  case sets =>
    have hmask : (BitVec.ofNat 32 (fld (leAt x.block 0 8) 32 32)).toNat = fld (leAt x.block 0 8) 32 32 :=
      BitVec.toNat_ofNat _ _ ▸ Nat.mod_eq_of_lt (hm.trans (by decide))
    exact ⟨State.done_nil_ends (s := { s with trc := _ }) (State.cmdJob_job? h), by simp [Trace.set], by simp [Trace.set],
      by simp [Trace.set], by simp only [State.settle_trc, State.done_frame]; exact hmask⟩
  case refused => exact ⟨State.doneErr_settled_ends (State.cmdJob_job? h) _ _, by simp⟩
  case written =>
    obtain ⟨htrc, hout⟩ := State.mirrorEntry_masked (s := { s with trc := { s.trc with mirQ := [] } }) h hc hm a [0, 0, 0, 0]
    rw [State.settle_trc, State.settle_host, htrc, hout]
    exact ⟨rfl, by simp [zeros]; decide⟩

end Machine
end Sys2Proof
end

section
/-! PROOFS. Quotas, token buckets and the dirty log (R105, R106, R308, R321): what STRAND_QUOTA and BUCKET_REFILL set of a strand, and how
the commands of the dirty log wait for the bits still to be written. -/

namespace Sys2Proof.Machine

/-! ## Strands -/

theorem State.strand_of_strands {s t : State} (h : t.strands = s.strands) (f : Nat) : t.strand f = s.strand f := by
  simp [State.strand, h]

theorem State.ne_zero_of_vfEnabled {s : State} {f : Nat} (h : s.vfEnabled f = true) : f ≠ 0 := by
  simp only [State.vfEnabled, Bool.and_eq_true, decide_eq_true_eq] at h
  omega

/-- A notice moves the head of its strand's queue and nothing else of the strand. -/
theorem State.notice_strand (s : State) (f c a b : Nat) : ∃ n, (s.notice f c a b).strand f = { s.strand f with nHead := n } := by
  unfold State.notice
  extract_lets x h base r t
  split
  · next hc =>
    have hf : f ≠ 0 := by rintro rfl; simp at hc
    exact ⟨h, (State.strand_of_strands (s := t) rfl f).trans (State.strand_setStrand _ f _ hf)⟩
  · exact ⟨_, rfl⟩

/-! ## STRAND_QUOTA (R93, R105, R308) -/

/-- A strand under a new quota: a lower BURST takes tokens away. -/
def Strand.withQuota (t : Strand) (q : Quota) : Strand :=
  { t with quota := q, level := if q.burst < t.quota.burst then min t.level (q.burst * 2 ^ 20) else t.level }

/-- The quota of a strand is replaced, with the ceilings, groups and refills that follow from it. -/
def State.quotaSet (s : State) (f : Nat) (q : Quota) : State :=
  let u := (((s.setStrand f ((s.strand f).withQuota q)).lowerCeilings f q.ceil).clearGroups (s.strand f).quota q).dlRemove 2
    (.bucketRefill f)
  if q.rate ≠ 0 then u.dlInsert 2 (u.now + 1) (.bucketRefill f) else u

theorem State.quotaSet_kept (s : State) (f : Nat) (q : Quota) :
    (s.quotaSet f q).jobs = s.jobs ∧ (s.quotaSet f q).strands = (s.setStrand f ((s.strand f).withQuota q)).strands := by
  unfold State.quotaSet
  extract_lets u
  have hu : u.jobs = s.jobs ∧ u.strands = (s.setStrand f ((s.strand f).withQuota q)).strands := by
    simp [u, State.clearGroups, State.lowerCeilings]
  split <;> simp [hu]

theorem exec_strandQuota (j : Nat) (s : State) : exec (.strandQuota j) s = execStrandQuota j s := rfl

/-- The new quota is told to the strand (R318). -/
def State.quotaNoticed (s : State) (f : Nat) (b : Bytes) : State :=
  (s.quotaSet f (quotaOf b)).notice f 6 (leAt b 0 8) (leAt b 8 8)

theorem State.quotaNoticed_jobs (s : State) (f : Nat) (b : Bytes) : (s.quotaNoticed f b).jobs = s.jobs := by
  simp [State.quotaNoticed, (s.quotaSet_kept f (quotaOf b)).1]

theorem State.quotaNoticed_strand (s : State) {f : Nat} (hf : f ≠ 0) (b : Bytes) :
    ∃ n, (s.quotaNoticed f b).strand f = { (s.strand f).withQuota (quotaOf b) with nHead := n } := by
  obtain ⟨n, hn⟩ := State.notice_strand (s.quotaSet f (quotaOf b)) f 6 (leAt b 0 8) (leAt b 8 8)
  exact ⟨n, by rw [State.quotaNoticed, hn, State.strand_of_strands (s.quotaSet_kept f _).2, State.strand_setStrand _ _ _ hf]⟩

theorem exec_strandQuota_refused {s : State} {j : Nat} {x : Job} (h : s.cmdJob j 0xF103 = some x)
    (hv : s.vfEnabled x.strandNo = true) {e : Nat × Nat} (he : s.quotaErr x.strandNo x.block = some e) :
    exec (.strandQuota j) s = .next (s.doneErr j e.1 e.2).settle := by
  simp [exec_strandQuota, execStrandQuota, finish, h, hv, he]

theorem exec_strandQuota_sets {s : State} {j : Nat} {x : Job} (h : s.cmdJob j 0xF103 = some x)
    (hv : s.vfEnabled x.strandNo = true) (he : s.quotaErr x.strandNo x.block = none) :
    exec (.strandQuota j) s = .next ((s.quotaNoticed x.strandNo x.block).done j []).settle := by
  simp only [exec_strandQuota, execStrandQuota, finish, h, hv, he]
  rfl

/-- A field out of its range is the first refusal of R105. -/
theorem State.quotaErr_of_range {s : State} {f : Nat} {b : Bytes} (h : (quotaOf b).inRange b = false) :
    s.quotaErr f b = some (inputErr, 0x0108) := by
  simp [State.quotaErr, h]

/-! ## BUCKET_REFILL (R308) -/

/-- A strand's bucket after one tick. -/
def Strand.refilled (t : Strand) : Strand :=
  { t with level := max t.level (min (t.quota.burst * 2 ^ 20) (t.level + t.quota.rate * 2 ^ 20 / 1000000)) }

/-- The manager has no quota. -/
theorem State.ne_zero_of_rate {s : State} {f : Nat} (h : (s.strand f).quota.rate ≠ 0) : f ≠ 0 := by
  rintro rfl
  exact h rfl

theorem exec_bucketRefill (f : Nat) (s : State) : exec (.bucketRefill f) s = execBucketRefill f s := rfl

theorem exec_bucketRefill_refills {s : State} {f : Nat} (hl : s.live = true) (hr : (s.strand f).quota.rate ≠ 0) :
    exec (.bucketRefill f) s = .next (((s.setStrand f (s.strand f).refilled).dlRemove 2 (.bucketRefill f)).dlInsert 2
      ((s.setStrand f (s.strand f).refilled).now + 1) (.bucketRefill f)).settle := by
  simp only [exec_bucketRefill, execBucketRefill, finish, hl, hr]
  rfl

theorem exec_bucketRefill_none {s : State} {f : Nat} (hr : (s.strand f).quota.rate = 0) :
    exec (.bucketRefill f) s = .next s.settle := by
  simp [exec_bucketRefill, execBucketRefill, finish, hr]

/-! ## What is still to be logged (R220, R321) -/

/-- Bits of a job are still to be written to a bitmap of strand `f`, whose log is on or off. -/
def Job.logDue (x : Job) (f : Nat) (map on : Bool) : Bool :=
  x.fn = f && x.dlogBuf = some map && (x.due.any HostWait.isBit || (on && streams x && x.issued && x.phase ≠ 2))

theorem State.dlogDue_eq (s : State) (f : Nat) (map : Bool) :
    s.dlogDue f map = s.jobs.any (fun e => e.2.logDue f map (s.strand f).dlogOn) := rfl

/-- With the log off, no more is due than with it on. -/
theorem Job.logDue_off {x : Job} {f : Nat} {map on : Bool} (h : x.logDue f map on = false) : x.logDue f map false = false := by
  cases on
  · exact h
  · simp only [Job.logDue, Bool.and_eq_false_iff, Bool.or_eq_false_iff] at h ⊢
    exact h.imp_right (fun h => ⟨h.1, by simp⟩)

/-- A change of a job that a test does not see. -/
theorem State.modJob_anyJob {s : State} {j : Nat} {g : Job → Job} {p : Job → Bool} (h : ∀ x, s.job? j = some x → p (g x) = p x) :
    (s.modJob j g).jobs.any (fun e => p e.2) = s.jobs.any (fun e => p e.2) := by
  unfold State.modJob
  split
  · rfl
  · next x hx =>
    rw [List.any_eq_not_all_not, List.any_eq_not_all_not]
    exact congrArg _ (Tbl.all_insert_of_get? hx (by simp [h x hx]))

theorem State.modJob_jobs_congr {s t : State} (h : t.jobs = s.jobs) (j : Nat) (g : Job → Job) :
    (t.modJob j g).jobs = (s.modJob j g).jobs := by
  simp only [State.modJob, State.job?_of_jobs h j]
  split <;> simp [State.setJob, h]

/-- A command that waits changes its phase and no other job. -/
theorem State.waitPhase_jobs (s : State) (j p : Nat) :
    (s.waitPhase j p).jobs = (s.modJob j (fun x => { x with phase := p })).jobs := by
  have hm : (((s.takeGate j).leaveS3 j).modJob j (fun x => { x with phase := p })).jobs =
      (s.modJob j (fun x => { x with phase := p })).jobs := State.modJob_jobs_congr (by simp) j _
  unfold State.waitPhase
  extract_lets t
  change t.jobs = _ at hm
  clear_value t
  (repeat' split) <;> simp [hm]

/-- A command that is no decryption streams nothing (R220). -/
theorem streams_of_op {x : Job} (h : x.opOp ≠ 2) : streams x = false := by simp [streams, h]

/-- No phase of a command that streams nothing changes what is due. -/
theorem Job.logDue_phase {x : Job} (h : streams x = false) (f : Nat) (map on : Bool) (p n : Nat) :
    ({ x with phase := p, note := n } : Job).logDue f map on = x.logDue f map on := by
  have h' : streams { x with phase := p, note := n } = false := h
  simp [Job.logDue, h, h']

/-! ## DLOG_START (R106, R320) -/

/-- A strand whose dirty log begins with the window and bitmaps of a block. -/
def Strand.logging (t : Strand) (b : Bytes) : Strand := { t with
  dlogOn := true, dlogBuf := false, dlogBase := leAt b 0 8, dlogLen := leAt b 8 8, dlogA := leAt b 16 8, dlogB := leAt b 24 8 }

/-- A block of DLOG_START with an unaligned word, or a window above 2^40 bytes. -/
def dlogMalformed (b : Bytes) : Prop :=
  leAt b 0 8 % 4096 ≠ 0 ∨ leAt b 8 8 % 4096 ≠ 0 ∨ 2 ^ 40 < leAt b 8 8 ∨ leAt b 16 8 % 4096 ≠ 0 ∨ leAt b 24 8 % 4096 ≠ 0

theorem exec_dlogSwap (j : Nat) (s : State) : exec (.dlogSwap j) s = execDlogSwap j s := rfl

theorem exec_dlogStart (j : Nat) (s : State) : exec (.dlogStart j) s = execDlogStart j s := rfl

section
variable {s : State} {j : Nat} {x : Job} (hv : s.vfEnabled x.strandNo = true)
include hv

theorem exec_dlogStart_starts (h : s.cmdJob j 0xF104 = some x) (hb : ¬ dlogMalformed x.block) : exec (.dlogStart j) s =
    .next ((s.setStrand x.strandNo ((s.strand x.strandNo).logging x.block)).done j []).settle := by
  unfold dlogMalformed at hb
  simp only [exec_dlogStart, execDlogStart, finish, h, hv, Bool.not_true, Bool.false_eq_true, if_false]
  rw [if_neg (by simpa [or_assoc] using hb)]
  rfl

theorem exec_dlogStart_refused (h : s.cmdJob j 0xF104 = some x) (hb : dlogMalformed x.block) :
    exec (.dlogStart j) s = .next (s.doneErr j inputErr 0x0109).settle := by
  unfold dlogMalformed at hb
  simp only [exec_dlogStart, execDlogStart, finish, h, hv, Bool.not_true, Bool.false_eq_true, if_false]
  rw [if_pos (by simpa [or_assoc] using hb)]

/-! ## DLOG_SWAP (R106, R321) -/

/-- A command of the dirty log where no log is on. -/
theorem exec_dlogSwap_off (h : s.cmdJob j 0xF105 = some x) (hp : x.phase = 0) (ho : (s.strand x.strandNo).dlogOn = false) :
    exec (.dlogSwap j) s = .next (s.doneErr j conflictErr 0x0108).settle := by
  simp [exec_dlogSwap, execDlogSwap, finish, h, hv, hp, ho]

/-- Once it waits, DLOG_SWAP ends when nothing of the closed bitmap is due. -/
theorem exec_dlogSwap_ends (h : s.cmdJob j 0xF105 = some x) (hp : x.phase = 2)
    (hd : s.dlogDue x.strandNo (x.note = 1) = false) :
    exec (.dlogSwap j) s = .next (s.done j (leBytes 8 (b2n (x.note = 1)))).settle := by
  simp [exec_dlogSwap, execDlogSwap, finish, h, hv, hp, hd]

end

/-- The log of strand `f` has turned to its other bitmap, and command `j` waits, its note the number of the closed one. -/
def State.dlogTurned (s : State) (j f : Nat) : State :=
  ((s.setStrand f { s.strand f with dlogBuf := !(s.strand f).dlogBuf }).modJob j
    (fun x => { x with note := b2n (s.strand f).dlogBuf })).waitPhase j 2

/-- The log of strand `f` is off, and command `j` waits. -/
def State.dlogStopped (s : State) (j f : Nat) : State :=
  (s.setStrand f { s.strand f with dlogOn := false }).waitPhase j 2

section
variable {s : State} {j f : Nat} {x : Job}

theorem State.dlogTurned_job? (hx : s.job? j = some x) :
    (s.dlogTurned j f).job? j = some { x with phase := 2, note := b2n (s.strand f).dlogBuf } := by
  refine State.waitPhase_job? (x := { x with note := b2n (s.strand f).dlogBuf }) ?_
  rw [State.modJob_job?, State.job?_of_jobs (s.setStrand_jobs f _), hx, Option.map_some]

theorem State.dlogTurned_strand (hf : f ≠ 0) :
    (s.dlogTurned j f).strand f = { s.strand f with dlogBuf := !(s.strand f).dlogBuf } := by
  rw [State.strand_of_strands (s := s.setStrand f { s.strand f with dlogBuf := !(s.strand f).dlogBuf }) (by simp [State.dlogTurned]),
    State.strand_setStrand _ _ _ hf]

/-- A test that sees neither phase nor note of the command finds the same jobs while the command waits. -/
theorem State.dlogTurned_anyJob (hx : s.job? j = some x) {p : Job → Bool} (hp : ∀ n m, p { x with phase := n, note := m } = p x) :
    (s.dlogTurned j f).jobs.any (fun e => p e.2) = s.jobs.any (fun e => p e.2) := by
  have hset : (s.setStrand f { s.strand f with dlogBuf := !(s.strand f).dlogBuf }).job? j = some x :=
    (State.job?_of_jobs (s.setStrand_jobs f _) j).trans hx
  rw [State.dlogTurned, State.waitPhase_jobs, State.modJob_anyJob, State.modJob_anyJob, State.setStrand_jobs]
  · intro y hy
    obtain rfl := Option.some.inj (hset.symm.trans hy)
    exact hp x.phase _
  · intro y hy
    rw [State.modJob_job?, hset] at hy
    obtain rfl := Option.some.inj hy
    exact (hp 2 _).trans (hp x.phase _).symm

/-- Turning the log leaves what is due. -/
theorem State.dlogTurned_dlogDue (hx : s.job? j = some x) (hs : streams x = false) (hf : f ≠ 0) (map : Bool) :
    (s.dlogTurned j f).dlogDue f map = s.dlogDue f map := by
  rw [State.dlogDue_eq, State.dlogDue_eq, State.dlogTurned_strand hf,
    State.dlogTurned_anyJob hx (p := (·.logDue f map (s.strand f).dlogOn)) (Job.logDue_phase hs f map _)]

theorem State.dlogStopped_job? (hx : s.job? j = some x) : (s.dlogStopped j f).job? j = some { x with phase := 2 } :=
  State.waitPhase_job? ((State.job?_of_jobs (s.setStrand_jobs f _) j).trans hx)

theorem State.dlogStopped_strand (hf : f ≠ 0) : (s.dlogStopped j f).strand f = { s.strand f with dlogOn := false } := by
  rw [State.strand_of_strands (s := s.setStrand f { s.strand f with dlogOn := false }) (by simp [State.dlogStopped]),
    State.strand_setStrand _ _ _ hf]

/-- With the log off nothing more is due. -/
theorem State.dlogStopped_dlogDue (hx : s.job? j = some x) (hs : streams x = false) (hf : f ≠ 0) {map : Bool}
    (h : s.dlogDue f map = false) : (s.dlogStopped j f).dlogDue f map = false := by
  have hset : (s.setStrand f { s.strand f with dlogOn := false }).job? j = some x :=
    (State.job?_of_jobs (s.setStrand_jobs f _) j).trans hx
  have hjobs : (s.dlogStopped j f).jobs.any (fun e => e.2.logDue f map false) = s.jobs.any (fun e => e.2.logDue f map false) := by
    rw [State.dlogStopped, State.waitPhase_jobs, State.modJob_anyJob (p := (·.logDue f map false)), State.setStrand_jobs]
    intro y hy
    obtain rfl := Option.some.inj (hset.symm.trans hy)
    exact Job.logDue_phase hs f map false 2 x.note
  rw [State.dlogDue_eq] at h
  rw [State.dlogDue_eq, State.dlogStopped_strand hf, hjobs]
  exact List.any_eq_false.2 (fun e he hdue => List.any_eq_false.1 h e he (by
    cases hon : e.2.logDue f map (s.strand f).dlogOn
    · exact absurd (Job.logDue_off hon) (by simp [hdue])
    · rfl))

end

theorem exec_dlogStop (j : Nat) (s : State) : exec (.dlogStop j) s = execDlogStop j s := rfl

section
variable {s : State} {j : Nat} {x : Job} (hv : s.vfEnabled x.strandNo = true) (hp : x.phase = 0)
  (ho : (s.strand x.strandNo).dlogOn = true)
include hv hp ho

/-- DLOG_SWAP turns the log, and ends at once where nothing of the closed bitmap is due. -/
theorem exec_dlogSwap_turns (h : s.cmdJob j 0xF105 = some x) : exec (.dlogSwap j) s =
    .next (if (s.dlogTurned j x.strandNo).dlogDue x.strandNo (s.strand x.strandNo).dlogBuf then s.dlogTurned j x.strandNo
      else (s.dlogTurned j x.strandNo).done j (leBytes 8 (b2n (s.strand x.strandNo).dlogBuf))).settle := by
  simp [exec_dlogSwap, execDlogSwap, finish, h, hv, hp, ho, State.dlogTurned]

/-- DLOG_STOP ends the log, and ends at once where nothing of either bitmap is due. -/
theorem exec_dlogStop_stops (h : s.cmdJob j 0xF106 = some x) : exec (.dlogStop j) s =
    .next (if (s.dlogStopped j x.strandNo).dlogDue x.strandNo false || (s.dlogStopped j x.strandNo).dlogDue x.strandNo true then
      s.dlogStopped j x.strandNo else (s.dlogStopped j x.strandNo).done j []).settle := by
  simp [exec_dlogStop, execDlogStop, finish, h, hv, hp, ho, State.dlogStopped]

end

section
variable {s : State} {j : Nat} {x : Job} (hv : s.vfEnabled x.strandNo = true) (h : s.cmdJob j 0xF106 = some x)
include hv h

theorem exec_dlogStop_off (hp : x.phase = 0) (ho : (s.strand x.strandNo).dlogOn = false) :
    exec (.dlogStop j) s = .next (s.doneErr j conflictErr 0x0108).settle := by
  simp [exec_dlogStop, execDlogStop, finish, h, hv, hp, ho]

/-- Once it waits, DLOG_STOP ends when nothing of either bitmap is due. -/
theorem exec_dlogStop_ends (hp : x.phase = 2) (hd : s.dlogDue x.strandNo false = false)
    (hd' : s.dlogDue x.strandNo true = false) : exec (.dlogStop j) s = .next (s.done j []).settle := by
  simp [exec_dlogStop, execDlogStop, finish, h, hv, hp, hd, hd']

end

/-! ## The jobs and strands that the commands leave -/

section
variable {s : State} {j : Nat} {x : Job}

theorem State.cmdJob_stage {op : Nat} (h : s.cmdJob j op = some x) : x.stage = .firmware := by
  unfold State.cmdJob at h
  split at h
  · split at h
    · next hc => obtain rfl := Option.some.inj h; simp at hc; exact hc.1.1.1
    · exact absurd h (by simp)
  · exact absurd h (by simp)

/-- The dirty log's commands decrypt nothing, so they stream nothing. -/
theorem streams_dlogSwap (h : s.cmdJob j 0xF105 = some x) : streams x = false :=
  streams_of_op (by rw [Job.opOp, State.cmdJob_opcode h]; decide)

theorem streams_dlogStop (h : s.cmdJob j 0xF106 = some x) : streams x = false :=
  streams_of_op (by rw [Job.opOp, State.cmdJob_opcode h]; decide)

end

/-! ## The statement settled -/

/-- Settles O31, command by command. -/
theorem quotaAndDirtyLogCommands : Obligations.QuotaAndDirtyLogCommands := by
  unfold Obligations.QuotaAndDirtyLogCommands
  refine ⟨fun s j x => ⟨fun h _ hv => ⟨fun he => ⟨_, exec_strandQuota_sets h hv he, ?quota⟩,
      State.quotaErr_of_range, fun e he => ⟨_, exec_strandQuota_refused h hv he,
        State.doneErr_settled_ends (State.cmdJob_job? h) _ _, by simp⟩⟩,
    fun f hl hr => ⟨_, exec_bucketRefill_refills hl hr, ?refill⟩, fun f hr => exec_bucketRefill_none hr⟩,
    fun s j x _ hv => ⟨fun h => ⟨fun hb hl hm hA hB => ⟨_, exec_dlogStart_starts hv h (by unfold dlogMalformed; omega), ?start⟩,
      fun hb => ⟨_, exec_dlogStart_refused hv h hb, State.doneErr_settled_ends (State.cmdJob_job? h) _ _, by simp⟩⟩,
    fun h hc => ⟨fun hp ho => ⟨_, exec_dlogSwap_turns hv hp ho h, ?swap⟩,
      fun hp hd => ⟨_, exec_dlogSwap_ends hv h hp hd, ?swapped⟩,
      fun hp ho => ⟨_, exec_dlogSwap_off hv h hp ho, State.doneErr_settled_ends (State.cmdJob_job? h) _ _⟩⟩,
    fun h hp => ⟨fun ho => ⟨_, exec_dlogStop_stops hv hp ho h, ?stop⟩,
      fun ho => ⟨_, exec_dlogStop_off hv h hp ho, State.doneErr_settled_ends (State.cmdJob_job? h) _ _⟩⟩,
    fun h hp hd hd' => ⟨_, exec_dlogStop_ends hv h hp hd hd', State.done_nil_ends (State.cmdJob_job? h), by simp⟩⟩⟩
  case quota =>
    obtain ⟨n, hn⟩ := s.quotaNoticed_strand (State.ne_zero_of_vfEnabled hv) x.block
    have hjob := (State.job?_of_jobs (s.quotaNoticed_jobs x.strandNo x.block) j).trans (State.cmdJob_job? h)
    rw [State.strand_of_strands (s := s.quotaNoticed x.strandNo x.block) (by simp), hn]
    refine ⟨State.done_nil_ends hjob, rfl, rfl, fun hb => ?_⟩
    simp only [Strand.withQuota, if_pos hb]
    omega
  case refill =>
    have hs : (s.setStrand f (s.strand f).refilled).strand f = (s.strand f).refilled :=
      State.strand_setStrand _ _ _ (State.ne_zero_of_rate hr)
    rw [State.strand_of_strands (s := s.setStrand f (s.strand f).refilled) (by simp), hs]
    exact ⟨rfl, rfl, by simp⟩
  case start =>
    have hjob := (State.job?_of_jobs (s.setStrand_jobs x.strandNo ((s.strand x.strandNo).logging x.block)) j).trans
      (State.cmdJob_job? h)
    refine ⟨State.done_nil_ends hjob, ?_⟩
    rw [State.strand_of_strands (s := s.setStrand x.strandNo ((s.strand x.strandNo).logging x.block)) (by simp),
      State.strand_setStrand _ _ _ (State.ne_zero_of_vfEnabled hv)]
    rfl
  case swap =>
    have hf := State.ne_zero_of_vfEnabled hv
    have hjob := State.dlogTurned_job? (f := x.strandNo) (State.cmdJob_job? h)
    have hstrand := s.dlogTurned_strand (j := j) hf
    rw [State.dlogTurned_dlogDue (State.cmdJob_job? h) (streams_dlogSwap h) hf]
    cases s.dlogDue x.strandNo (s.strand x.strandNo).dlogBuf
    · exact ⟨by rw [State.strand_of_strands (s := s.dlogTurned j x.strandNo) (by simp), hstrand],
        fun _ => State.settle_endedWith (State.done_ends _ _ _ _ hjob ((leBytes_length 8 _).trans_le hc)), nofun⟩
    · have hjob' := (State.settle_job? _ _).trans hjob
      have hstage := State.cmdJob_stage h
      exact ⟨by rw [State.strand_of_strands (s := s.dlogTurned j x.strandNo) (by simp), hstrand], nofun,
        fun _ => ⟨_, hjob', hstage, rfl, rfl⟩⟩
  case swapped =>
    exact ⟨State.settle_endedWith (State.done_ends _ _ _ _ (State.cmdJob_job? h) ((leBytes_length 8 _).trans_le hc)), by simp⟩
  case stop =>
    have hf := State.ne_zero_of_vfEnabled hv
    refine ⟨?_, fun hd hd' => ?_⟩
    · rw [State.strand_of_strands (s := s.dlogStopped j x.strandNo) (by split <;> simp), State.dlogStopped_strand hf]
    · have hx := State.cmdJob_job? h
      have hs := streams_dlogStop h
      rw [State.dlogStopped_dlogDue hx hs hf hd, State.dlogStopped_dlogDue hx hs hf hd']
      exact State.done_nil_ends (State.dlogStopped_job? hx)

end Sys2Proof.Machine
end

section
/-! PROOFS. RING_CREATE refused with BUSY (R101): a command that ends with a status gives back the use of a key reserved for it (R126),
so what the statement says of the key store is false. -/

namespace Sys2Proof.Machine

theorem exec_ringCreate (j : Nat) (s : State) : exec (.ringCreate j) s = execRingCreate j s := rfl

/-- A RING_CREATE whose block fails a check ends with that check's status. -/
theorem exec_ringCreate_refused {s : State} {j : Nat} {x : Job} (h : s.cmdJob j 0xF002 = some x) {e : Nat × Nat}
    (he : s.ringCreateError x.fn x.block = some e) : exec (.ringCreate j) s = .next (s.doneErr j e.1 e.2).settle := by
  simp only [exec_ringCreate, execRingCreate, finish, h, he]

/-- A key with one use reserved. -/
def bookedKey : KeyObj := { uid := 0, type := 0, reserved := 1 }

/-- The manager's RING_CREATE of ring 1, of 16 entries, order group 0, vector 0 and CNT 1; it holds the
reserved use of the key of slot 0. -/
def ringCreation : Job := {
  fn := 0, ring := 0, start := 0, n := 1, seq := 0, opcode := 0xF002, cls := 0, order := false, irq := false
  words := [], exts := [], deadline := none, gen := 0, stage := .firmware, key := some (0, bookedKey), reserved := true
  input := some (leBytes 8 0 ++ leBytes 8 (1 + 4 * 2 ^ 8) ++ leBytes 8 (2 ^ 8)) }

/-- The ring it names, still being destroyed. -/
def dyingRing : Ring := { base := 0, log2 := 4, destroying := true }

/-- The command has reached trusted firmware while its ring is being destroyed; one use of the key is reserved. -/
def ringCreationBusy : State := {
  jobs := [(1, ringCreation)], rings := [(1, dyingRing)], kst := { keys := [(0, bookedKey)] } }

theorem ringCreationBusy_cmdJob : ringCreationBusy.cmdJob 1 0xF002 = some ringCreation := by decide

theorem ringCreationBusy_ring? : ringCreationBusy.ring? 0 1 = some dyingRing := by decide

theorem ringCreationBusy_error : ringCreationBusy.ringCreateError ringCreation.fn ringCreation.block = some (busyErr, 0x0101) := by
  decide

/-- The end of the command gives the reserved use back. -/
theorem ringCreationBusy_reserved : (ringCreationBusy.key? 0).map (·.reserved) = some 1 ∧
    ((ringCreationBusy.doneErr 1 busyErr 0x0101).key? 0).map (·.reserved) = some 0 := by decide

/-- Refutes O14: RING_CREATE of a ring that is being destroyed ends with BUSY, but the key store is not always as before (`t.kst = s.kst`):
over every state, as the statement has it, the command may hold a reserved use of a key, and its end gives that use back. -/
theorem not_ringLifetimeCommands : ¬ Obligations.RingLifetimeCommands := by
  unfold Obligations.RingLifetimeCommands
  intro hall
  obtain ⟨-, -, -, hcreate, -, -⟩ := hall ringCreationBusy
  obtain ⟨-, -, hbusy⟩ := hcreate 1 ringCreation ringCreationBusy_cmdJob
  obtain ⟨t, hrun, -, -, hkst, -⟩ := hbusy 1 dyingRing (by decide) ringCreationBusy_ring? (by decide) (by decide) (by decide)
    (by decide) (by decide) (by decide) (by decide) (by decide) (by decide) (by decide) (by decide)
  rw [exec_ringCreate_refused ringCreationBusy_cmdJob ringCreationBusy_error] at hrun
  obtain rfl := Host.Outcome.next.inj hrun
  obtain ⟨hbefore, hafter⟩ := ringCreationBusy_reserved
  have hkept : (ringCreationBusy.doneErr 1 busyErr 0x0101).kst = ringCreationBusy.kst := by simpa using hkst
  rw [State.key?, hkept] at hafter
  exact absurd (hbefore.symm.trans hafter) (by decide)

end Sys2Proof.Machine
end

section
/-! PROOFS. The manager's spool commands (R113, R284, R287, R298, R300): what traffic on the spool links leaves as it is, what a handshake
keeps of its port, and the cases of SPOOL_STATUS to SPOOL_RESPOOL. -/

namespace Sys2Proof.Machine

/-! ## Traffic on the links (R291, R293) -/

/-- An operation moves only what the ports still have to send: their states and roles, the re-spooling, the jobs and vigil RAM stay. -/
structure State.OnlyTraffic (s t : State) : Prop where
  port : ∀ q, (t.port q).state = (s.port q).state ∧ (t.port q).role = (s.port q).role
  respool : t.spl.respool = s.spl.respool
  jobs : t.jobs = s.jobs
  vigil : t.vigil = s.vigil

section
variable {s t u : State}

theorem State.OnlyTraffic.refl (s : State) : s.OnlyTraffic s := ⟨fun _ => ⟨rfl, rfl⟩, rfl, rfl, rfl⟩

theorem State.OnlyTraffic.trans (h : s.OnlyTraffic t) (g : t.OnlyTraffic u) : s.OnlyTraffic u :=
  ⟨fun q => ⟨(g.port q).1.trans (h.port q).1, (g.port q).2.trans (h.port q).2⟩, g.respool.trans h.respool, g.jobs.trans h.jobs,
    g.vigil.trans h.vigil⟩

theorem State.OnlyTraffic.of_spl (h : t.spl = s.spl) (hj : t.jobs = s.jobs) (hv : t.vigil = s.vigil) : s.OnlyTraffic t :=
  ⟨fun q => by rw [State.port_of_spl h]; exact ⟨rfl, rfl⟩, by rw [h], hj, hv⟩

end

theorem State.setPort_respool (s : State) (p : Port) (x : Spl) : (s.setPort p x).spl.respool = s.spl.respool := by
  cases p <;> rfl

theorem State.setPort_onlyTraffic (s : State) (p : Port) {x : Spl} (hst : x.state = (s.port p).state)
    (hr : x.role = (s.port p).role) : s.OnlyTraffic (s.setPort p x) := by
  refine ⟨fun q => ?_, s.setPort_respool p x, by simp, by simp⟩
  by_cases hq : q = p
  · subst hq
    rw [State.port_setPort]
    exact ⟨hst, hr⟩
  · rw [State.port_setPort_ne s hq]
    exact ⟨rfl, rfl⟩

theorem State.sendSpl_onlyTraffic (s : State) (p : Port) (o : SplOut) : s.OnlyTraffic (s.sendSpl p o) :=
  have hemit : s.OnlyTraffic (s.emitSpl p o) := s.setPort_onlyTraffic p rfl rfl
  hemit.trans (State.setPort_onlyTraffic _ p rfl rfl)

theorem State.writeRecord_onlyTraffic (s : State) (p : Port) (w : SplWork) : s.OnlyTraffic (s.writeRecord p w) :=
  have hdraw : s.OnlyTraffic (s.drawT 12).2 := .of_spl rfl rfl rfl
  hdraw.trans (State.setPort_onlyTraffic _ p (by simp) (by simp))

theorem State.splKick_onlyTraffic (s : State) (p : Port) : s.OnlyTraffic (s.splKick p) := by
  have hsame := State.OnlyTraffic.refl s
  unfold State.splKick
  extract_lets x
  split
  · exact hsame
  split
  · refine .trans ?_ (State.sendSpl_onlyTraffic _ p _)
    exact s.setPort_onlyTraffic p rfl rfl
  · split
    · exact s.sendSpl_onlyTraffic p _
    split
    · exact hsame
    · refine .trans (.trans ?_ (State.writeRecord_onlyTraffic _ p _)) (State.sendSpl_onlyTraffic _ p _)
      exact s.setPort_onlyTraffic p rfl rfl
  · split
    · exact s.sendSpl_onlyTraffic p _
    split
    · exact s.sendSpl_onlyTraffic p _
    · exact hsame

theorem State.coalesceAt_onlyTraffic (s : State) (p : Port) (w : SplWork) : s.OnlyTraffic (s.coalesceAt p w) := by
  have hstage : s.OnlyTraffic (s.modPort p (·.stage [w])) := s.setPort_onlyTraffic p rfl rfl
  have hmod : s.OnlyTraffic (s.modPort p (·.coalesceWith w)) := s.setPort_onlyTraffic p rfl rfl
  rw [State.coalesceAt_eq]
  split
  · rw [State.stageAt_eq]
    exact (hstage.trans (.of_spl (by simp) (by simp) (by simp))).trans (State.splKick_onlyTraffic _ p)
  split
  · exact .refl s
  split
  · exact hmod.trans (.of_spl (by simp) (by simp) (by simp))
  · exact hmod

theorem State.askSpl_onlyTraffic (s : State) (p : Port) (o : SplOut) : s.OnlyTraffic (s.askSpl p o) := by
  have hask : s.OnlyTraffic (s.modPort p (fun x => { x with wants := x.wants ++ [o] })) := s.setPort_onlyTraffic p rfl rfl
  unfold State.askSpl
  split
  · exact .refl s
  · exact hask.trans (State.splKick_onlyTraffic _ p)

/-- An exchange of a port waits or is in flight. -/
def Spl.asks (x : Spl) (o : SplOut) : Prop := o ∈ x.wants ∨ x.flight = some o

/-- A port that issues its next frame begins an exchange that waits, and the others wait on. -/
theorem State.splKick_asks {s : State} {p : Port} {o : SplOut} (h : o ∈ (s.port p).wants) : ((s.splKick p).port p).asks o := by
  unfold State.splKick
  extract_lets x
  split
  · exact .inl h
  split
  case h_1 _ _ o' rest hw =>
    have hmem : o = o' ∨ o ∈ rest := List.mem_cons.1 (hw ▸ h)
    rw [State.sendSpl_port, State.port_setPort]
    exact hmem.symm.imp id (fun he => congrArg some he.symm)
  all_goals
    rename_i hw _
    exact absurd h (by simp [show (s.port p).wants = [] from hw])

theorem State.askSpl_asks (s : State) (p : Port) (o : SplOut) : ((s.askSpl p o).port p).asks o := by
  unfold State.askSpl
  split
  · next h => simpa [Spl.asks] using h
  · exact State.splKick_asks (by simp)

/-! ## Handshakes (R287, Table 10.3) -/

/-- HELLO leaves whose handshake it is. -/
theorem State.sayHello_owner (s : State) (p : Port) :
    ((s.sayHello p).port p).pairing = (s.port p).pairing ∧ ((s.sayHello p).port p).job = (s.port p).job := by
  unfold State.sayHello
  extract_lets t
  have hport : (t.port p).pairing = (s.port p).pairing ∧ (t.port p).job = (s.port p).job := by simp [t]
  split
  · exact hport
  · simpa using hport

theorem State.startShake_owner (s : State) (p : Port) (pairing : Bool) (job : Option Nat) :
    ((s.startShake p pairing job).port p).pairing = pairing ∧ ((s.startShake p pairing job).port p).job = job := by
  obtain ⟨hpairing, hjob⟩ := (s.modPort p (fun x => { x with pairing := pairing, job := job })).sayHello_owner p
  rw [State.port_modPort] at hpairing hjob
  exact ⟨hpairing, hjob⟩

/-! ## A re-spooling that ends (R299) -/

theorem State.unreserve_job?_ne (s : State) {i j : Nat} (h : i ≠ j) : (s.unreserve j).job? i = s.job? i := by
  unfold State.unreserve
  split
  · split
    · exact (State.job?_setJob_ne _ _ h).trans (State.job?_of_jobs (by simp) i)
    · rfl
  · rfl

/-- The end of a command leaves every other job as it is. -/
theorem State.doneErr_job?_ne (s : State) {i j : Nat} (h : i ≠ j) (m d : Nat) : (s.doneErr j m d).job? i = s.job? i := by
  unfold State.doneErr
  split
  · rfl
  · rw [State.modJob_job?_ne _ _ h, State.unreserve_job?_ne _ h]
    simp

/-- No job leaves the device as a command ends. -/
theorem State.doneErr_job?_isSome {s : State} {i : Nat} (h : (s.job? i).isSome) (j m d : Nat) :
    ((s.doneErr j m d).job? i).isSome := by
  by_cases hi : i = j
  · subst hi
    obtain ⟨x, hx⟩ := Option.isSome_iff_exists.1 h
    obtain ⟨y, hy, -⟩ := State.doneErr_ends s i m d x hx
    simp [hy]
  · rwa [s.doneErr_job?_ne hi]

theorem State.eachPort_jobs {f : State → Port → State} (h : ∀ s p, (f s p).jobs = s.jobs) (l : List Port) (s : State) :
    (s.eachPort l f).jobs = s.jobs := by
  induction l generalizing s with
  | nil => rfl
  | cons p l ih => exact (ih (f s p)).trans (h s p)

theorem State.splEvt_jobs (s : State) (bit : Nat) : (s.splEvt bit).jobs = s.jobs := by simp [State.splEvt]

/-- No job leaves the device as a re-spooling ends without its completion. -/
theorem State.respoolAbort_job?_isSome {s : State} {i : Nat} (h : (s.job? i).isSome) (detail : Nat) :
    ((s.respoolAbort detail).job? i).isSome := by
  unfold State.respoolAbort
  split
  · exact h
  · extract_lets _ t t1 t2
    have hjobs : t2.jobs = s.jobs :=
      (State.eachPort_jobs (fun u q => (u.coalesceAt_onlyTraffic q .role).jobs) _ _).trans
        (State.eachPort_jobs (fun u q => State.setPort_jobs u q _) _ _)
    rw [State.job?_of_jobs (State.splEvt_jobs _ 17)]
    exact State.doneErr_job?_isSome (by rwa [State.job?_of_jobs hjobs]) _ _ _

/-! ## The commands, one by one -/

theorem exec_spoolStatus (j : Nat) (s : State) : exec (.spoolStatus j) s = execSpoolStatus j s := rfl
theorem exec_spoolPair (j : Nat) (s : State) : exec (.spoolPair j) s = execSpoolPair j s := rfl
theorem exec_spoolOpen (j : Nat) (s : State) : exec (.spoolOpen j) s = execSpoolOpen j s := rfl
theorem exec_spoolClose (j : Nat) (s : State) : exec (.spoolClose j) s = execSpoolClose j s := rfl
theorem exec_spoolRespool (j : Nat) (s : State) : exec (.spoolRespool j) s = execSpoolRespool j s := rfl

section
variable {s : State} {j : Nat} {x : Job}

theorem exec_spoolStatus_answers (h : s.cmdJob j 0xF401 = some x) :
    exec (.spoolStatus j) s = .next (s.done j (s.splStatus x.port)).settle := by
  simp only [exec_spoolStatus, execSpoolStatus, finish, h]

/-- SPOOL_PAIR on a port that is not yet its own. -/
theorem exec_spoolPair_cases (h : s.cmdJob j 0xF402 = some x) (hj : (s.port x.port).job ≠ some j) : exec (.spoolPair j) s = .next (
    if (s.port x.port).state = 0 then s.doneErr j spoolErr 0x0101
    else if (s.port x.port).state = 3 || (s.port x.port).state = 4 then s.doneErr j spoolErr 0x0102
    else if (s.port x.port).state = 2 && (s.port x.port).shake = 0 then s.startShake x.port true (some j)
    else s.doneErr j conflictErr 0x0107).settle := by
  simp only [exec_spoolPair, execSpoolPair, finish, h, if_neg hj]

/-- SPOOL_OPEN on a port that is not yet its own. -/
theorem exec_spoolOpen_cases (h : s.cmdJob j 0xF403 = some x) (hj : (s.port x.port).job ≠ some j) : exec (.spoolOpen j) s = .next (
    if (s.port x.port).state = 0 then s.doneErr j spoolErr 0x0101
    else if (s.port x.port).state = 5 && (s.port x.port).shake = 0 then (s.waitPhase j 2).startShake x.port false (some j)
    else if (s.port x.port).state = 5 && (s.port x.port).job.isNone then
      (s.waitPhase j 2).modPort x.port (fun y => { y with job := some j })
    else if (s.port x.port).state = 8 then
      (s.waitPhase j 2).modPort x.port (fun y => { y with state := 1, job := some j, rb := false })
    else if (s.port x.port).state = 7 then s.waitPhase j 1
    else s.doneErr j conflictErr 0x0107).settle := by
  simp only [exec_spoolOpen, execSpoolOpen, finish, h, if_neg hj]

/-- A port that begins to close: what is coalesced goes out first. -/
def State.closing (s : State) (p : Port) : State :=
  (s.modPort p (fun y => { y with state := 7, staged := y.staged ++ y.coalesce, coalesce := [] })).splKick p

theorem exec_spoolClose_closes (h : s.cmdJob j 0xF404 = some x) (hs : (s.port x.port).state = 6) :
    exec (.spoolClose j) s = .next (((s.respoolAbort 0x0701).closing x.port).done j []).settle := by
  simp only [exec_spoolClose, execSpoolClose, finish, h, if_pos hs]
  rfl

theorem exec_spoolClose_refused (h : s.cmdJob j 0xF404 = some x) (hs : (s.port x.port).state ≠ 6) :
    exec (.spoolClose j) s = .next (s.doneErr j conflictErr 0x0107).settle := by
  simp only [exec_spoolClose, execSpoolClose, finish, h, if_neg hs]

theorem State.closing_port_state (s : State) (p : Port) : ((s.closing p).port p).state = 7 := by
  rw [State.closing, ((State.splKick_onlyTraffic _ p).port p).1, State.port_modPort]

theorem State.closing_jobs (s : State) (p : Port) : (s.closing p).jobs = s.jobs :=
  (State.splKick_onlyTraffic _ p).jobs.trans (State.setPort_jobs s p _)

/-! ## SPOOL_RESPOOL (R298) -/

theorem exec_spoolRespool_refused (h : s.cmdJob j 0xF405 = some x) (hr : s.spl.respool = none)
    (hk : respoolKind (s.port x.port) (s.port (otherPort x.port)) = none) :
    exec (.spoolRespool j) s = .next (s.doneErr j conflictErr 0x0107).settle := by
  simp only [exec_spoolRespool, execSpoolRespool, finish, h, hr, hk]

/-- A fresh spool alone becomes PRIMARY in place: vigil RAM names it, and the keys' records on the lost primary are abandoned. -/
def State.promoted (s : State) (p : Port) : State :=
  let t := s.setPort p { s.port p with role := 1, swSeq := s.vigil.primSwSeq + 1 }
  { t with
    vigil := { t.vigil with primSerial := some (s.port p).serial, primSwSeq := s.vigil.primSwSeq + 1, primCommit := (s.port p).commitNo }
    kst := { t.kst with keys := t.kst.keys.each (fun _ k => { k with spoolRec := k.spoolRec.map (fun y => (0, y.2)) }) } }

theorem exec_spoolRespool_promotes (h : s.cmdJob j 0xF405 = some x) (hr : s.spl.respool = none)
    (hk : respoolKind (s.port x.port) (s.port (otherPort x.port)) = some 2) :
    exec (.spoolRespool j) s = .next (((s.promoted x.port).coalesceAt x.port .role).done j []).settle := by
  simp only [exec_spoolRespool, execSpoolRespool, finish, h, hr, hk]
  rfl

/-- A move begins: source and target have their roles. -/
def State.respoolBegun (s : State) (j : Nat) (p : Port) : State :=
  let t := (s.setPort p { s.port p with role := 3 }).modPort (otherPort p) (fun y => { y with role := 2 })
  { t with spl := { t.spl with respool := some { job := j, srcB := p = .b, step := 0, merge := false } } }

/-- The role records of a move are on their way to the spools that can be written. -/
def State.respoolTold (s : State) (j : Nat) (p : Port) : State :=
  (if (s.port p).ro then s.respoolBegun j p else (s.respoolBegun j p).coalesceAt p .role).coalesceAt (otherPort p) .role

/-- The command of a move waits, and the source's records are listed. -/
def State.respoolListing (s : State) (j : Nat) (p : Port) : State := ((s.respoolTold j p).waitPhase j 2).askSpl p .list

theorem exec_spoolRespool_moves (h : s.cmdJob j 0xF405 = some x) (hr : s.spl.respool = none)
    (hk : respoolKind (s.port x.port) (s.port (otherPort x.port)) = some 0) (hro : (s.port (otherPort x.port)).ro = false)
    (hfree : 2048 ≤ (s.port x.port).freeMib + (s.port (otherPort x.port)).freeMib) :
    exec (.spoolRespool j) s = .next (s.respoolListing j x.port).settle := by
  have hroom : ¬ (s.port (otherPort x.port)).freeMib < 2048 - (s.port x.port).freeMib := by omega
  simp only [exec_spoolRespool, execSpoolRespool, finish, h, hr, hk, hro, if_neg hroom]
  rfl

theorem State.respoolBegun_roles (s : State) (j : Nat) (p : Port) :
    ((s.respoolBegun j p).port p).role = 3 ∧ ((s.respoolBegun j p).port (otherPort p)).role = 2 := by
  cases p <;> exact ⟨rfl, rfl⟩

theorem State.respoolTold_onlyTraffic (s : State) (j : Nat) (p : Port) : (s.respoolBegun j p).OnlyTraffic (s.respoolTold j p) := by
  refine .trans ?_ (State.coalesceAt_onlyTraffic _ (otherPort p) .role)
  split
  · exact .refl _
  · exact State.coalesceAt_onlyTraffic _ p .role

/-- What follows the beginning of a move leaves the ports' roles and the re-spooling. -/
theorem State.respoolListing_keeps (s : State) (j : Nat) (p : Port) :
    (s.respoolListing j p).spl.respool = (s.respoolBegun j p).spl.respool ∧
      ∀ q, ((s.respoolListing j p).port q).role = ((s.respoolBegun j p).port q).role := by
  have htold := s.respoolTold_onlyTraffic j p
  have hwait : ((s.respoolTold j p).waitPhase j 2).spl = (s.respoolTold j p).spl := by simp
  have hask := State.askSpl_onlyTraffic ((s.respoolTold j p).waitPhase j 2) p .list
  refine ⟨hask.respool.trans (by rw [hwait, htold.respool]), fun q => (hask.port q).2.trans ?_⟩
  rw [State.port_of_spl hwait, (htold.port q).2]

end

/-! ## The statement settled -/

/-- Settles O48, command by command. -/
theorem spoolCommands : Obligations.SpoolCommands := by
  unfold Obligations.SpoolCommands
  refine fun s j x => ⟨fun h hc => ⟨_, exec_spoolStatus_answers h, ?status⟩,
    fun h hj => ⟨fun h0 => ⟨_, exec_spoolPair_cases h hj, ?pairAbsent⟩, fun h34 => ⟨_, exec_spoolPair_cases h hj, ?pairForeign⟩,
      fun h2 hs => ⟨_, exec_spoolPair_cases h hj, ?pairs⟩, fun h5 => ⟨_, exec_spoolPair_cases h hj, ?pairPaired⟩⟩,
    fun h hj => ⟨fun h0 => ⟨_, exec_spoolOpen_cases h hj, ?openAbsent⟩, fun h5 hs => ⟨_, exec_spoolOpen_cases h hj, ?opens⟩,
      fun h7 => ⟨_, { x with phase := 1 }, exec_spoolOpen_cases h hj, ?openWaits⟩,
      fun h8 => ⟨_, exec_spoolOpen_cases h hj, ?openProbes⟩⟩,
    fun h => ⟨fun h6 => ⟨_, exec_spoolClose_closes h h6, ?closes⟩, fun h6 => ⟨_, exec_spoolClose_refused h h6, ?closeRefused⟩⟩,
    fun h hr => ⟨fun hk => ⟨_, exec_spoolRespool_refused h hr hk, ?respoolRefused⟩,
      fun h6 h0 ho => ⟨_, exec_spoolRespool_promotes h hr (by simp [respoolKind, h6, h0, ho]), ?promotes⟩,
      fun h6 h1 ho ho0 hro hfree =>
        ⟨_, { job := j, srcB := x.port = .b, step := 0, merge := false },
          exec_spoolRespool_moves h hr (by simp [respoolKind, h6, h1, ho, ho0]) hro hfree, ?moves⟩⟩⟩
  all_goals have hx := State.cmdJob_job? h
  case status => exact ⟨State.settle_endedWith (State.done_ends s j x _ hx hc), by simp⟩
  case pairAbsent =>
    rw [if_pos h0]
    exact State.doneErr_settled_ends hx _ _
  case pairForeign =>
    rw [if_neg (by omega), if_pos (by simpa using h34)]
    exact State.doneErr_settled_ends hx _ _
  case pairs =>
    obtain ⟨-, -, hshake, hflight⟩ := s.startShake_port x.port true (some j)
    obtain ⟨hpairing, hjob⟩ := s.startShake_owner x.port true (some j)
    rw [if_neg (by omega), if_neg (by simp [h2]), if_pos (by simp [h2, hs])]
    simp only [State.settle_port]
    exact ⟨hshake, hpairing, hjob, hflight⟩
  case pairPaired =>
    rw [if_neg (by omega), if_neg (by simp; omega), if_neg (by simp; omega)]
    exact ⟨State.doneErr_settled_ends hx _ _, by simp⟩
  case openAbsent =>
    rw [if_pos h0]
    exact State.doneErr_settled_ends hx _ _
  case opens =>
    obtain ⟨-, -, hshake, -⟩ := (s.waitPhase j 2).startShake_port x.port false (some j)
    obtain ⟨hpairing, hjob⟩ := (s.waitPhase j 2).startShake_owner x.port false (some j)
    rw [if_neg (by omega), if_pos (by simp [h5, hs])]
    simp only [State.settle_port]
    exact ⟨hshake, hpairing, hjob⟩
  case openWaits =>
    rw [if_neg (by omega), if_neg (by simp [h7]), if_neg (by simp [h7]), if_neg (by omega), if_pos h7]
    have hstage := State.cmdJob_stage h
    exact ⟨(State.settle_job? _ _).trans (State.waitPhase_job? hx), hstage, rfl, by simp⟩
  case openProbes =>
    rw [if_neg (by omega), if_neg (by simp [h8]), if_neg (by simp [h8]), if_pos h8]
    simp
  case closes =>
    have hsome := State.respoolAbort_job?_isSome (s := s) (by rw [hx]; rfl) 0x0701
    obtain ⟨y, hy⟩ := Option.isSome_iff_exists.1 hsome
    have hclosing := (State.job?_of_jobs ((s.respoolAbort 0x0701).closing_jobs x.port) j).trans hy
    refine ⟨State.done_nil_ends hclosing, ?_⟩
    rw [State.settle_port, State.port_of_spl (s := (s.respoolAbort 0x0701).closing x.port) (by simp), State.closing_port_state]
  case closeRefused => exact ⟨State.doneErr_settled_ends hx _ _, by simp⟩
  case respoolRefused => exact ⟨State.doneErr_settled_ends hx _ _, by simp⟩
  case promotes =>
    have htraffic := (s.promoted x.port).coalesceAt_onlyTraffic x.port .role
    have hpromoted : (s.promoted x.port).jobs = s.jobs ∧ ((s.promoted x.port).port x.port).role = 1 := by
      cases x.port <;> exact ⟨rfl, rfl⟩
    obtain ⟨hjobs, hrole⟩ := hpromoted
    refine ⟨State.done_nil_ends ((State.job?_of_jobs (htraffic.jobs.trans hjobs) j).trans hx), ?_, ?_⟩
    · rw [State.settle_port, State.port_of_spl (s := (s.promoted x.port).coalesceAt x.port .role) (by simp),
        (htraffic.port x.port).2, hrole]
    · rw [State.settle_vigil, (State.done_frame _ j []).2.2.2.2.1, htraffic.vigil]
      rfl
  case moves =>
    obtain ⟨hrespool, hroles⟩ := s.respoolListing_keeps j x.port
    obtain ⟨hsource, htarget⟩ := s.respoolBegun_roles j x.port
    rw [State.settle_port, State.settle_port, State.settle_spl]
    refine ⟨hrespool, rfl, ?_, rfl, (hroles _).trans hsource, (hroles _).trans htarget, State.askSpl_asks _ _ _⟩
    cases x.port <;> rfl

end Sys2Proof.Machine
end

section
/-! PROOFS. The key store (chapter 5): what is read of a key after one is set, changed or reserved, that the end of a job takes no slot and
no job away, and the events of O28. -/

namespace Sys2Proof.Machine

/-! ## Reading keys -/

theorem State.key?_of_kst {s t : State} (h : t.kst = s.kst) (i : Nat) : t.key? i = s.key? i := by simp [State.key?, h]

@[simp] theorem State.settle_key? (s : State) (i : Nat) : s.settle.key? i = s.key? i := State.key?_of_kst (by simp) i

@[simp] theorem State.dlRemove_key? (s : State) (l : Nat) (c : Instr) (i : Nat) : (s.dlRemove l c).key? i = s.key? i :=
  State.key?_of_kst (by simp) i

@[simp] theorem State.modJob_key? (s : State) (j : Nat) (f : Job → Job) (i : Nat) : (s.modJob j f).key? i = s.key? i :=
  State.key?_of_kst (by simp) i

@[simp] theorem State.setJob_key? (s : State) (j : Nat) (x : Job) (i : Nat) : (s.setJob j x).key? i = s.key? i := rfl

@[simp] theorem State.freeUnits_key? (s : State) (j : Nat) (b : Bool) (i : Nat) : (s.freeUnits j b).key? i = s.key? i :=
  State.key?_of_kst (by simp) i

@[simp] theorem State.done_key? (s : State) (j : Nat) (r : Bytes) (i : Nat) : (s.done j r).key? i = s.key? i :=
  State.key?_of_kst (by simp) i

theorem State.setKey_key?_ne (s : State) {i slot : Nat} (k : KeyObj) (h : i ≠ slot) : (s.setKey slot k).key? i = s.key? i :=
  Tbl.get?_insert_ne _ _ h

/-- A key is changed if it is the one meant. -/
theorem State.modKey_key? (s : State) (slot uid : Nat) (f : KeyObj → KeyObj) :
    (s.modKey slot uid f).key? slot = (s.key? slot).map (fun k => if k.uid = uid then f k else k) := by
  unfold State.modKey
  split
  · next k hk =>
    split
    · next hu => simp [hk, hu]
    · next hu => rw [hk, Option.map_some, if_neg hu]; exact hk
  · next hk => rw [hk]; exact hk

theorem State.modKey_key?_ne (s : State) {i slot : Nat} (uid : Nat) (f : KeyObj → KeyObj) (h : i ≠ slot) :
    (s.modKey slot uid f).key? i = s.key? i := by
  unfold State.modKey
  split
  · split
    · exact s.setKey_key?_ne _ h
    · rfl
  · rfl

/-- What a change of keys keeps of every key, a change of the one meant keeps of all. -/
theorem State.modKey_kept {α : Type} (p : KeyObj → α) (s : State) (slot uid : Nat) {f : KeyObj → KeyObj} (h : ∀ k, p (f k) = p k)
    (i : Nat) : ((s.modKey slot uid f).key? i).map p = (s.key? i).map p := by
  by_cases hi : i = slot
  · subst hi
    rw [State.modKey_key?, Option.map_map]
    congr 1
    funext k
    by_cases hu : k.uid = uid <;> simp [hu, h]
  · rw [s.modKey_key?_ne uid f hi]

/-! ## A job that leaves the pipeline changes counts of its key only -/

/-- A key but for what a job that ends before it computes gives back: the uses reserved, an index burned, the tree it was building. -/
def KeyObj.beyondCounts (k : KeyObj) : KeyObj := { k with reserved := 0, burned := 0, tree := none }

theorem State.unreserve_beyondCounts (s : State) (j i : Nat) :
    ((s.unreserve j).key? i).map KeyObj.beyondCounts = (s.key? i).map KeyObj.beyondCounts := by
  unfold State.unreserve
  split
  · split
    · rw [State.setJob_key?]
      exact s.modKey_kept KeyObj.beyondCounts _ _ (by intro; rfl) i
    · rfl
  · rfl

theorem State.burn_beyondCounts (s : State) (j i : Nat) :
    ((s.burn j).key? i).map KeyObj.beyondCounts = (s.key? i).map KeyObj.beyondCounts := by
  unfold State.burn
  split
  · split
    · rw [State.setJob_key?]
      exact s.modKey_kept KeyObj.beyondCounts _ _ (by intro; rfl) i
    · rfl
  · rfl

theorem State.refuse_beyondCounts (s : State) (j m d r i : Nat) :
    ((s.refuse j m d r).key? i).map KeyObj.beyondCounts = (s.key? i).map KeyObj.beyondCounts := by
  unfold State.refuse
  split
  · rfl
  · rw [State.modJob_key?, State.freeUnits_key?, State.burn_beyondCounts, State.unreserve_beyondCounts]
    exact congrArg _ (State.key?_of_kst (by simp) i)

theorem State.each_refuse_beyondCounts (s : State) (l : List Nat) (m d r i : Nat) :
    ((s.each l (fun s j => s.refuse j m d r)).key? i).map KeyObj.beyondCounts = (s.key? i).map KeyObj.beyondCounts :=
  State.each_kept (fun s => (s.key? i).map KeyObj.beyondCounts) l _ (fun s j => s.refuse_beyondCounts j m d r i) s

/-- A key read after such changes is the one before, but for those counts. -/
theorem KeyObj.of_beyondCounts {o : Option KeyObj} {k : KeyObj} (h : o.map KeyObj.beyondCounts = some k.beyondCounts) :
    ∃ n b w, o = some { k with reserved := n, burned := b, tree := w } := by
  obtain ⟨y, rfl, hy⟩ := Option.map_eq_some_iff.1 h
  refine ⟨y.reserved, y.burned, y.tree, congrArg some ?_⟩
  cases k
  cases y
  simp only [KeyObj.beyondCounts, KeyObj.mk.injEq] at hy ⊢
  simp [hy]

/-! ## KEY_FETCH_COMPLETE (R130, R170) -/

theorem exec_keyFetchComplete (j : Nat) (b : Bool) (s : State) : exec (.keyFetchComplete j b) s = execKeyFetchComplete j b s := rfl

section
variable {s : State} {j slot : Nat} {x : Job} {k : KeyObj}

/-- A job with one key, which is still in its slot, waits for the material of that key alone. -/
theorem State.waited_key (hx : x.key = some (slot, k)) (h2 : x.key2 = none) (hk : s.key? slot = some k) :
    s.waited x = [(slot, k)] := by
  simp [State.waited, hx, h2, hk]

/-- A miss whose material was in HBM is counted (R483). -/
def State.missCounted (s : State) : State := { s with kst := { s.kst with cntMissHbm := satInc s.kst.cntMissHbm } }

/-- A symmetric key has no embedded hash: the fetch counts, and the job goes on at S3. -/
theorem exec_keyFetchComplete_symmetric (hj : s.job? j = some x) (hx : x.key = some (slot, k)) (h2 : x.key2 = none)
    (hf : x.fetching = false) (hst : x.stage = .waiting .cache) (hk : s.key? slot = some k) (ht : k.inTable = true)
    (hs : k.type < 0x10) (b : Bool) : exec (.keyFetchComplete j b) s = .next
      ((s.missCounted.leaveS3 j).modJob j (fun x => { x with stage := .s3, fKeyFetched := true })).settle := by
  have hh : hashedKem k.type = false := by simp [hashedKem]; omega
  simp only [exec_keyFetchComplete, execKeyFetchComplete, finish, hj, hx, hf, hst, hk, State.missCounted]
  simp [hh, State.waited_key hx h2 hk, hk, KeyObj.atHand, ht]

/-- An ML-KEM key whose embedded hash fails is UNUSABLE, and its job is refused. -/
theorem exec_keyFetchComplete_spoiled (hj : s.job? j = some x) (hx : x.key = some (slot, k)) (h2 : x.key2 = none)
    (hst : x.stage = .waiting .cache) (hk : s.key? slot = some k) (ht : k.inTable = true)
    (hlo : 0x10 ≤ k.type) (hhi : k.type ≤ 0x12) : exec (.keyFetchComplete j false) s = .next
      ((s.modKey slot k.uid (fun k => { k with unusable := true })).refuse j integrityErr 0x0201 0).settle := by
  have hh : hashedKem k.type = true := by simp [hashedKem, hlo, hhi]
  simp only [exec_keyFetchComplete, execKeyFetchComplete, finish, hj, hx, hst, hk]
  simp [hh, State.waited_key hx h2 hk, hk, KeyObj.atHand, ht]

/-! ## KEY_EXPIRY, HBM_UNCORRECTABLE_ERROR (R125, R131, R485) -/

theorem exec_keyExpiry (owner index : Nat) (s : State) : exec (.keyExpiry owner index) s = execKeyExpiry owner index s := rfl

theorem exec_keyExpiry_expired {owner index : Nat} (hk : s.key? (keySlot owner index) = some k)
    (h0 : k.policy.notAfter ≠ 0xFFFFFFFF) (hn : k.policy.notAfter ≤ s.glb.ptcLife.toNat) : exec (.keyExpiry owner index) s = .next
      ((s.setKey (keySlot owner index) { k with expired := true }).dlRemove 4 (.keyExpiry owner index)).settle := by
  simp [exec_keyExpiry, execKeyExpiry, finish, hk, h0, hn]

theorem exec_hbmUncorrectableError (owner index a : Nat) (s : State) :
    exec (.hbmUncorrectableError owner index a) s = execHbmUncorrectableError owner index a s := rfl

/-- The error is counted, the key is UNUSABLE, and each of some jobs is refused. -/
theorem exec_hbmUncorrectableError_refuses {owner index : Nat} (hk : s.key? (keySlot owner index) = some k) (a : Nat) :
    ∃ (u : State) (l : List Nat), exec (.hbmUncorrectableError owner index a) s =
        .next ((u.setKey (keySlot owner index) { k with unusable := true }).each l
          (fun s j => s.refuse j integrityErr 0x0141 0)).settle ∧ u.hbm.unc = satInc s.hbm.unc := by
  simp only [exec_hbmUncorrectableError, execHbmUncorrectableError, finish]
  split
  · next hn => exact absurd (hk.symm.trans hn) (by simp)
  · next y hy =>
    obtain rfl := Option.some.inj (hk.symm.trans hy)
    exact ⟨_, _, rfl, rfl⟩

end

/-! ## PERSIST_REBUILD, HBM_CORRECTED_ERROR (R292, R485, R488) -/

theorem exec_persistRebuild (r : Option KeyRecord) (s : State) : exec (.persistRebuild r) s = execPersistRebuild r s := rfl

/-- The table in which a rebuild has made room for the header of the record's key, and the free number and place it took. -/
def State.rebuildRoom (s : State) (r : KeyRecord) : State × Option (List Nat) × Nat :=
  let (n, s) := if r.indexRec.isSome then s.freeNum else (0, s)
  let (s, a) := s.makeRoom [1] s.kst.keys.length
  (s, a, n)

/-- The state in which a KEY record has given its slot back. -/
def State.rebuilt (s : State) (r : KeyRecord) : State :=
  let u := (s.rebuildRoom r).1
  let slot := keySlot r.id.owner r.index
  let k : KeyObj := { rebuiltKey r u.kst.nextUid (((s.rebuildRoom r).2.1.bind (·.head?)).getD 0) (s.rebuildRoom r).2.2 with
    savedAway := u.kst.frozenRecs.contains r.id.recno }
  { u with kst := { u.kst with
      keys := u.kst.keys.insert slot k, nextUid := u.kst.nextUid + 1
      epoch := u.kst.epoch.put 0 slot (BitVec.ofNat 4 r.epoch), claimed := u.kst.claimed.erase slot } }

/-- A KEY record gives its claimed slot back; jobs that waited for it are refused or go back to S3. -/
theorem exec_persistRebuild_record {s : State} {r : KeyRecord} (hr : s.kst.rebuild = true)
    (hc : (s.kst.claimed.get? (keySlot r.id.owner r.index)).isSome) : ∃ l l' : List Nat, exec (.persistRebuild (some r)) s = .next
      (((((s.rebuilt r).armExpiry (keySlot r.id.owner r.index)).sawRecord r.id).each l
        (fun s j => s.refuse j integrityErr 0x0701 0)).each l'
          (fun s j => (s.leaveS3 j).modJob j (fun x => { x with stage := .s3 }))).settle := by
  have hn : ¬ (s.kst.claimed.get? (keySlot r.id.owner r.index)).isNone = true := by simp [Option.isSome_iff_ne_none.1 hc]
  simp only [exec_persistRebuild, execPersistRebuild, finish, hr, Bool.not_true, Bool.false_eq_true, if_false, hn]
  by_cases ht : r.tagOk
  · exact ⟨[], _, by simp only [ht, if_true]; rfl⟩
  · exact ⟨_, _, by simp only [ht, Bool.false_eq_true, if_false]; rfl⟩

/-- An expiry timer is the deadline list's affair alone. -/
theorem State.armExpiry_kept (s : State) (slot : Nat) :
    ((s.armExpiry slot).kst, (s.armExpiry slot).jobs, (s.armExpiry slot).spl) = (s.kst, s.jobs, s.spl) := by
  unfold State.armExpiry
  extract_lets c t
  have ht : (t.kst, t.jobs, t.spl) = (s.kst, s.jobs, s.spl) := by simp [t]
  split
  · exact ht
  · split
    · exact ht
    · simpa using ht

@[simp] theorem State.armExpiry_kst (s : State) (slot : Nat) : (s.armExpiry slot).kst = s.kst :=
  congrArg (·.1) (s.armExpiry_kept slot)

@[simp] theorem State.armExpiry_jobs (s : State) (slot : Nat) : (s.armExpiry slot).jobs = s.jobs :=
  congrArg (·.2.1) (s.armExpiry_kept slot)

@[simp] theorem State.armExpiry_spl (s : State) (slot : Nat) : (s.armExpiry slot).spl = s.spl :=
  congrArg (·.2.2) (s.armExpiry_kept slot)

@[simp] theorem State.sawRecord_kst (s : State) (id : SpoolRec) : (s.sawRecord id).kst = s.kst := by
  unfold State.sawRecord State.modPort
  split <;> simp

@[simp] theorem State.unreserve_epoch (s : State) (j : Nat) : (s.unreserve j).kst.epoch = s.kst.epoch := by
  unfold State.unreserve State.modKey
  (repeat' split) <;> rfl

@[simp] theorem State.burn_epoch (s : State) (j : Nat) : (s.burn j).kst.epoch = s.kst.epoch := by
  unfold State.burn State.modKey
  (repeat' split) <;> rfl

@[simp] theorem State.refuse_epoch (s : State) (j m d r : Nat) : (s.refuse j m d r).kst.epoch = s.kst.epoch := by
  unfold State.refuse
  split <;> simp

/-- Going back to S3 leaves the key store. -/
theorem State.each_toS3_kst (s : State) (l : List Nat) :
    (s.each l (fun s j => (s.leaveS3 j).modJob j (fun x => { x with stage := .s3 }))).kst = s.kst :=
  State.each_kept State.kst l _ (by simp) s

/-- The rebuilt key: its material is still on the spool. -/
theorem State.rebuilt_key? (s : State) (r : KeyRecord) : ∃ k, (s.rebuilt r).key? (keySlot r.id.owner r.index) = some k ∧
    k.mat = r.form ∧ k.inTable = false ∧ k.spoolRec = some (r.id.recno, r.id.version) ∧ k.unusable = !r.tagOk :=
  ⟨_, Tbl.get?_insert_self _ _ _, rfl, rfl, rfl, rfl⟩

theorem State.rebuilt_epoch (s : State) (r : KeyRecord) :
    (s.rebuilt r).kst.epoch.getD (keySlot r.id.owner r.index) 0 = BitVec.ofNat 4 r.epoch := Tbl.getD_put_self _ _ _ _

/-! ## The statement settled -/

/-- Settles O28, event by event. -/
theorem keyStoreEvents : Obligations.KeyStoreEvents := by
  unfold Obligations.KeyStoreEvents
  refine ⟨fun s owner index k hk => ⟨fun j x b hj hx h2 hf hst ht => ⟨fun hs => ?symmetric, fun hlo hhi => ?spoiled⟩,
    fun h0 hn => ?expires, fun a => ?uncorrectable⟩, fun s => ⟨fun r hr hc => ?record, fun ht => ?corrected, fun hr => ?ends⟩⟩
  case symmetric =>
    have hj' : s.missCounted.job? j = some x := hj
    refine ⟨_, { x with stage := .s3, fKeyFetched := true }, exec_keyFetchComplete_symmetric hj hx h2 hf hst hk ht hs b, ?_, rfl, rfl,
      ?_⟩
    · rw [State.settle_job?, State.modJob_job?, State.leaveS3_job?, hj']
      rfl
    · simp [State.missCounted]
  case spoiled =>
    have hj' : (s.modKey (keySlot owner index) k.uid (fun k => { k with unusable := true })).job? j = some x :=
      (State.job?_of_jobs (by simp) j).trans hj
    obtain ⟨y, hy, hstage, hmajor, hdetail, hlen, hres, -⟩ := State.refuse_ends (m := integrityErr) (d := 0x0201) (r := 0) hj'
    exact ⟨_, exec_keyFetchComplete_spoiled hj hx h2 hst hk ht hlo hhi,
      State.settle_ended ⟨y, hy, hstage, hmajor, hdetail, hlen, hres⟩⟩
  case expires => exact ⟨_, exec_keyExpiry_expired hk h0 hn, by simp, by simp⟩
  case uncorrectable =>
    obtain ⟨u, l, hrun, hunc⟩ := exec_hbmUncorrectableError_refuses hk a
    have hkey := State.each_refuse_beyondCounts (u.setKey (keySlot owner index) { k with unusable := true }) l integrityErr 0x0141 0
      (keySlot owner index)
    rw [State.key?_setKey] at hkey
    obtain ⟨n, b, w, hy⟩ := KeyObj.of_beyondCounts hkey
    refine ⟨_, hrun, ?_, _, (State.settle_key? _ _).trans hy, rfl, rfl⟩
    rw [State.settle_hbm, State.each_kept State.hbm l _ (by simp)]
    exact hunc
  case record =>
    obtain ⟨l, l', hrun⟩ := exec_persistRebuild_record hr hc
    obtain ⟨k, hk, hmat, hin, hrec, hun⟩ := s.rebuilt_key? r
    have hkept := State.each_refuse_beyondCounts (((s.rebuilt r).armExpiry (keySlot r.id.owner r.index)).sawRecord r.id) l integrityErr
      0x0701 0 (keySlot r.id.owner r.index)
    rw [State.key?_of_kst (State.sawRecord_kst _ r.id), State.key?_of_kst (State.armExpiry_kst _ _), hk] at hkept
    obtain ⟨n, b, w, hy⟩ := KeyObj.of_beyondCounts hkept
    refine ⟨_, { k with reserved := n, burned := b, tree := w }, hrun, ?_, hmat, hin, hrec, hun, ?_⟩
    · rw [State.settle_key?, State.key?_of_kst (State.each_toS3_kst _ l')]
      exact hy
    · rw [State.settle_kst, State.each_toS3_kst, State.each_kept (fun s : State => s.kst.epoch) l _ (by simp)]
      simpa using s.rebuilt_epoch r
  case corrected => simp [exec, execHbmCorrectedError, finish, ht]
  case ends => simp [exec_persistRebuild, execPersistRebuild, finish, hr]

end Sys2Proof.Machine
end

section
/-! PROOFS. Commands on a key (R127, R134, R149, R151): that the destruction of a key takes its slot and no other, KEY_PUBLIC, KEY_INFO,
KEY_POLICY, KEY_DESTROY and KEY_PURGE. -/

namespace Sys2Proof

theorem Tbl.get?_isSome_of_mem {α : Type} {t : Tbl α} {e : Nat × α} (h : e ∈ t) : (Tbl.get? t e.1).isSome := by
  induction t with
  | nil => exact absurd h (by simp)
  | cons a t ih =>
    by_cases he : e.1 = a.1
    · simp [Tbl.get?, he]
    · have ht : e ∈ t := (List.mem_cons.1 h).resolve_left (fun hea => he (congrArg Prod.fst hea))
      simpa [Tbl.get?, he] using ih ht

theorem Tbl.get?_keep_of_false {α : Type} {t : Tbl α} {p : Nat → α → Bool} {i : Nat} (h : ∀ x, p i x = false) :
    Tbl.get? (Tbl.keep t p) i = none := by
  cases hg : Tbl.get? (Tbl.keep t p) i with
  | none => rfl
  | some x =>
    have hx : p i x = true := (List.mem_filter.1 (Tbl.mem_of_get? hg)).2
    rw [h x] at hx
    exact absurd hx (by simp)

namespace Machine

/-! ## What takes no slot and no job away -/

/-- The slots taken, their EPOCH and the jobs in the device are those before. -/
structure State.KeepsSlots (s t : State) : Prop where
  slots : ∀ i, (t.key? i).isSome = (s.key? i).isSome
  jobs : ∀ i, (s.job? i).isSome → (t.job? i).isSome
  epoch : t.kst.epoch = s.kst.epoch

section
variable {s t u : State}

theorem State.KeepsSlots.trans (h : s.KeepsSlots t) (g : t.KeepsSlots u) : s.KeepsSlots u :=
  ⟨fun i => (g.slots i).trans (h.slots i), fun i hi => g.jobs i (h.jobs i hi), g.epoch.trans h.epoch⟩

theorem State.KeepsSlots.of_kst (hk : t.kst = s.kst) (hj : ∀ i, (s.job? i).isSome → (t.job? i).isSome) : s.KeepsSlots t :=
  ⟨fun i => by rw [State.key?_of_kst hk], hj, by rw [hk]⟩

theorem State.KeepsSlots.of_jobs (hk : t.kst = s.kst) (hj : t.jobs = s.jobs) : s.KeepsSlots t :=
  .of_kst hk (fun i hi => by rwa [State.job?_of_jobs hj])

end

theorem State.setKey_keepsSlots {s : State} {slot : Nat} (h : (s.key? slot).isSome) (k : KeyObj) :
    s.KeepsSlots (s.setKey slot k) := by
  refine ⟨fun i => ?_, fun i hi => hi, rfl⟩
  by_cases hi : i = slot
  · rw [hi, State.key?_setKey, h]
    rfl
  · rw [s.setKey_key?_ne k hi]

theorem State.modKey_keepsSlots (s : State) (slot uid : Nat) (f : KeyObj → KeyObj) : s.KeepsSlots (s.modKey slot uid f) := by
  unfold State.modKey
  split
  · next k hk =>
    split
    · exact State.setKey_keepsSlots (by simp [hk]) _
    · exact ⟨fun i => rfl, fun i hi => hi, rfl⟩
  · exact ⟨fun i => rfl, fun i hi => hi, rfl⟩

theorem State.setJob_keepsSlots (s : State) (j : Nat) (x : Job) : s.KeepsSlots (s.setJob j x) := by
  refine .of_kst rfl (fun i hi => ?_)
  by_cases hij : i = j
  · simp [hij]
  · rwa [s.job?_setJob_ne x hij]

theorem State.modJob_keepsSlots (s : State) (j : Nat) (f : Job → Job) : s.KeepsSlots (s.modJob j f) := by
  unfold State.modJob
  split
  · exact .of_jobs rfl rfl
  · exact s.setJob_keepsSlots j _

theorem State.unreserve_keepsSlots (s : State) (j : Nat) : s.KeepsSlots (s.unreserve j) := by
  unfold State.unreserve
  split
  · split
    · exact (s.modKey_keepsSlots _ _ _).trans (State.setJob_keepsSlots _ j _)
    · exact .of_jobs rfl rfl
  · exact .of_jobs rfl rfl

theorem State.endShadow_keepsSlots (s : State) (j : Nat) : s.KeepsSlots (s.endShadow j) := by
  unfold State.endShadow
  split
  · next slot k hfind =>
    split
    · exact (State.setKey_keepsSlots (Tbl.get?_isSome_of_mem (List.mem_of_find?_eq_some hfind)) k.replDone).trans
        (.of_jobs (by simp) (by simp))
    · exact .of_jobs rfl rfl
  · exact .of_jobs rfl rfl

theorem State.doneErr_keepsSlots (s : State) (j m d : Nat) : s.KeepsSlots (s.doneErr j m d) := by
  unfold State.doneErr
  split
  · exact .of_jobs rfl rfl
  · exact (s.endShadow_keepsSlots j).trans (.trans (.of_jobs (by simp) (by simp))
      ((State.unreserve_keepsSlots _ j).trans (State.modJob_keepsSlots _ j _)))

/-- Replacements that complete free halves, no slots. -/
theorem State.keySettle_keepsSlots (s : State) : s.KeepsSlots s.keySettle := by
  unfold State.keySettle
  extract_lets _ t
  have hstart : s.KeepsSlots t := ⟨fun i => rfl, fun i hi => hi, rfl⟩
  refine List.foldlRecOn t.kst.keys _ hstart (fun u hu e he => ?_)
  have hsome : (u.key? e.1).isSome := (hu.slots e.1).trans (Tbl.get?_isSome_of_mem (t := s.kst.keys) he)
  split
  · split
    · exact hu.trans ((State.setKey_keepsSlots hsome _).trans (State.modJob_keepsSlots _ _ _))
    · exact hu
  · exact hu

/-! ## The destruction of a key (R149) -/

theorem State.destroyKey_of_none {s : State} {slot : Nat} (h : s.key? slot = none) : s.destroyKey slot = s := by
  simp [State.destroyKey, h]

/-- The directory without a key: its slot is free and has the next EPOCH. -/
def State.slotFreed (s : State) (slot : Nat) : State :=
  { s with kst := { s.kst with keys := s.kst.keys.erase slot, epoch := s.kst.epoch.put 0 slot (s.epochOf slot + 1) } }

/-- A destruction frees its slot; beside that it keeps slots and jobs. -/
theorem State.destroyKey_keepsSlots {s : State} {slot : Nat} {k : KeyObj} (h : s.key? slot = some k) :
    (s.slotFreed slot).KeepsSlots (s.destroyKey slot) := by
  unfold State.destroyKey
  split
  · next hn => exact absurd (h.symm.trans hn) (by simp)
  next y hy =>
  obtain rfl := Option.some.inj (h.symm.trans hy)
  extract_lets e t _ t1 t2 t3 t4
  have h1 : (s.slotFreed slot).KeepsSlots t1 := ⟨fun i => rfl, fun i hi => hi, rfl⟩
  have h2 : t1.KeepsSlots t2 := .of_jobs rfl rfl
  have h3 : t2.KeepsSlots t3 := by
    show t2.KeepsSlots (match k.repl with | some r => t2.doneErr r.job conflictErr 0x0141 | none => t2)
    split
    · exact State.doneErr_keepsSlots _ _ _ _
    · exact .of_jobs rfl rfl
  have h4 : t3.KeepsSlots t4 := by
    show t3.KeepsSlots (if _ then t3.plySend _ else t3)
    split <;> exact .of_jobs rfl rfl
  exact h1.trans (h2.trans (h3.trans (h4.trans t4.keySettle_keepsSlots)))

theorem State.destroyKey_key? {s : State} {slot : Nat} {k : KeyObj} (h : s.key? slot = some k) :
    (s.destroyKey slot).key? slot = none :=
  Option.isNone_iff_eq_none.1 (by
    rw [← Option.not_isSome, (State.destroyKey_keepsSlots h).slots slot, State.slotFreed, State.key?, Tbl.get?_erase_self]
    rfl)

theorem State.destroyKey_epoch {s : State} {slot : Nat} {k : KeyObj} (h : s.key? slot = some k) :
    (s.destroyKey slot).kst.epoch.getD slot 0 = s.kst.epoch.getD slot 0 + 1 := by
  rw [(State.destroyKey_keepsSlots h).epoch]
  exact Tbl.getD_put_self _ _ _ _

/-- No destruction takes a slot, and no job leaves the device with it. -/
theorem State.destroyKey_takes_none (s : State) (slot : Nat) :
    (∀ i, s.key? i = none → (s.destroyKey slot).key? i = none) ∧
      ∀ i, (s.job? i).isSome → ((s.destroyKey slot).job? i).isSome := by
  cases h : s.key? slot with
  | none => rw [State.destroyKey_of_none h]; exact ⟨fun i hi => hi, fun i hi => hi⟩
  | some k =>
    refine ⟨fun i hi => ?_, (State.destroyKey_keepsSlots h).jobs⟩
    have hne : i ≠ slot := fun he => absurd (he ▸ hi) (by simp [h])
    rw [← Option.isNone_iff_eq_none, ← Option.not_isSome, (State.destroyKey_keepsSlots h).slots i, State.slotFreed, State.key?,
      Tbl.get?_erase_ne _ hne]
    simpa [State.key?] using hi

theorem State.each_destroyKey (l : List Nat) (s : State) :
    (∀ i, s.key? i = none ∨ i ∈ l → (s.each l State.destroyKey).key? i = none) ∧
      ∀ i, (s.job? i).isSome → ((s.each l State.destroyKey).job? i).isSome := by
  induction l generalizing s with
  | nil => exact ⟨fun i hi => hi.resolve_right (by simp), fun i hi => hi⟩
  | cons a l ih =>
    obtain ⟨hkeys, hjobs⟩ := ih (s.destroyKey a)
    obtain ⟨hnone, hstay⟩ := s.destroyKey_takes_none a
    refine ⟨fun i hi => hkeys i ?_, fun i hi => hjobs i (hstay i hi)⟩
    rcases hi with hi | hi
    · exact .inl (hnone i hi)
    · rcases List.mem_cons.1 hi with rfl | hi
      · cases h : s.key? i with
        | none => exact .inl (hnone i h)
        | some k => exact .inl (State.destroyKey_key? h)
      · exact .inr hi

/-! ## KEY_PURGE (R151) -/

theorem exec_keyPurge (j : Nat) (s : State) : exec (.keyPurge j) s = execKeyPurge j s := rfl

/-- The slots of a strand's keys. -/
def State.slotsOf (s : State) (f : Nat) : List Nat := (s.kst.keys.filter (fun e => e.1 / 262144 = f)).map (·.1)

/-- The key store that KEY_PURGE leaves of a strand. -/
def State.purged (s : State) (f : Nat) : State :=
  let s := s.each (s.slotsOf f) State.destroyKey
  let s : State := { s with kst := { s.kst with
    epoch := (s.kst.claimed.keep (fun i _ => i / 262144 == f)).foldl (fun t e => Tbl.put t 0 e.1 (e.2 + 1)) s.kst.epoch
    claimed := s.kst.claimed.keep (fun i _ => i / 262144 != f)
    quarantine := s.kst.quarantine.keep (fun i _ => i / 262144 != f) } }
  s.wipeWarm (fun i => i / 262144 = f)

theorem State.purged_key? (s : State) {f slot : Nat} (h : slot / 262144 = f) : (s.purged f).key? slot = none := by
  refine (s.each_destroyKey (s.slotsOf f)).1 slot ?_
  cases hk : s.key? slot with
  | none => exact .inl rfl
  | some k =>
    refine .inr (List.mem_map.2 ⟨(slot, k), List.mem_filter.2 ⟨Tbl.mem_of_get? hk, ?_⟩, rfl⟩)
    exact decide_eq_true h

theorem State.purged_quarantine (s : State) {f slot : Nat} (h : slot / 262144 = f) :
    (s.purged f).kst.quarantine.getD slot false = false := by
  unfold State.purged
  rw [Tbl.getD, State.wipeWarm, Tbl.get?_keep_of_false (fun _ => by simp [h])]
  rfl

theorem State.purged_job? {s : State} {i : Nat} (h : (s.job? i).isSome) (f : Nat) : ((s.purged f).job? i).isSome :=
  (s.each_destroyKey (s.slotsOf f)).2 i h

section
variable {s : State} {j : Nat} {x : Job}

theorem exec_keyPurge_not_enabled (h : s.cmdJob j 0x500C = some x) (hp : x.phase = 0)
    (hv : s.vfEnabled (fld x.param 0 10) = false) : exec (.keyPurge j) s = .next (s.doneErr j inputErr 0x0107).settle := by
  simp [exec_keyPurge, execKeyPurge, finish, h, hp, hv]

theorem exec_keyPurge_not_disabled (h : s.cmdJob j 0x500C = some x) (hp : x.phase = 0)
    (hv : s.vfEnabled (fld x.param 0 10) = true) (hd : (s.strand (fld x.param 0 10)).state ≠ .disabled) :
    exec (.keyPurge j) s = .next (s.doneErr j conflictErr 0x0103).settle := by
  simp [exec_keyPurge, execKeyPurge, finish, h, hp, hv, hd]

/-- No record of the strand is on the spool, so nothing waits for a tombstone. -/
theorem exec_keyPurge_purges (h : s.cmdJob j 0x500C = some x) (hp : x.phase = 0)
    (hv : s.vfEnabled (fld x.param 0 10) = true) (hd : (s.strand (fld x.param 0 10)).state = .disabled)
    (hk : ∀ e ∈ s.kst.keys, e.1 / 262144 = fld x.param 0 10 → e.2.policy.flag polPersist = false)
    (hc : ∀ e ∈ s.kst.claimed, e.1 / 262144 ≠ fld x.param 0 10) :
    exec (.keyPurge j) s = .next ((s.purged (fld x.param 0 10)).done j []).settle := by
  have hkeys : (s.kst.keys.filter (fun e => e.1 / 262144 = fld x.param 0 10)).filter (fun e => e.2.policy.flag polPersist) = [] := by
    rw [List.filter_filter, List.filter_eq_nil_iff]
    intro e he hb
    simp only [Bool.and_eq_true, decide_eq_true_eq] at hb
    exact absurd hb.1 (by simp [hk e he hb.2])
  have howed : s.kst.claimed.filter (fun e => e.1 / 262144 = fld x.param 0 10) = [] :=
    List.filter_eq_nil_iff.2 (fun e he hb => hc e he (of_decide_eq_true hb))
  simp only [exec_keyPurge, execKeyPurge, finish, h, hp, hv, hd, hkeys, howed]
  rfl

end

/-- Settles O25: without a key on the spool the strand's keys go at once. -/
theorem purgeLeavesNoKey : Obligations.PurgeLeavesNoKey := by
  unfold Obligations.PurgeLeavesNoKey
  intro s j x h hp hv hd hk hc
  obtain ⟨y, hy⟩ := Option.isSome_iff_exists.1
    (State.purged_job? (i := j) (s := s) (by rw [State.cmdJob_job? h]; rfl) (fld x.param 0 10))
  refine ⟨_, exec_keyPurge_purges h hp hv hd hk hc, State.done_nil_ends hy, fun slot hslot => ⟨?_, ?_⟩⟩
  · rw [State.settle_key?, State.done_key?]
    exact s.purged_key? hslot
  · simpa using s.purged_quarantine hslot

/-! ## KEY_PUBLIC, KEY_INFO, KEY_POLICY, KEY_DESTROY (R127, R134, R149) -/

theorem exec_keyPublic (j : Nat) (s : State) : exec (.keyPublic j) s = execKeyPublic j s := rfl
theorem exec_keyInfo (j : Nat) (s : State) : exec (.keyInfo j) s = execKeyInfo j s := rfl
theorem exec_keyPolicy (j : Nat) (s : State) : exec (.keyPolicy j) s = execKeyPolicy j s := rfl
theorem exec_keyDestroy (j : Nat) (s : State) : exec (.keyDestroy j) s = execKeyDestroy j s := rfl

theorem Policy.bytes_length (p : Policy) : p.bytes.length = 32 := by simp [Policy.bytes]

theorem slice_length (b : Bytes) (off n : Nat) : (slice b off n).length = n := by
  simp [slice]
  omega

theorem padTo_length (n : Nat) (b : Bytes) : (padTo n b).length = n := slice_length b 0 n

theorem State.headerBytes_length (s : State) (slot : Nat) (k : KeyObj) : (s.headerBytes slot k).length = 112 := by
  simp [State.headerBytes, Policy.bytes_length, padTo_length]

/-- A command that has computed nothing with its key: its output, and the use that was reserved for it is back. -/
theorem State.doneFree_ends {s : State} {j : Nat} {x : Job} (h : s.job? j = some x) {r : Bytes} (hr : r.length ≤ x.outCap) :
    (s.doneFree j r).settle.EndedWith j r := by
  obtain ⟨b, hb⟩ := State.unreserve_job? h
  exact State.settle_endedWith (State.done_ends _ j _ r hb hr)

theorem State.doneFree_kst (s : State) (j : Nat) (r : Bytes) : (s.doneFree j r).settle.kst = (s.unreserve j).kst := by
  simp [State.doneFree]

/-- The use that a job gives back depends on the jobs and the key store only. -/
theorem State.unreserve_kst_congr {s t : State} (hk : t.kst = s.kst) (hj : t.jobs = s.jobs) (j : Nat) :
    (t.unreserve j).kst = (s.unreserve j).kst := by
  unfold State.unreserve
  rw [State.job?_of_jobs hj]
  split
  · split
    · show (t.modKey _ _ _).kst = (s.modKey _ _ _).kst
      unfold State.modKey
      rw [State.key?_of_kst hk]
      split
      · split <;> simp [State.setKey, hk]
      · simp [hk]
    · exact hk
  · exact hk

section
variable {s : State} {j slot : Nat} {x : Job} {k : KeyObj}

theorem exec_keyPublic_answers (h : s.cmdJob j 0x5009 = some x) (hx : x.key = some (slot, k)) :
    exec (.keyPublic j) s = .next (s.doneFree j k.pub).settle := by
  simp only [exec_keyPublic, execKeyPublic, finish, h, hx]

theorem exec_keyInfo_answers (h : s.cmdJob j 0x500A = some x) (hx : x.key = some (slot, k)) (hk : s.key? slot = some k) :
    exec (.keyInfo j) s = .next (s.doneFree j (s.headerBytes slot k ++ leBytes 16 s.glb.ptcLife.toNat)).settle := by
  simp [exec_keyInfo, execKeyInfo, finish, h, hx, hk]

theorem State.keyOf_slot (hk : s.key? slot = some k) : s.keyOf slot k.uid = some k := by
  simp [State.keyOf, hk, Option.filter]

/-- A policy block that KEY_POLICY takes for a key: clean, one of the key's type, and no wider (R127). -/
def policyTaken (b : Bytes) (k : KeyObj) : Bool :=
  policyClean b && !(policyOf b).refused k.type (k.param.getD 0 0) && (policyOf b).narrows k.policy

theorem exec_keyPolicy_cases (h : s.cmdJob j 0x500B = some x) (hx : x.key = some (slot, k)) (hk : s.key? slot = some k) :
    exec (.keyPolicy j) s = .next (if policyTaken x.block k then
      ((s.setKey slot { k with policy := policyOf x.block }).armExpiry slot).doneFree j [] else s.doneErr j keyErr 0x0109).settle := by
  have hmod : s.modKey slot k.uid (fun k => { k with policy := policyOf x.block }) =
      s.setKey slot { k with policy := policyOf x.block } := by simp [State.modKey, hk]
  have hunfit : (!policyClean x.block || (policyOf x.block).refused k.type (k.param.getD 0 0) ||
      !(policyOf x.block).narrows k.policy) = !policyTaken x.block k := by simp only [policyTaken, Bool.not_and, Bool.not_not]
  simp only [exec_keyPolicy, execKeyPolicy, finish, h, hx, State.keyOf_slot hk, hmod, hunfit]
  cases policyTaken x.block k <;> rfl

theorem exec_keyPolicy_refused (h : s.cmdJob j 0x500B = some x) (hx : x.key = some (slot, k)) (hk : s.key? slot = some k)
    (ht : policyTaken x.block k = false) : ∃ t, exec (.keyPolicy j) s = .next t ∧ t.Ended j 0x03 0x0109 0 := by
  refine ⟨_, exec_keyPolicy_cases h hx hk, ?_⟩
  rw [ht]
  exact State.doneErr_settled_ends (State.cmdJob_job? h) _ _

theorem exec_keyDestroy_frees (h : s.cmdJob j 0x5008 = some x) (hp : x.phase = 0) (hx : x.key = some (slot, k))
    (hk : s.key? slot = some k) (hpol : k.policy.flag polPersist = false) :
    exec (.keyDestroy j) s = .next ((s.destroyKey slot).doneFree j []).settle := by
  simp [exec_keyDestroy, execKeyDestroy, finish, h, hp, hx, hk, hpol, State.doneFree]

end

/-- Settles O24, command by command. -/
theorem keyCommands : Obligations.KeyCommands := by
  unfold Obligations.KeyCommands
  intro s j slot x k hx
  refine ⟨fun h hout => ?answersPublic, fun h hk hout => ?answersInfo,
    fun h hk hclean hrefused => ⟨fun hn => ?narrower, fun hn => ?wider⟩,
    fun h hp hk hpol _ => ?destroy, fun h hk hbad => ?unfit, fun h hp hv => ?notEnabled, fun h hp hv hd => ?notDisabled⟩
  case answersPublic =>
    exact ⟨_, exec_keyPublic_answers h hx, State.doneFree_ends (State.cmdJob_job? h) hout, s.doneFree_kst j _, by simp [State.doneFree]⟩
  case answersInfo =>
    refine ⟨_, _, exec_keyInfo_answers h hx hk, State.doneFree_ends (State.cmdJob_job? h) ?_, rfl, s.doneFree_kst j _⟩
    simpa [State.headerBytes_length] using hout
  case narrower =>
    have htaken : policyTaken x.block k = true := by simp only [policyTaken, hclean, hrefused, hn, Bool.not_false, Bool.and_self]
    refine ⟨_, exec_keyPolicy_cases h hx hk, ?_⟩
    rw [if_pos htaken]
    refine ⟨State.doneFree_ends ((State.job?_of_jobs (by simp) j).trans (State.cmdJob_job? h)) (Nat.zero_le _), ?_⟩
    exact State.key?_of_kst ((State.doneFree_kst _ j []).trans (State.unreserve_kst_congr (by simp) (by simp) j)) slot
  case wider => exact exec_keyPolicy_refused h hx hk (by simp [policyTaken, hn])
  case unfit =>
    refine exec_keyPolicy_refused h hx hk ?_
    rcases hbad with hbad | hbad <;> simp only [policyTaken, hbad, Bool.not_true, Bool.and_false, Bool.false_and]
  case destroy =>
    obtain ⟨y, hy⟩ := Option.isSome_iff_exists.1 ((s.destroyKey_takes_none slot).2 j (by rw [State.cmdJob_job? h]; rfl))
    have hkept := State.unreserve_keepsSlots (s.destroyKey slot) j
    refine ⟨_, exec_keyDestroy_frees h hp hx hk hpol, State.doneFree_ends hy (Nat.zero_le _), ?_, ?_⟩
    · rw [State.key?_of_kst (State.doneFree_kst _ j []), ← Option.isNone_iff_eq_none, ← Option.not_isSome, hkept.slots slot,
        State.destroyKey_key? hk]
      rfl
    · rw [State.doneFree_kst, hkept.epoch, State.destroyKey_epoch hk]
  case notEnabled => exact ⟨_, exec_keyPurge_not_enabled h hp hv, State.doneErr_settled_ends (State.cmdJob_job? h) _ _⟩
  case notDisabled => exact ⟨_, exec_keyPurge_not_disabled h hp hv hd, State.doneErr_settled_ends (State.cmdJob_job? h) _ _⟩

end Machine
end Sys2Proof
end

section
/-! PROOFS. The creation of a key (R120, R128, R291, R488): what makes room in the key table, what a creation leaves and sets, the
statement on its slot, which is false of a key table that lists a slot twice, and the commands that create a key (R135, R138, R139). -/

namespace Sys2Proof.Machine

/-! ## Room in the key table (R128, R129) -/

/-- Making room touches material and a counter of the key store, and nothing else. -/
theorem State.makeRoom_only_keys (s : State) (ns : List Nat) (n : Nat) : (s.makeRoom ns n).1 = { s with kst := { s.kst with
    keys := (s.makeRoom ns n).1.kst.keys, cntEvict := (s.makeRoom ns n).1.kst.cntEvict } } := by
  induction n generalizing s with
  | zero => rfl
  | succ n ih =>
    unfold State.makeRoom
    split
    · rfl
    · split
      · rw [ih]
        rfl
      · rfl

@[simp] theorem State.makeRoom_spl (s : State) (ns : List Nat) (n : Nat) : (s.makeRoom ns n).1.spl = s.spl := by
  rw [State.makeRoom_only_keys]

/-! ## What a creation needs and makes -/

theorem bitOf_toNat {n : Nat} (x : BitVec n) (i : Nat) : bitOf x.toNat i = x.getLsbD i := by
  rw [BitVec.getLsbD, Nat.testBit_eq_decide_div_mod_eq, bitOf]
  rfl

/-- Making a window absolute clears WIN_REL and no other flag (R125). -/
theorem Policy.absolute_flag (p : Policy) (life : Nat) {i : Nat} (h : i ≠ polWinRel) : (p.absolute life).flag i = p.flag i := by
  unfold Policy.absolute
  split
  · simp only [Policy.flag, bitOf_toNat, setBit, Bool.false_eq_true, if_false, BitVec.getLsbD_and, BitVec.getLsbD_not,
      BitVec.getLsbD_ofNat]
    by_cases hi : i < 16
    · simp [hi, Ne.symm h]
    · simp [BitVec.getLsbD_of_ge p.flags i (by omega)]
  · rfl

/-- A new record number is noted on the ports alone (R289). -/
theorem State.newRecno_only_spl (s : State) : s.newRecno.2 = { s with spl := s.newRecno.2.spl } := by
  unfold State.newRecno State.eachPort
  refine List.foldlRecOn (motive := fun t : State => t = { s with spl := t.spl }) _ _ rfl (fun t ht p _ => ?_)
  rw [ht]
  cases p <;> rfl

/-- Which spools take key records does not depend on the record number. -/
theorem State.newRecno_takesKeys (s : State) (p : Port) : (s.newRecno.2.port p).takesKeys = (s.port p).takesKeys := by
  unfold State.newRecno State.eachPort
  refine State.foldl_kept (fun t => (t.port p).takesKeys) _ _ (fun t q => ?_) s
  by_cases hq : p = q
  · subst hq
    rw [State.port_modPort]
    rfl
  · rw [State.modPort, t.port_setPort_ne hq]

/-- A creation with PERSIST has a spool for its record (R296). -/
theorem State.takesKeys_of_persistCheck {s : State} {p : Policy} (h : s.persistCheck p = none) (hp : p.flag polPersist = true) :
    ∃ q ∈ bothPorts, (s.port q).takesKeys = true := by
  have hw : s.primaryWritable = true := by
    unfold State.persistCheck at h
    by_cases hw : s.primaryWritable
    · exact hw
    · rw [hp] at h
      simp only [hw] at h
      split at h
      · contradiction
      · split at h <;> exact absurd h (by simp)
  exact List.any_eq_true.1 (Bool.and_eq_true_iff.1 hw).2

/-- The object that a creation enters in its slot. -/
def KeyObj.entered (k : KeyObj) (s : State) (n hd a : Nat) : KeyObj := { k with
  uid := s.kst.nextUid, policy := k.policy.absolute s.glb.ptcLife.toNat, lru := s.kst.clock
  hdr := hd, halfA := some a, halfB := none, active := false, recOk := false
  spoolRec := if k.policy.flag polPersist then some (n, 1) else none }

/-- The state in which a creation has entered its object. -/
def State.entering (s : State) (slot : Nat) (k : KeyObj) : State := { s with kst := { s.kst with
  keys := s.kst.keys.insert slot k, nextUid := s.kst.nextUid + 1, clock := s.kst.clock + 1 } }

/-- What a creation does: its checks pass, and its object enters the lowest free slot of a table with room for it. -/
theorem State.createKey_ok {s s' : State} {f slot : Nat} {k : KeyObj} (h : s.createKey f k = .ok (s', slot)) :
    s.persistCheck k.policy = none ∧ s.lowestSlot f = some slot ∧ ∃ (u : State) (n hd a : Nat),
      u = { (s.makeRoom [1, k.run] s.kst.keys.length).1 with spl := u.spl } ∧
      (∀ p, (u.port p).takesKeys = (s.port p).takesKeys) ∧ s' = (u.entering slot (k.entered u n hd a)).armExpiry slot := by
  have hspl := s.makeRoom_spl [1, k.run] s.kst.keys.length
  unfold State.createKey at h
  split at h
  · contradiction
  next hpersist =>
  split at h
  · contradiction
  next slot' hslot =>
  split at h
  · contradiction
  split at h
  · next r hd a hr =>
    rw [hr] at hspl ⊢
    have hport (p : Port) : (r.port p).takesKeys = (s.port p).takesKeys := by rw [State.port_of_spl hspl]
    split at h
    · contradiction
    by_cases hp : k.policy.flag polPersist
    · simp only [hp, if_true] at h
      obtain ⟨rfl, rfl⟩ := Prod.mk.inj (Except.ok.inj h)
      refine ⟨hpersist, hslot, r.newRecno.2, r.newRecno.1, hd, a, r.newRecno_only_spl, fun p => ?_, ?_⟩
      · rw [r.newRecno_takesKeys, hport]
      · simp [KeyObj.entered, State.entering, hp]
    · simp only [hp] at h
      obtain ⟨rfl, rfl⟩ := Prod.mk.inj (Except.ok.inj h)
      refine ⟨hpersist, hslot, r, 0, hd, a, rfl, hport, ?_⟩
      simp [KeyObj.entered, State.entering, hp]
  · contradiction

/-! ## A slot listed twice -/

/-- A key whose run leaves one entry of the table free, beside its header. -/
def wideKey : KeyObj := { uid := 1, type := 0, len := 256 * 4194303, halfA := some 1 }

/-- An evictable key: PERSIST, in the table, with a record on the spool. -/
def spooledKey : KeyObj := { uid := 2, type := 0, policy := { flags := 4 }, recOk := true }

/-- A directory that lists slot 1 of strand 1 twice: reading finds `wideKey`, and the key to evict is `spooledKey`. -/
def twoInOneSlot : State := { kst := { keys := [(262145, wideKey), (262145, spooledKey)] } }

/-- The creation evicts `spooledKey`, and writes it back over `wideKey`. -/
theorem twoInOneSlot_createKey : (twoInOneSlot.createKey 0 { uid := 0, type := 0 }).toOption.map
    (fun p => (p.2, (p.1.key? 262145).map (·.uid))) = some (1, some 2) := by
  decide

/-- Refutes O22: the statement is about every key table, and of one that lists a slot twice the eviction that makes room reads the
second entry and overwrites the first, so that slot 262145 holds another key after the creation in slot 1. -/
theorem not_creationTakesFreeSlot : ¬ Obligations.CreationTakesFreeSlot := by
  unfold Obligations.CreationTakesFreeSlot
  intro h
  have hmade := twoInOneSlot_createKey
  cases hc : twoInOneSlot.createKey 0 { uid := 0, type := 0 } with
  | error e => rw [hc] at hmade; exact absurd hmade (by simp [Except.toOption])
  | ok p =>
    obtain ⟨s', slot⟩ := p
    rw [hc] at hmade
    obtain ⟨rfl, hafter⟩ : slot = 1 ∧ (s'.key? 262145).map (·.uid) = some 2 := by simpa [Except.toOption] using hmade
    obtain ⟨-, -, -, -, -, -, hothers, -⟩ := h _ _ _ _ _ hc
    have hbefore : (twoInOneSlot.key? 262145).map (·.uid) = some 1 := by decide
    have huid := congrArg (Option.map Prod.fst) (hothers 262145 (by decide))
    rw [Option.map_map, Option.map_map] at huid
    exact absurd (hafter.symm.trans (huid.trans hbefore)) (by decide)

/-! ## The job of a command, while the command computes -/

/-- Job `j` is in the device, and the host left it this room for its output. -/
def State.HasJob (s : State) (j c : Nat) : Prop := ∃ y, s.job? j = some y ∧ y.outCap = c

section
variable {s t : State} {j c : Nat}

theorem State.cmdJob_hasJob {op : Nat} {x : Job} (h : s.cmdJob j op = some x) : s.HasJob j x.outCap :=
  ⟨x, State.cmdJob_job? h, rfl⟩

theorem State.HasJob.of_jobs (h : s.HasJob j c) (hj : t.jobs = s.jobs) : t.HasJob j c := by
  obtain ⟨y, hy, hc⟩ := h
  exact ⟨y, (State.job?_of_jobs hj j).trans hy, hc⟩

theorem State.HasJob.modJob (h : s.HasJob j c) {f : Job → Job} (hf : ∀ y, (f y).words = y.words) : (s.modJob j f).HasJob j c := by
  obtain ⟨y, hy, rfl⟩ := h
  exact ⟨f y, by simp [hy], by simp only [Job.outCap, Job.word, hf]⟩

theorem State.HasJob.spendUse (h : s.HasJob j c) : (s.spendUse j).HasJob j c := by
  unfold State.spendUse
  split
  · exact h
  · split
    · exact (h.of_jobs (by simp)).modJob (fun _ => rfl)
    · exact h

theorem State.HasJob.done_ends (h : s.HasJob j c) {r : Bytes} (hr : r.length ≤ c) : (s.done j r).settle.EndedWith j r := by
  obtain ⟨y, hy, rfl⟩ := h
  exact State.settle_endedWith (State.done_ends s j y r hy hr)

theorem State.HasJob.doneErr_ends (h : s.HasJob j c) (m d : Nat) : (s.doneErr j m d).settle.Ended j m d 0 := by
  obtain ⟨y, hy, -⟩ := h
  exact State.doneErr_settled_ends hy m d

end

/-! ## Units for a command (R23, R135) -/

section
variable {s : State} {j c : Nat} {x : Job} {n : FirmNeed}

/-- With its units at hand a command goes on, in a state that does not depend on what follows. -/
theorem State.onUnits_ready (h : s.UnitsReady x n) (cyc : State → Nat × State) (go : State → State) :
    s.onUnits j x n cyc go = go (s.onUnits j x n cyc id) := by
  unfold State.onUnits
  rcases h with ⟨hs, hc⟩ | ⟨f, hf, hu⟩
  · simp [hs, hc]
  · split
    · rfl
    · simp only [hf, if_neg hu]
      rfl

theorem State.usedUnit_jobs (s : State) (f c u : Nat) (w : Option (Nat × Nat)) : (s.usedUnit f c u w).jobs = s.jobs := rfl

/-- A part of a command leaves its job where it is. -/
theorem State.HasJob.onUnits (h : s.HasJob j c) (hr : s.UnitsReady x n) {cyc : State → Nat × State}
    (hcyc : ∀ s, (cyc s).2.jobs = s.jobs) : (s.onUnits j x n cyc id).HasJob j c := by
  unfold State.onUnits
  split
  · exact State.HasJob.modJob (h.of_jobs (hcyc s)) (fun _ => rfl)
  next hunits =>
  rcases hr with ⟨hs, hc⟩ | ⟨f, hf, hu⟩
  · exact absurd (by simp [hs, hc]) hunits
  · simp only [hf, if_neg hu]
    refine State.HasJob.modJob (h.of_jobs ?_) (fun _ => rfl)
    exact (State.each_kept (fun s => s.jobs) _ _ (fun t v => t.usedUnit_jobs f _ v _) _).trans (hcyc _)

end

/-! ## The record of a new key (R291) -/

@[simp] theorem State.sendSpl_kst (s : State) (p : Port) (o : SplOut) : (s.sendSpl p o).kst = s.kst := by
  simp [State.sendSpl, State.emitSpl, State.modPort]

@[simp] theorem State.writeRecord_kst (s : State) (p : Port) (w : SplWork) : (s.writeRecord p w).kst = s.kst := by
  have hdraw : (s.drawT 12).2.kst = s.kst := rfl
  simp [State.writeRecord, hdraw]

@[simp] theorem State.splKick_kst (s : State) (p : Port) : (s.splKick p).kst = s.kst := by
  unfold State.splKick
  extract_lets x
  split
  · rfl
  split
  · simp
  · split
    · simp
    split <;> simp
  · split
    · simp
    split <;> simp

/-- Works staged on a port change no key and no job. -/
theorem State.stageAt_kept (s : State) (p : Port) (ws : List SplWork) :
    ((s.stageAt p ws).kst, (s.stageAt p ws).jobs) = (s.kst, s.jobs) := by
  rw [State.stageAt_eq, State.splKick_kst, (State.splKick_onlyTraffic _ p).jobs]
  simp [State.modPort]

/-- Works that some spool takes change no key and no job. -/
theorem State.commitWorks_kept {s : State} (h : ∃ p ∈ bothPorts, (s.port p).takesKeys = true) (ws : List SplWork) :
    ((s.commitWorks ws).kst, (s.commitWorks ws).jobs) = (s.kst, s.jobs) := by
  obtain ⟨p, hp, ht⟩ := h
  have hsome : bothPorts.filter (fun p => (s.port p).takesKeys) ≠ [] := List.ne_nil_of_mem (List.mem_filter.2 ⟨hp, ht⟩)
  simp only [State.commitWorks, if_neg hsome]
  exact State.foldl_kept (fun s => (s.kst, s.jobs)) _ _ (fun s p => s.stageAt_kept p ws) s

/-! ## What a command that creates a key leaves -/

section
variable {s s' : State} {j c f slot : Nat} {k : KeyObj} {out : Bytes}

theorem State.entering_key? (s : State) (slot : Nat) (k : KeyObj) : ((s.entering slot k).armExpiry slot).key? slot = some k := by
  rw [State.key?_of_kst (State.armExpiry_kst _ _)]
  exact Tbl.get?_insert_self _ _ _

theorem State.HasJob.createKey (h : s.HasJob j c) (hc : s.createKey f k = .ok (s', slot)) : s'.HasJob j c := by
  obtain ⟨-, -, u, n, hd, a, hu, -, rfl⟩ := State.createKey_ok hc
  refine h.of_jobs ?_
  rw [State.armExpiry_jobs, State.entering, hu, State.makeRoom_only_keys]

/-- The command of a creation answers at once, or with PERSIST when the record is durable. -/
theorem State.created_madeKey (h : s.HasJob j c) (hc : s.createKey f k = .ok (s', slot)) (hout : out.length ≤ c) :
    s'.MadeKey (s'.created j slot out).settle j slot out := by
  have hjob := h.createKey hc
  obtain ⟨hpersist, -, u, n, hd, a, hu, hports, rfl⟩ := State.createKey_ok hc
  have hkey := u.entering_key? slot (k.entered u n hd a)
  have hflag : (k.entered u n hd a).policy.flag polPersist = k.policy.flag polPersist := Policy.absolute_flag _ _ (by decide)
  generalize hs' : (u.entering slot (k.entered u n hd a)).armExpiry slot = s' at *
  simp only [State.created, hkey]
  split
  next hp =>
    obtain ⟨q, hq, ht⟩ := State.takesKeys_of_persistCheck hpersist (hflag ▸ hp)
    have hkept := State.commitWorks_kept (s := s'.modJob j (fun x => { x with result := out, phase := 2 }))
      ⟨q, hq, by rw [← ht, ← hports q, ← hs']; exact congrArg _ (State.port_of_spl (by simp [State.entering]) q)⟩ [.key slot j]
    obtain ⟨hkst, hjobs⟩ := Prod.mk.inj hkept
    refine ⟨?_, fun y hy => ?_⟩
    · rw [State.settle_key?, State.key?_of_kst hkst, State.modJob_key?]
    · obtain rfl := Option.some.inj (hkey.symm.trans hy)
      obtain ⟨z, hz, -⟩ := hjob
      rw [if_pos hp]
      exact ⟨_, by rw [State.settle_job?, State.job?_of_jobs hjobs, State.modJob_job?, hz]; rfl, rfl, rfl⟩
  next hp =>
    refine ⟨by simp, fun y hy => ?_⟩
    obtain rfl := Option.some.inj (hkey.symm.trans hy)
    rw [if_neg hp]
    exact hjob.done_ends hout

end

/-! ## KEY_GENERATE, KEY_LOAD_PUBLIC, KEY_UNWRAP, KEY_IMPORT (R135, R138, R139) -/

theorem exec_keyGenerate (j : Nat) (s : State) : exec (.keyGenerate j) s = execKeyGenerate j s := rfl
theorem exec_keyLoadPublic (j : Nat) (s : State) : exec (.keyLoadPublic j) s = execKeyLoadPublic j s := rfl
theorem exec_keyUnwrap (j : Nat) (s : State) : exec (.keyUnwrap j) s = execKeyUnwrap j s := rfl
theorem exec_keyImport (j : Nat) (s : State) : exec (.keyImport j) s = execKeyImport j s := rfl

theorem State.inWindow_open {s : State} {k : KeyObj} (h : k.windowErr s.glb.ptcLife.toNat = none) (j : Nat) (go : State) :
    s.inWindow j k go = go := by
  simp [State.inWindow, h]

section
variable {s s' : State} {j slot : Nat} {x : Job}

/-- KEY_GENERATE's state when its units have generated the key. -/
def State.generated (s : State) (j : Nat) (x : Job) : State :=
  s.generateOn j x (genType x) (genParam x) (policyOf x.block).mask id

theorem State.genCost_jobs (s : State) (t : Nat) (p : List Nat) (m : Nat) : (s.genCost t p m).2.jobs = s.jobs := by
  unfold State.genCost
  split
  · rfl
  · split <;> rfl

theorem exec_keyGenerate_refused (h : s.cmdJob j 0x5001 = some x) (hp : x.phase = 0) {e : Nat × Nat} (he : genBlockErr x = some e) :
    exec (.keyGenerate j) s = .next (s.doneErr j e.1 e.2).settle := by
  simp [exec_keyGenerate, execKeyGenerate, finish, h, hp, he, State.cmdFail]

theorem exec_keyGenerate_short (h : s.cmdJob j 0x5001 = some x) (hp : x.phase = 0) (he : genBlockErr x = none)
    (ho : x.outCap < keyCmdOut x none) : exec (.keyGenerate j) s = .next (s.doneShort j (keyCmdOut x none)).settle := by
  simp [exec_keyGenerate, execKeyGenerate, finish, h, hp, he, ho]

section
variable (h : s.cmdJob j 0x5001 = some x) (hp : x.phase = 0) (he : genBlockErr x = none) (ho : keyCmdOut x none ≤ x.outCap)
  (hr : s.UnitsReady x (genNeed x (genType x) (policyOf x.block).mask))
include h hp he ho hr

theorem exec_keyGenerate_makes (hpct : pctOk (genType x) (newMaterial (genType x) (genParam x) x.rnd)
      (pubOf (genType x) (genParam x) (newMaterial (genType x) (genParam x) x.rnd)) = true)
    (hc : (s.generated j x).createKey x.fn
      { mkKey (genType x) (genParam x) (policyOf x.block) (newMaterial (genType x) (genParam x) x.rnd)
          (pubOf (genType x) (genParam x) (newMaterial (genType x) (genParam x) x.rnd)) with
        tree := if stateful (genType x) then some 0 else none } = .ok (s', slot)) :
    exec (.keyGenerate j) s = .next (s'.created j slot (leBytes 4 (s'.handleOf slot) ++ zeros 4 ++
      pubOf (genType x) (genParam x) (newMaterial (genType x) (genParam x) x.rnd))).settle := by
  simp only [State.generated, State.generateOn] at hc
  simp only [exec_keyGenerate, execKeyGenerate, finish, h, hp, he, Nat.not_lt.2 ho, State.generateOn]
  rw [State.onUnits_ready hr]
  simp only [hpct, hc]
  rfl

theorem exec_keyGenerate_unfit (hpct : pctOk (genType x) (newMaterial (genType x) (genParam x) x.rnd)
      (pubOf (genType x) (genParam x) (newMaterial (genType x) (genParam x) x.rnd)) = false) :
    exec (.keyGenerate j) s = .next ((s.generated j x).doneErr j keyErr 0x010B).settle := by
  simp only [exec_keyGenerate, execKeyGenerate, finish, h, hp, he, Nat.not_lt.2 ho, State.generateOn]
  rw [State.onUnits_ready hr]
  simp only [hpct]
  rfl

end
theorem exec_keyLoadPublic_makes (h : s.cmdJob j 0x5002 = some x) (hp : x.phase = 0)
    (hpub : pubKeyErr (fld x.param 0 8) x.block = none) (hlms : ¬(baseType (fld x.param 0 8) = 0x40 ∧ lmsM (hssPubLms x.block) = 24))
    (hclean : policyClean x.auxData = true)
    (hpol : (policyOf x.auxData).refused (fld x.param 0 8) ((pubParam (fld x.param 0 8) x.block).getD 0 0) = false)
    (hc : s.createKey x.fn (mkKey (fld x.param 0 8) (pubParam (fld x.param 0 8) x.block) (policyOf x.auxData) x.block x.block) =
      .ok (s', slot)) :
    exec (.keyLoadPublic j) s = .next (s'.created j slot (leBytes 4 (s'.handleOf slot))).settle := by
  have hlms' : (decide (baseType (fld x.param 0 8) = 0x40) && decide (lmsM (hssPubLms x.block) = 24)) = false := by simpa using hlms
  simp only [exec_keyLoadPublic, execKeyLoadPublic, finish, h, hp, hpub, hlms', hclean, hpol, hc]
  rfl

/-! A wrapping key, and a blob that KEY_UNWRAP opens with it. -/

section
variable {kslot : Nat} {k : KeyObj}

theorem openBlob_foreign {b : Bytes} (h : leAt b 0 4 ≠ 0x42314B41) (key : Bytes) (dwk : Bool) :
    openBlob b key dwk = .error (inputErr, 1) := by
  simp [openBlob, h]

theorem exec_keyUnwrap_foreign (h : s.cmdJob j 0x5003 = some x) (hp : x.phase = 0) (hx : x.key = some (kslot, k))
    (hw : k.windowErr s.glb.ptcLife.toNat = none) (hword : leAt x.block 0 4 ≠ 0x42314B41) :
    exec (.keyUnwrap j) s = .next ((s.spendUse j).doneErr j inputErr 1).settle := by
  simp [exec_keyUnwrap, execKeyUnwrap, finish, h, hp, hx, State.inWindow_open hw, openBlob_foreign hword, State.cmdFail]

theorem exec_keyUnwrap_makes {t : Nat} {p : List Nat} {pol : Policy} {mat : Bytes} (h : s.cmdJob j 0x5003 = some x) (hp : x.phase = 0)
    (hx : x.key = some (kslot, k)) (hw : k.windowErr s.glb.ptcLife.toNat = none)
    (hblob : openBlob x.block k.mat (isDwk x.handle) = .ok (t, p, pol, mat)) (hent : entryOk t mat = true)
    (hr : s.UnitsReady x (if (regenType t).isSome then { mask := pol.mask } else .seal))
    (hc : ((s.unwrapOn j x t mat.length pol.mask id).spendUse j).createKey x.fn (mkKey t p pol mat (pubOf t p mat)) =
      .ok (s', slot)) :
    exec (.keyUnwrap j) s = .next (s'.created j slot (leBytes 4 (s'.handleOf slot))).settle := by
  simp only [State.unwrapOn] at hc
  simp only [exec_keyUnwrap, execKeyUnwrap, finish, h, hp, hx, State.inWindow_open hw, hblob, State.unwrapOn]
  rw [State.onUnits_ready hr]
  simp only [hent, hc]
  rfl

/-- A package's form is good for a receiver's key (Table 5.8). -/
def packageOk (b : Bytes) (k : KeyObj) : Bool :=
  !(decide (b.length < 0x30) || leAt b 0 4 ≠ 0x31494B41 || leAt b 4 1 ≠ 1 || leAt b 6 2 ≠ 0 ||
    leAt b 0x0C 4 ≠ (if k.type = 0x11 then 1088 else 1568) ||
    b.length ≠ 0x30 + leAt b 0x0C 4 + 8 * ceilDiv (leAt b 8 4) 8 + 8 || !lenAllowed (leAt b 5 1) (leAt b 8 4))

theorem exec_keyImport_foreign (h : s.cmdJob j 0x5005 = some x) (hp : x.phase = 0) (hx : x.key = some (kslot, k))
    (hword : leAt x.block 0 4 ≠ 0x31494B41) : exec (.keyImport j) s = .next (s.doneErr j inputErr 1).settle := by
  simp [exec_keyImport, execKeyImport, finish, h, hp, hx, hword]

/-- The ML-KEM step of an import needs a spindle, where the key may stay warm. -/
def importNeed (kslot : Nat) (k : KeyObj) : FirmNeed :=
  { mask := k.policy.mask, warm := if k.sizes.cached ≤ 16384 then some (kslot, k.uid) else none }

/-- KEY_IMPORT's state when its units have decapsulated. -/
def State.decapsulated (s : State) (j : Nat) (x : Job) (kslot : Nat) (k : KeyObj) : State :=
  (s.onUnits j x (importNeed kslot k)
    (fun s => (atOrder k.policy.mask (decapsCycles k.type) + s.freeNum.1, s.freeNum.2)) id).spendUse j

theorem exec_keyImport_makes {m : Bytes} {p : List Nat} (h : s.cmdJob j 0x5005 = some x) (hp : x.phase = 0)
    (hx : x.key = some (kslot, k)) (hform : packageOk x.block k = true) (hw : k.windowErr s.glb.ptcLife.toNat = none)
    (hm : aeadOpen 2 (kwpKey (mlkemShared k.type k.mat (slice x.block 0x30 (leAt x.block 0x0C 4))) x.block) [] []
      (x.block.drop (0x30 + leAt x.block 0x0C 4)) 8 = some m)
    (hparam : formParam (leAt x.block 5 1) (m.take (leAt x.block 8 4)) = some p)
    (hclean : policyClean (slice x.block 0x10 32) = true)
    (hpol : (policyOf (slice x.block 0x10 32)).refused (leAt x.block 5 1) (p.getD 0 0) = false)
    (hent : entryOk (leAt x.block 5 1) (m.take (leAt x.block 8 4)) = true) (hr : s.UnitsReady x (importNeed kslot k))
    (hc : (s.decapsulated j x kslot k).createKey x.fn (mkKey (leAt x.block 5 1) p (policyOf (slice x.block 0x10 32))
      (m.take (leAt x.block 8 4)) (pubOf (leAt x.block 5 1) p (m.take (leAt x.block 8 4)))) = .ok (s', slot)) :
    exec (.keyImport j) s = .next (s'.created j slot (leBytes 4 (s'.handleOf slot))).settle := by
  simp only [packageOk, Bool.not_eq_true'] at hform
  simp only [State.decapsulated, importNeed] at hr hc
  simp only [exec_keyImport, execKeyImport, finish, h, hp, hx, State.inWindow_open hw, hform]
  rw [State.onUnits_ready hr]
  simp only [hm, hparam, hclean, hpol, hent, hc]
  rfl

end
end

/-- Settles O23, command by command. -/
theorem keyCreationCommands : Obligations.KeyCreationCommands := by
  unfold Obligations.KeyCreationCommands
  intro s s' j slot x
  refine ⟨?generate, fun h hp => ⟨fun e he => ?refused, fun he ho => ?short⟩, fun h hp ho hpub hlms hclean hpol hc => ?loads,
    fun kslot k t p pol mat h hp hx hw ho hblob hent hr hc => ?unwraps, fun kslot k h hp hx hw hword => ?notBlob,
    fun kslot k m p h hp hx ho hw hlen hword hver hflags hct htotal hallowed hm hparam hclean hpol hent hr hc => ?imports,
    fun kslot k h hp hx hword => ?notPackage⟩
  case generate =>
    rintro u mat pub h hp he ho hr rfl rfl rfl
    have hjob : (s.generated j x).HasJob j x.outCap := (State.cmdJob_hasJob h).onUnits hr (fun s => s.genCost_jobs _ _ _)
    refine ⟨fun hpct hc hout => ⟨_, exec_keyGenerate_makes h hp he ho hr hpct hc, State.created_madeKey hjob hc ?_⟩,
      fun hpct => ⟨_, exec_keyGenerate_unfit h hp he ho hr hpct, hjob.doneErr_ends _ _⟩⟩
    simpa only [List.length_append, leBytes_length, zeros_length] using hout
  case refused => exact ⟨_, exec_keyGenerate_refused h hp he, State.doneErr_settled_ends (State.cmdJob_job? h) _ _⟩
  case short =>
    exact ⟨_, exec_keyGenerate_short h hp he ho, State.settle_ended (State.doneShort_ends s j _ x (State.cmdJob_job? h))⟩
  case loads =>
    exact ⟨_, exec_keyLoadPublic_makes h hp hpub hlms hclean hpol hc,
      State.created_madeKey (State.cmdJob_hasJob h) hc (by simpa using ho)⟩
  case unwraps =>
    have hjob := ((State.cmdJob_hasJob h).onUnits hr (cyc := fun s => (unwrapCost t mat.length pol.mask, s)) (fun _ => rfl)).spendUse
    exact ⟨_, exec_keyUnwrap_makes h hp hx hw hblob hent hr hc, State.created_madeKey hjob hc (by simpa using ho)⟩
  case notBlob => exact ⟨_, exec_keyUnwrap_foreign h hp hx hw hword, (State.cmdJob_hasJob h).spendUse.doneErr_ends _ _⟩
  case imports =>
    have hjob : (s.decapsulated j x kslot k).HasJob j x.outCap :=
      ((State.cmdJob_hasJob h).onUnits hr (fun _ => rfl)).spendUse
    have hform : packageOk x.block k = true := by
      rw [hct] at htotal
      simpa [packageOk, hword, hver, hflags, hct, hallowed] using And.intro hlen htotal
    exact ⟨_, exec_keyImport_makes h hp hx hform hw hm hparam hclean hpol hent hr hc,
      State.created_madeKey hjob hc (by simpa using ho)⟩
  case notPackage => exact ⟨_, exec_keyImport_foreign h hp hx hword, State.doneErr_settled_ends (State.cmdJob_job? h) _ _⟩

end Sys2Proof.Machine
end

section
/-! PROOFS. KEY_WRAP and KEY_EXPORT (R136, R137, R139, R140): what they refuse, the wrapping key that is not at hand, and what they
answer. -/

namespace Sys2Proof.Machine

theorem exec_keyWrap (j : Nat) (s : State) : exec (.keyWrap j) s = execKeyWrap j s := rfl
theorem exec_keyExport (j : Nat) (s : State) : exec (.keyExport j) s = execKeyExport j s := rfl

/-! ## The wrapping key (R126, R129, R137) -/

section
variable {s : State} {j c : Nat}

theorem State.HasJob.useKek (h : s.HasJob j c) (slot uid : Nat) : (s.useKek slot uid).HasJob j c :=
  h.of_jobs (by simp [State.useKek])

theorem State.HasJob.countWrap (h : s.HasJob j c) (f slot : Nat) (k : KeyObj) (dwk : Bool) :
    (s.countWrap f slot k dwk).HasJob j c := by
  refine h.of_jobs ?_
  unfold State.countWrap
  split
  · rfl
  · simp

theorem State.fetchRecord_jobs (s : State) (slot : Nat) : (s.fetchRecord slot).jobs = s.jobs := by
  unfold State.fetchRecord
  split
  · split
    · split
      · exact (s.askSpl_onlyTraffic _ _).jobs
      · rfl
    · rfl
  · rfl

end

section
variable {s : State} {j op h wslot : Nat} {x : Job} {w : KeyObj} (hw : s.kekAt x.fn h op = .ok (wslot, w))
include hw

theorem State.withKek_atHand (hat : isDwk h = true ∨ w.atHand = true) (fail : State → Nat × Nat → State)
    (go : State → Nat → KeyObj → State) : s.withKek j x h op fail go = go s wslot w := by
  simp [State.withKek, hw, hat]

theorem State.withKek_absent (hd : isDwk h = false) (hat : w.atHand = false) (hs : s.spoolHas w = false)
    (fail : State → Nat × Nat → State) (go : State → Nat → KeyObj → State) :
    s.withKek j x h op fail go = fail s (spoolErr, 0x0141) := by
  simp [State.withKek, hw, hd, hat, hs]

/-- The command waits in phase 1 for the record of a wrapping key that is on the spool. -/
theorem State.withKek_waits (hj : s.job? j = some x) (hd : isDwk h = false) (hat : w.atHand = false) (hs : s.spoolHas w = true)
    (fail : State → Nat × Nat → State) (go : State → Nat → KeyObj → State) :
    ∃ y, (s.withKek j x h op fail go).job? j = some y ∧ y.phase = 1 := by
  by_cases hp : x.phase = 1
  · exact ⟨x, by simpa [State.withKek, hw, hd, hat, hs, hp] using hj, hp⟩
  · refine ⟨{ x with phase := 1 }, ?_, rfl⟩
    simp only [State.withKek, hw, hd, hat, hs, hp]
    exact State.waitPhase_job? ((State.job?_of_jobs (s.fetchRecord_jobs wslot) j).trans hj)

end

/-! ## KEY_WRAP -/

/-- No blob is made of a stateful key, of one with MAX_USES, and but under the DWK of one without EXPORT (R137). -/
def KeyObj.neverWrapped (k : KeyObj) (dwk : Bool) : Bool :=
  stateful k.type || decide (k.policy.maxUses ≠ 0) || (!dwk && !k.policy.flag polExport)

/-- The blob of a key under a wrapping key that is at hand: both keys' uses and the wrap are counted with it. -/
def State.wrapped (s : State) (j : Nat) (x : Job) (k : KeyObj) (wslot : Nat) (w : KeyObj) : State :=
  s.onUnits j x .seal (fun s => (wrapCycles k.mat.length, s)) (fun s =>
    (((s.spendUse j).useKek wslot w.uid).countWrap x.fn wslot w (isDwk x.param)).done j (blobOf k w.mat x.rnd (isDwk x.param)))

theorem State.seal_ready (s : State) (x : Job) : s.UnitsReady x .seal := .inl ⟨rfl, rfl⟩

section
variable {s : State} {j slot wslot : Nat} {x : Job} {k w : KeyObj}

theorem State.wrapped_ends (h : s.job? j = some x) (hout : (blobOf k w.mat x.rnd (isDwk x.param)).length ≤ x.outCap) :
    (s.wrapped j x k wslot w).settle.EndedWith j (blobOf k w.mat x.rnd (isDwk x.param)) := by
  have hjob : s.HasJob j x.outCap := ⟨x, h, rfl⟩
  have hunits := hjob.onUnits (s.seal_ready x) (cyc := fun s => (wrapCycles k.mat.length, s)) (fun _ => rfl)
  rw [State.wrapped, State.onUnits_ready (s.seal_ready x)]
  exact ((hunits.spendUse.useKek wslot w.uid).countWrap x.fn wslot w _).done_ends hout

variable (h : s.cmdJob j 0x5004 = some x) (hx : x.key = some (slot, k)) (hw : s.kekAt x.fn x.param 4 = .ok (wslot, w))
include h hx hw

theorem exec_keyWrap_barred (hb : k.neverWrapped (isDwk x.param) = true) :
    exec (.keyWrap j) s = .next (s.doneErr j keyErr 0x010D).settle := by
  unfold KeyObj.neverWrapped at hb
  simp only [exec_keyWrap, execKeyWrap, finish, h, hx, hw, hb]
  rfl

theorem exec_keyWrap_worn (hb : k.neverWrapped (isDwk x.param) = false) (hn : 2 ^ 32 ≤ s.wrapsOf x.fn w (isDwk x.param)) :
    exec (.keyWrap j) s = .next (s.doneErr j keyErr 0x0112).settle := by
  unfold KeyObj.neverWrapped at hb
  simp only [exec_keyWrap, execKeyWrap, finish, h, hx, hw, hb, hn]
  rfl

theorem exec_keyWrap_goesOn (hb : k.neverWrapped (isDwk x.param) = false) (hn : s.wrapsOf x.fn w (isDwk x.param) < 2 ^ 32)
    (hwin : k.windowErr s.glb.ptcLife.toNat = none) : exec (.keyWrap j) s =
      .next (s.withKek j x x.param 4 (fun s e => s.cmdFail j e) (fun s wslot w => s.wrapped j x k wslot w)).settle := by
  unfold KeyObj.neverWrapped at hb
  simp only [exec_keyWrap, execKeyWrap, finish, h, hx, hw, hb, Nat.not_le.2 hn, State.inWindow_open hwin]
  rfl

end

/-! ## KEY_EXPORT -/

/-- The first 48 bytes of the package of a key, whose ciphertext has `c` bytes (Table 5.8). -/
def KeyObj.packageHead (k : KeyObj) (c : Nat) : Bytes :=
  leBytes 4 0x31494B41 ++ leBytes 1 1 ++ leBytes 1 k.type ++ zeros 2 ++ leBytes 4 k.mat.length ++ leBytes 4 c ++ k.policy.bytes

/-- The package of a key for a receiver's key of type `rt` and ciphertext length `c`: head, ciphertext, padded material under KWP. -/
def KeyObj.package (k : KeyObj) (rt c : Nat) (pub rnd : Bytes) : Bytes :=
  let enc := algoBytes (0x1110 + (rt - 0x0F)) [pub, rnd] (c + 32)
  k.packageHead c ++ enc.take c ++
    aeadSeal 2 (kwpKey (enc.drop c) (k.packageHead c)) [] [] (padTo (8 * ceilDiv k.mat.length 8) k.mat) 8

theorem KeyObj.packageHead_length (k : KeyObj) (c : Nat) : (k.packageHead c).length = 0x30 := by
  simp [KeyObj.packageHead, Policy.bytes_length]

theorem KeyObj.package_length (k : KeyObj) (rt c : Nat) (pub rnd : Bytes) :
    (k.package rt c pub rnd).length = 0x30 + c + 8 * ceilDiv k.mat.length 8 + 8 := by
  simp [KeyObj.package, KeyObj.packageHead_length, aeadSeal, algoBytes_length, padTo_length]
  omega

theorem KeyObj.package_take (k : KeyObj) (rt c : Nat) (pub rnd : Bytes) :
    (k.package rt c pub rnd).take 8 = [0x41, 0x4B, 0x49, 0x31, 1, BitVec.ofNat 8 k.type, 0, 0] := by
  simp [KeyObj.package, KeyObj.packageHead, leBytes, zeros]

/-- The type and the ciphertext length of a receiver's key that a key may be sent to (R140). -/
def sendsTo (x : Job) (k : KeyObj) (rt c : Nat) : Prop :=
  x.inLen = 1184 ∧ rt = 0x11 ∧ c = 1088 ∧ k.category5 = false ∨ x.inLen = 1568 ∧ rt = 0x12 ∧ c = 1568

/-- KEY_EXPORT's state when its units have encapsulated. -/
def State.encapsulated (s : State) (j : Nat) (x : Job) (rt : Nat) : State :=
  (s.onUnits j x {} (fun s => ((if rt = 0x11 then 28000 else 40000) + s.freeNum.1, s.freeNum.2)) id).spendUse j

section
variable {s : State} {j slot : Nat} {x : Job} {k : KeyObj} (h : s.cmdJob j 0x5006 = some x) (hx : x.key = some (slot, k))
include h hx

theorem exec_keyExport_barred (hb : k.policy.flag polExport = false) :
    exec (.keyExport j) s = .next (s.doneErr j keyErr 0x010D).settle := by
  simp [exec_keyExport, execKeyExport, finish, h, hx, hb]

theorem exec_keyExport_weak (hb : k.policy.flag polExport = true) (hlen : x.inLen = 1184) (hcat : k.category5 = true) :
    exec (.keyExport j) s = .next (s.doneErr j keyErr 0x010E).settle := by
  simp [exec_keyExport, execKeyExport, finish, h, hx, hb, hlen, hcat]

theorem exec_keyExport_answers {rt c : Nat} (hb : k.policy.flag polExport = true) (hto : sendsTo x k rt c)
    (hpub : pubKeyErr rt x.block = none) (hwin : k.windowErr s.glb.ptcLife.toNat = none) (hr : s.UnitsReady x {}) :
    exec (.keyExport j) s = .next ((s.encapsulated j x rt).done j (k.package rt c x.block x.rnd)).settle := by
  rcases hto with ⟨hlen, rfl, rfl, hcat⟩ | ⟨hlen, rfl, rfl⟩
  · simp only [exec_keyExport, execKeyExport, finish, h, hx, hb, hlen, hcat, if_true, hpub, State.inWindow_open hwin]
    rw [State.onUnits_ready hr]
    rfl
  · have hne : x.inLen ≠ 1184 := by omega
    have hcat : (k.category5 && decide (0x12 = 0x11)) = false := Bool.and_false _
    simp only [exec_keyExport, execKeyExport, finish, h, hx, hb, if_neg hne, hcat, hpub, State.inWindow_open hwin]
    rw [State.onUnits_ready hr]
    rfl

end

/-- Settles O26, refusal by refusal. -/
theorem keyExportCommands : Obligations.KeyExportCommands := by
  unfold Obligations.KeyExportCommands
  intro s j slot wslot x k w hx
  refine ⟨fun h hw => ⟨fun hst => ?stateful, fun hmax => ?limited, fun hd hex => ?kept, fun hst hmax hex => ?free⟩,
    fun h hb => ?barred, fun h hb hlen hcat => ?weak, fun rt c h hb hto hpub hwin hr hout => ?exports⟩
  case stateful =>
    exact ⟨_, exec_keyWrap_barred h hx hw (by simp [KeyObj.neverWrapped, hst]),
      State.doneErr_settled_ends (State.cmdJob_job? h) _ _⟩
  case limited =>
    exact ⟨_, exec_keyWrap_barred h hx hw (by simp [KeyObj.neverWrapped, hmax]),
      State.doneErr_settled_ends (State.cmdJob_job? h) _ _⟩
  case kept =>
    exact ⟨_, exec_keyWrap_barred h hx hw (by simp [KeyObj.neverWrapped, hd, hex]),
      State.doneErr_settled_ends (State.cmdJob_job? h) _ _⟩
  case free =>
    have hb : k.neverWrapped (isDwk x.param) = false := by rcases hex with hex | hex <;> simp [KeyObj.neverWrapped, hst, hmax, hex]
    refine ⟨fun hn => ?worn, fun hn hwin => ⟨fun hat hout => ?wraps, fun hd hat => ⟨fun hs => ?absent, fun hs => ?waits⟩⟩⟩
    case worn => exact ⟨_, exec_keyWrap_worn h hx hw hb hn, State.doneErr_settled_ends (State.cmdJob_job? h) _ _⟩
    case wraps =>
      refine ⟨_, exec_keyWrap_goesOn h hx hw hb hn hwin, ?_⟩
      rw [State.withKek_atHand hw hat]
      exact State.wrapped_ends (State.cmdJob_job? h) hout
    case absent =>
      refine ⟨_, exec_keyWrap_goesOn h hx hw hb hn hwin, ?_⟩
      rw [State.withKek_absent hw hd hat hs]
      exact State.doneErr_settled_ends (State.cmdJob_job? h) _ _
    case waits =>
      obtain ⟨y, hy, hph⟩ := State.withKek_waits hw (State.cmdJob_job? h) hd hat hs (fun s e => s.cmdFail j e)
        (fun s wslot w => s.wrapped j x k wslot w)
      exact ⟨_, y, exec_keyWrap_goesOn h hx hw hb hn hwin, by rw [State.settle_job?, hy], hph⟩
  case barred => exact ⟨_, exec_keyExport_barred h hx hb, State.doneErr_settled_ends (State.cmdJob_job? h) _ _⟩
  case weak => exact ⟨_, exec_keyExport_weak h hx hb hlen hcat, State.doneErr_settled_ends (State.cmdJob_job? h) _ _⟩
  case exports =>
    have hjob : (s.encapsulated j x rt).HasJob j x.outCap := ((State.cmdJob_hasJob h).onUnits hr (fun _ => rfl)).spendUse
    exact ⟨_, _, exec_keyExport_answers h hx hb hto hpub hwin hr, hjob.done_ends ((k.package_length rt c _ _).trans_le hout),
      k.package_take rt c _ _, k.package_length rt c _ _⟩

end Sys2Proof.Machine
end

section
/-! PROOFS. KEY_REPLACE (R141): the statement on replacements, which is false of a key table that lists a slot twice. -/

namespace Sys2Proof.Machine

theorem exec_keyReplace (j : Nat) (s : State) : exec (.keyReplace j) s = execKeyReplace j s := rfl

/-! ## A key that makes room in its own slot -/

/-- A symmetric key to replace. -/
def aesKey : KeyObj :=
  { uid := 1, type := 1, len := 16, halfA := some 1, mat := zeros 16, policy := { mask := 1, notAfter := 0xFFFFFFFF } }

/-- A key whose run fills the table. -/
def fillingKey : KeyObj := { uid := 3, type := 0, len := 256 * 4194302, halfA := some 2 }

/-- KEY_REPLACE in place, its key checked. -/
def replaceJob : Job :=
  { fn := 0, ring := 0, start := 0, n := 1, seq := 0, opcode := 0x5007, cls := 0, order := false, irq := false, words := [], exts := []
    deadline := none, gen := 0, stage := .firmware, key := some (6, aesKey) }

/-- A full key table, whose directory lists slot 6 twice: reading finds `aesKey`, and the key to evict is `spooledKey`. -/
def twoInFullTable : State :=
  { kst := { keys := [(6, aesKey), (6, spooledKey), (262145, fillingKey)] }, jobs := [(0, replaceJob)] }

/-- The replacement that a slot's key is under after an instruction. -/
def replacingAfter (o : Host.Outcome State Fault Refusal) (slot : Nat) : Option Replacing :=
  match o with
  | .next t => (t.key? slot).bind (·.repl)
  | _ => none

/-- t0 of the replacement evicts `spooledKey` and writes it back over `aesKey`, so no shadow is recorded. -/
theorem twoInFullTable_keyReplace : (replacingAfter (exec (.keyReplace 0) twoInFullTable) 6).isNone = true := by
  rw [exec_keyReplace]
  decide

/-- Refutes O27 by its first clause: the statement is about every key table, and of one that lists a slot twice the eviction that makes
room for the shadow reads the second entry and overwrites the first, so that the key to replace has left its slot. -/
theorem not_keyReplacementCommands : ¬ Obligations.KeyReplacementCommands := by
  unfold Obligations.KeyReplacementCommands
  intro h
  obtain ⟨t, y, r, hrun, hkey, -, -, -, hrepl, -⟩ := (h twoInFullTable 6 aesKey rfl).1 0 replaceJob rfl rfl (by decide) rfl (by decide)
    (by decide) (by decide) (by decide) (by decide) (by decide) (by decide) (by decide)
  have hnone := twoInFullTable_keyReplace
  rw [hrun] at hnone
  simp [replacingAfter, hkey, hrepl] at hnone

end Sys2Proof.Machine
end

section
/-! PROOFS. The post-quantum operations (chapter 6): how a computation ends, the lengths of what each operation answers, the places of
the index fields of a stateful signature, and the end of each operation's job. -/

namespace Sys2Proof.Machine

/-! ## The end of a computation (R71, R204) -/

theorem State.running_job? {s : State} {j fam op : Nat} {x : Job} (h : s.running j fam op = some x) : s.job? j = some x := by
  unfold State.running at h
  split at h
  · next y hy =>
    split at h
    · rwa [← h]
    · cases h
  · cases h

@[simp] theorem State.ends_kst (s : State) (j m d c : Nat) (r : Bytes) : (s.ends j m d c r).kst = s.kst := by simp [State.ends]

/-- The job of a computation that has ended holds its status and its result, and waits for S6. -/
theorem State.ends_job? {s : State} {j : Nat} {x : Job} (h : s.job? j = some x) (m d c : Nat) (r : Bytes) :
    ∃ y, (s.ends j m d c r).settle.job? j = some y ∧ y.stage = .ended ∧ y.major = m ∧ y.detail = d ∧ y.result = r :=
  ⟨_, by rw [State.settle_job?, State.ends, State.modJob_job?, h]; rfl, rfl, rfl, rfl, rfl⟩

theorem State.ends_computed {s : State} {j : Nat} {x : Job} (h : s.job? j = some x) (m d c : Nat) (r : Bytes) :
    (s.ends j m d c r).settle.Computed j m d r.length := by
  obtain ⟨y, hy, hstage, hmajor, hdetail, rfl⟩ := State.ends_job? h m d c r
  exact ⟨y, hy, hstage, hmajor, hdetail, rfl⟩

/-- A verification that first looks at the form of what it is given (`bad`, with its own detail) and then at the signature (`ok`)
ends in one of three ways. -/
theorem State.endsVerify_cases {c : Instr} {s : State} {j f n : Nat} {bad ok : Bool}
    (hrun : exec c s = .next (s.endsVerify j f (if bad then some n else if ok then none else some 0x0201)).settle) :
    (bad = true → exec c s = .next (s.ends j 0x01 n f []).settle) ∧
    (bad = false → ok = false → exec c s = .next (s.ends j 0x01 0x0201 f []).settle) ∧
    (bad = false → ok = true → exec c s = .next (s.ends j 0 0 f []).settle) := by
  rw [hrun]
  refine ⟨?malformed, ?forged, ?valid⟩
  case malformed => rintro rfl; rfl
  case forged => rintro rfl rfl; rfl
  case valid => rintro rfl rfl; rfl

/-! ## Lengths (Tables 6.6, 6.18, 6.19, 6.20) -/

@[simp] theorem kemOut_length (x : Job) (n : Nat) : (kemOut x n).length = n := algoBytes_length _ _ _

@[simp] theorem mlkemShared_length (t : Nat) (mat ct : Bytes) : (mlkemShared t mat ct).length = 32 := algoBytes_length _ _ _

@[simp] theorem mlkemEncaps_length (ek rnd : Bytes) : (mlkemEncaps ek rnd).length = 1120 := algoBytes_length _ _ _

@[simp] theorem agreeZ_length (t : Nat) (priv peer : Bytes) (n : Nat) : (agreeZ t priv peer n).length = n := algoBytes_length _ _ _

theorem agreePub_length (t : Nat) (priv : Bytes) {n : Nat} (hn : 1 ≤ n) : (agreePub t priv n).length = n := by
  unfold agreePub
  split
  · rw [List.length_cons, algoBytes_length]; omega
  · exact algoBytes_length _ _ _

theorem mldsaSign_length (p : Nat) (ins : List Bytes) : (mldsaSign p ins).length = mldsaSig p := algoBytes_length _ _ _

theorem mcCt_add_shared (p : Nat) :
    mcCt p + 32 = [128, 128, 188, 188, 240, 240, 226, 226, 240, 240].getD p 32 := by
  unfold mcCt
  rcases Nat.lt_or_ge p 10 with hp | hp
  · interval_cases p <;> rfl
  · rw [List.getD_eq_default _ _ hp, List.getD_eq_default _ _ hp]

/-- With COMB 0 a hybrid secret is the 32 bytes of a hash, with COMB 1 both parts' 32 bytes (R193). -/
theorem combine_length (x : Job) {km ke : Bytes} (hm : km.length = 32) (he : ke.length = 32) (ctE pkE : Bytes) :
    (combine x km ke ctE pkE).length = if fld x.param 2 2 = 1 then 64 else 32 := by
  unfold combine
  split
  · simp [hm, he]
  · exact algoBytes_length _ _ _

/-- Either classical part is 64 bytes: r and s on P-256, or an Ed25519 signature. -/
theorem Job.classicalSign_length (x : Job) : x.classicalSign.length = 64 := by
  unfold Job.classicalSign
  split <;> exact algoBytes_length _ _ _

/-! ## Key encapsulation (R167, R171, R187 to R189, R192 to R194) -/

/-- ct_M ‖ ct_E ‖ K of a hybrid encapsulation. -/
def Job.hybridCapsule (x : Job) : Bytes :=
  let m := mlkemEncaps ((x.pubAt 0).take 1184) (x.rnd.take 32)
  let ctE := agreePub (hybridT x.opParam) (x.rnd.drop 32) (hybridE x.opParam)
  let ke := agreeZ (hybridT x.opParam) (x.rnd.drop 32) ((x.pubAt 0).drop 1184) 32
  m.take 1088 ++ ctE ++ combine x (m.drop 1088) ke ctE ((x.pubAt 0).drop 1184)

/-- The shared secret of a hybrid decapsulation. -/
def Job.hybridSecret (x : Job) : Bytes :=
  combine x (mlkemShared 0x11 (x.mat.take 2464) (x.inp.take 1088))
    (agreeZ (hybridT x.opParam) (x.mat.drop 2464) (x.inp.drop 1088) 32) (x.inp.drop 1088) (x.ownPub.drop 1184)

theorem hybridE_pos (p : Nat) : 1 ≤ hybridE p := by
  unfold hybridE; split <;> decide

theorem Job.hybridCapsule_length (x : Job) :
    x.hybridCapsule.length = 1088 + hybridE x.opParam + if fld x.param 2 2 = 1 then 64 else 32 := by
  unfold Job.hybridCapsule
  simp [combine_length, agreePub_length _ _ (hybridE_pos _), Nat.add_assoc]

theorem Job.hybridSecret_length (x : Job) : x.hybridSecret.length = if fld x.param 2 2 = 1 then 64 else 32 :=
  combine_length x (mlkemShared_length _ _ _) (agreeZ_length _ _ _ _) _ _

section
variable {s : State} {j : Nat} {x : Job}

theorem exec_mlKemEncapsulate_ends (h : s.running j 0x11 1 = some x) :
    exec (.mlKemEncapsulate j) s = .next (s.ends j 0 0 x.figure (kemOut x (mlkemCt x.opParam + 32))).settle := by
  change execMlKemEncapsulate j s = _
  simp only [execMlKemEncapsulate, finish, h, State.endsOk]

theorem exec_mlKemDecapsulate_ends (h : s.running j 0x11 2 = some x) :
    exec (.mlKemDecapsulate j) s = .next (s.ends j 0 0 x.figure (mlkemShared (0x0F + x.opParam) x.mat x.inp)).settle := by
  change execMlKemDecapsulate j s = _
  simp only [execMlKemDecapsulate, finish, h, State.endsOk]

theorem exec_hqcEncapsulate_ends (h : s.running j 0x12 1 = some x) :
    exec (.hqcEncapsulate j) s = .next (s.ends j 0 0 x.figure (kemOut x (hqcCt x.opParam + 64))).settle := by
  change execHqcEncapsulate j s = _
  simp only [execHqcEncapsulate, finish, h, State.endsOk]

theorem exec_hqcDecapsulate_ends (h : s.running j 0x12 2 = some x) :
    exec (.hqcDecapsulate j) s = .next (s.ends j 0 0 x.figure (algoBytes x.opcode [x.mat, x.inp] 64)).settle := by
  change execHqcDecapsulate j s = _
  simp only [execHqcDecapsulate, finish, h, State.endsOk]

theorem exec_mcelieceEncapsulate_ends (h : s.running j 0x13 1 = some x) :
    exec (.mcelieceEncapsulate j) s = .next (s.ends j 0 0 x.figure (kemOut x (mcCt x.opParam + 32))).settle := by
  change execMcelieceEncapsulate j s = _
  simp only [execMcelieceEncapsulate, finish, h, State.endsOk]

theorem exec_mcelieceDecapsulate_ends (h : s.running j 0x13 2 = some x) :
    exec (.mcelieceDecapsulate j) s = .next (s.ends j 0 0 x.figure (algoBytes x.opcode [x.mat, x.inp] 32)).settle := by
  change execMcelieceDecapsulate j s = _
  simp only [execMcelieceDecapsulate, finish, h, State.endsOk]

theorem exec_hybridEncapsulate_ends (h : s.running j 0x81 1 = some x) :
    exec (.hybridEncapsulate j) s = .next (s.ends j 0 0 x.figure x.hybridCapsule).settle := by
  change execHybridEncapsulate j s = _
  simp only [execHybridEncapsulate, finish, h, State.endsOk, Job.hybridCapsule]

theorem exec_hybridDecapsulate_ends (h : s.running j 0x81 2 = some x) :
    exec (.hybridDecapsulate j) s = .next (s.ends j 0 0 x.figure x.hybridSecret).settle := by
  change execHybridDecapsulate j s = _
  simp only [execHybridDecapsulate, finish, h, State.endsOk, Job.hybridSecret]

end

/-! ## Attempts (R176, R245) -/

section
variable {x : Job}

theorem attemptsEnd_accepted (hf : x.fan = []) (ha : acceptedAttempt x < 1000) :
    attemptsEnd x = some (some (acceptedAttempt x)) := by simp [attemptsEnd, hf, ha]

theorem attemptsEnd_spent (hf : x.fan = []) (ha : 1000 ≤ acceptedAttempt x) : attemptsEnd x = some none := by
  simp [attemptsEnd, hf, ha]

theorem attemptsEnd_won (hf : x.fan ≠ []) (hw : x.winner.isSome = true) : attemptsEnd x = some (some (acceptedAttempt x)) := by
  simp [attemptsEnd, hf, hw]

theorem attemptsEnd_goesOn (hf : x.fan ≠ []) (hw : x.winner = none) (hn : x.nextAttempt < 1000) : attemptsEnd x = none := by
  simp [attemptsEnd, hf, hw, hn]

theorem max_one_fan_single (hf : x.fan = []) : max 1 x.fan.length = 1 := by rw [hf]; rfl

theorem max_one_fan (hf : x.fan ≠ []) : max 1 x.fan.length = x.fan.length := max_eq_right (List.length_pos_iff.mpr hf)

end

/-! ## ML-DSA and SLH-DSA (R172 to R180, R489) -/

section
variable {s : State} {j : Nat} {x : Job}

theorem exec_mlDsaSign_accepted {a : Nat} (h : s.running j 0x21 1 = some x) (ha : attemptsEnd x = some (some a)) :
    exec (.mlDsaSign j) s = .next
      (s.ends j 0 0 (mldsaCycles x (max 1 x.fan.length) a) (mldsaSign x.opParam x.mldsaIns)).settle := by
  change execMlDsaSign j s = _
  simp only [execMlDsaSign, finish, h, ha]

theorem exec_mlDsaSign_spent (h : s.running j 0x21 1 = some x) (ha : attemptsEnd x = some none) :
    exec (.mlDsaSign j) s = .next (s.ends j 0x09 0x0203 (mldsaSpent x (max 1 x.fan.length)) []).settle := by
  change execMlDsaSign j s = _
  simp only [execMlDsaSign, finish, h, ha, integrityErr]

theorem exec_mlDsaSign_goesOn (h : s.running j 0x21 1 = some x) (ha : attemptsEnd x = none) :
    exec (.mlDsaSign j) s = .next s.settle := by
  change execMlDsaSign j s = _
  simp only [execMlDsaSign, finish, h, ha]

theorem exec_mlDsaVerify_ends (h : s.running j 0x21 2 = some x) : exec (.mlDsaVerify j) s = .next (s.endsVerify j x.figure
    (if !mldsaHintOk x.opParam (x.auxData.take (mldsaSig x.opParam)) then some 0x0202
     else if mldsaVerify x.opParam (x.pubAt (mldsaSig x.opParam)) (x.mu (x.pubAt (mldsaSig x.opParam)))
       (x.auxData.take (mldsaSig x.opParam)) then none else some 0x0201)).settle := by
  change execMlDsaVerify j s = _
  simp only [execMlDsaVerify, finish, h]

theorem exec_slhDsaSign_single (h : s.running j 0x22 1 = some x) (hn : x.spns.length ≤ 1) : exec (.slhDsaSign j) s = .next
    (s.ends j 0 0 x.figure (algoBytes x.opcode x.slhIns (slhSig x.opParam))).settle := by
  change execSlhDsaSign j s = _
  simp only [execSlhDsaSign, finish, h, if_pos hn, State.endsOk]

theorem exec_slhDsaSign_fanned (h : s.running j 0x22 1 = some x) (hn : ¬ x.spns.length ≤ 1) : exec (.slhDsaSign j) s = .next
    (s.freeNum.2.ends j 0 0 s.freeNum.1 (algoBytes x.opcode x.slhIns (slhSig x.opParam))).settle := by
  change execSlhDsaSign j s = _
  simp only [execSlhDsaSign, finish, h, if_neg hn]

/-- On any number of spindles an SLH-DSA job ends OK with the same signature (R180). -/
theorem exec_slhDsaSign_signs (h : s.running j 0x22 1 = some x) : ∃ t y, exec (.slhDsaSign j) s = .next t ∧ t.job? j = some y ∧
    y.stage = .ended ∧ y.major = 0 ∧ y.result = algoBytes x.opcode x.slhIns (slhSig x.opParam) ∧ t.kst = s.kst := by
  have hj := State.running_job? h
  by_cases hn : x.spns.length ≤ 1
  · obtain ⟨y, hy, hstage, hmajor, -, hres⟩ := State.ends_job? hj 0 0 x.figure (algoBytes x.opcode x.slhIns (slhSig x.opParam))
    exact ⟨_, y, exec_slhDsaSign_single h hn, hy, hstage, hmajor, hres, by simp⟩
  · obtain ⟨y, hy, hstage, hmajor, -, hres⟩ := State.ends_job? (s := s.freeNum.2) hj 0 0 s.freeNum.1
      (algoBytes x.opcode x.slhIns (slhSig x.opParam))
    exact ⟨_, y, exec_slhDsaSign_fanned h hn, hy, hstage, hmajor, hres, by simp [State.freeNum]⟩

theorem exec_slhDsaVerify_ends (h : s.running j 0x22 2 = some x) : exec (.slhDsaVerify j) s = .next (s.endsVerify j x.figure
    (if Config.accepts x.opcode [x.pubAt (slhSig x.opParam), x.message, x.auxData.take (slhSig x.opParam)] then none
     else some 0x0201)).settle := by
  change execSlhDsaVerify j s = _
  simp only [execSlhDsaVerify, finish, h]

end

/-! ## The index and type fields of a stateful signature (R184) -/

@[simp] theorem beBytes_length (n w : Nat) : (beBytes n w).length = n := by simp [beBytes]

theorem putField_length {b : Bytes} {f : Nat × Bytes} (h : f.1 + f.2.length ≤ b.length) : (putField b f).length = b.length := by
  simp only [putField, List.length_append, List.length_take, List.length_drop]
  omega

theorem foldl_putField_length {fs : List (Nat × Bytes)} {b : Bytes} (h : ∀ f ∈ fs, f.1 + f.2.length ≤ b.length) :
    (fs.foldl putField b).length = b.length := by
  induction fs generalizing b with
  | nil => rfl
  | cons f fs ih =>
    have hf := putField_length (h f (.head _))
    rw [List.foldl_cons, ih, hf]
    rw [hf]
    exact fun g hg => h g (.tail _ hg)

theorem lmsFields_fit (l : Nat × Nat) (off q : Nat) : ∀ f ∈ lmsFields l off q, f.1 + f.2.length ≤ off + lmsSigLen l := by
  simp only [lmsFields, lmsSigLen, List.forall_mem_cons, List.length_append, beBytes_length]
  refine ⟨by omega, by omega, by simp⟩

/-- The fields of the levels of an HSS signature lie within the levels' signatures and the public keys between them. -/
theorem hssFields_fit (ls : List (Nat × Nat)) (off i : Nat) : ∀ f ∈ hssFields ls off i,
    f.1 + f.2.length ≤ off + (ls.map lmsSigLen).sum + ((ls.drop 1).map (fun l => 24 + lmsM l.1)).sum := by
  induction ls generalizing off with
  | nil => simp [hssFields]
  | cons l ls ih =>
    intro f hf
    rcases List.mem_append.mp hf with hf | hf
    · have hfit := lmsFields_fit l off _ f hf
      simp only [List.map_cons, List.sum_cons]
      omega
    · cases ls with
      | nil => cases hf
      | cons m ls =>
        simp only [List.mem_cons] at hf
        simp only [List.map_cons, List.sum_cons, List.drop_succ_cons, List.drop_zero] at ih ⊢
        rcases hf with rfl | hf
        · simp only [List.length_append, beBytes_length]
          omega
        · have hfit := ih _ f hf
          omega

theorem statefulFields_fit (k : KeyObj) (i : Nat) : ∀ f ∈ statefulFields k i, f.1 + f.2.length ≤ statefulLen k := by
  unfold statefulFields statefulLen
  split
  · have hlevels := hssFields_fit (hssLevels k.param) 4 i
    simp only [List.forall_mem_cons, beBytes_length, hssSigLen]
    exact ⟨by omega, hlevels⟩
  · unfold treeSigLen
    cases treeSet k.type (k.param.getD 0 0) with
    | none => exact fun _ hf => absurd hf List.not_mem_nil
    | some set =>
      obtain ⟨n, h, d, shake⟩ := set
      simp only [List.forall_mem_cons, beBytes_length, Nat.add_assoc]
      exact ⟨by omega, fun _ hf => absurd hf List.not_mem_nil⟩

theorem statefulSig_length (k : KeyObj) (i : Nat) (ins : List Bytes) : (statefulSig k i ins).length = statefulLen k := by
  unfold statefulSig
  rw [foldl_putField_length] <;> rw [algoBytes_length]
  exact statefulFields_fit k i

/-! ## HSS, XMSS and XMSS^MT (R184, R185) -/

section
variable {s : State} {j fam : Nat} {x : Job} {c : Instr}

theorem exec_statefulSign_ends {slot i : Nat} {k : KeyObj}
    (hc : (c, fam) ∈ [(Instr.hssSign j, 0x23), (.xmssSign j, 0x24), (.xmssMtSign j, 0x25)])
    (h : s.running j fam 1 = some x) (hk : x.key = some (slot, k)) (hi : x.index = some i) :
    exec c s = .next (s.ends j 0 0 (atOrder x.mask (statefulSign k x.newTree + statefulMsg x (some k)))
      (statefulSig k i [x.mat, x.inp, x.rnd])).settle := by
  have hsign : exec c s = .next (s.signStateful j x).settle := by
    simp only [List.mem_cons, Prod.mk.injEq, List.not_mem_nil, or_false] at hc
    rcases hc with ⟨rfl, rfl⟩ | ⟨rfl, rfl⟩ | ⟨rfl, rfl⟩
    · change execHssSign j s = _; rw [execHssSign, h]; rfl
    · change execXmssSign j s = _; rw [execXmssSign, h]; rfl
    · change execXmssMtSign j s = _; rw [execXmssMtSign, h]; rfl
  rw [hsign, State.signStateful, hk, hi]

theorem exec_statefulVerify_ends {pub : Bytes}
    (hc : (c, fam) ∈ [(Instr.hssVerify j, 0x23), (.xmssVerify j, 0x24), (.xmssMtVerify j, 0x25)])
    (hpub : pub = (if isInline x then x.auxData.drop x.param else x.ownPub)) (h : s.running j fam 2 = some x) :
    exec c s = .next (s.endsVerify j x.figure (if !statefulShape x pub (x.auxData.take x.param) then some 0x0202
      else if Config.accepts x.opcode [pub, x.inp, x.auxData.take x.param] then none else some 0x0201)).settle := by
  subst hpub
  simp only [List.mem_cons, Prod.mk.injEq, List.not_mem_nil, or_false] at hc
  rcases hc with ⟨rfl, rfl⟩ | ⟨rfl, rfl⟩ | ⟨rfl, rfl⟩
  · change execHssVerify j s = _; rw [execHssVerify, h]; rfl
  · change execXmssVerify j s = _; rw [execXmssVerify, h]; rfl
  · change execXmssMtVerify j s = _; rw [execXmssMtVerify, h]; rfl

end

/-! ## Composite signatures (R195 to R197) -/

/-- The cycles of the classical part of a composite signature, and the state after they are drawn: the spec gives a mean for ECDSA and a
figure for Ed25519. -/
def State.classicalCycles (s : State) (x : Job) : Nat × State :=
  if x.opParam = 1 then s.freeNum else (atOrder x.mask 200000, s)

theorem State.classicalCycles_kept (s : State) (x : Job) :
    (s.classicalCycles x).2.jobs = s.jobs ∧ (s.classicalCycles x).2.kst = s.kst := by
  unfold State.classicalCycles
  split <;> exact ⟨rfl, rfl⟩

/-- The ML-DSA-65 part of a composite signature, and its classical part. -/
def Job.compositeSig (x : Job) : Bytes := mldsaSign 2 x.mldsaIns ++ x.classicalSign

theorem Job.compositeSig_length (x : Job) : x.compositeSig.length = 3373 := by
  rw [Job.compositeSig, List.length_append, mldsaSign_length, Job.classicalSign_length]; rfl

/-- The classical part of a composite signature with Ed25519 is a function of the key and the message alone (R196). -/
theorem Job.compositeSig_ed25519 {x : Job} (hp : x.opParam = 2) :
    x.compositeSig.drop 3309 = edSign 0x67 (x.mat.drop 4064) (edIns 0x67 0 [] x.compositeMessage) := by
  rw [Job.compositeSig, List.drop_left' (i := 3309) (mldsaSign_length 2 _), Job.classicalSign, if_neg (by omega)]

section
variable {s : State} {j : Nat} {x : Job}

theorem State.classicalCycles_job? (h : s.job? j = some x) : (s.classicalCycles x).2.job? j = some x :=
  (State.job?_of_jobs (s.classicalCycles_kept x).1 j).trans h

theorem exec_compositeSign_accepted {a : Nat} (h : s.running j 0x82 1 = some x) (ha : attemptsEnd x = some (some a)) :
    exec (.compositeSign j) s = .next ((s.classicalCycles x).2.ends j 0 0
      (mldsaCycles x (max 1 x.fan.length) a + (s.classicalCycles x).1) x.compositeSig).settle := by
  change execCompositeSign j s = _
  simp only [execCompositeSign, finish, h, ha, State.classicalCycles, Job.compositeSig]

theorem exec_compositeSign_spent (h : s.running j 0x82 1 = some x) (ha : attemptsEnd x = some none) :
    exec (.compositeSign j) s = .next ((s.classicalCycles x).2.ends j 0x09 0x0203
      (mldsaSpent x (max 1 x.fan.length) + (s.classicalCycles x).1) []).settle := by
  change execCompositeSign j s = _
  simp only [execCompositeSign, finish, h, ha, State.classicalCycles, integrityErr]

theorem exec_compositeSign_goesOn (h : s.running j 0x82 1 = some x) (ha : attemptsEnd x = none) :
    exec (.compositeSign j) s = .next s.settle := by
  change execCompositeSign j s = _
  simp only [execCompositeSign, finish, h, ha]

/-- Both parts are evaluated, and the detail says which of them failed (R197). -/
theorem exec_compositeVerify_ends {pq cl : Bool} (h : s.running j 0x82 2 = some x)
    (hpq : pq = (mldsaHintOk 2 (x.auxData.take 3309) && mldsaVerify 2 ((x.pubAt 3373).take 1952)
      (muOf ((x.pubAt 3373).take 1952) (formatted 0 [] x.compositeMessage)) (x.auxData.take 3309)))
    (hcl : cl = x.classicalOk ((x.pubAt 3373).drop 1952) (slice x.auxData 3309 64)) :
    exec (.compositeVerify j) s = .next (s.endsVerify j x.figure
      (if pq && cl then none else some (if cl then 0x0203 else if pq then 0x0204 else 0x0205))).settle := by
  subst hpq hcl
  change execCompositeVerify j s = _
  simp only [execCompositeVerify, finish, h]

end

/-! ## The statement settled -/

/-- Settles O52: each operation's lemma gives the state its job ends in, and the lengths are those of its answer. -/
theorem postQuantumOperations : Obligations.PostQuantumOperations := by
  unfold Obligations.PostQuantumOperations
  intro s j x
  refine ⟨?kem, ?slhSign, ?mldsaSign, ?mldsaWon, ?composite, ?ed25519, ?goesOn, ?stateful, ?verify, ?statefulVerify, ?compositeVerify⟩
  case kem =>
    intro c fam op p len hc h hp
    simp only [List.mem_cons, Prod.mk.injEq, List.not_mem_nil, or_false] at hc
    rcases hc with ⟨rfl, rfl, rfl, rfl, rfl⟩ | ⟨rfl, rfl, rfl, rfl, rfl⟩ | ⟨rfl, rfl, rfl, rfl, rfl⟩ | ⟨rfl, rfl, rfl, rfl, rfl⟩ |
      ⟨rfl, rfl, rfl, rfl, rfl⟩ | ⟨rfl, rfl, rfl, rfl, rfl⟩ | ⟨rfl, rfl, rfl, rfl, rfl⟩ | ⟨rfl, rfl, rfl, rfl, rfl⟩ |
      ⟨rfl, rfl, rfl, rfl, rfl⟩ | ⟨rfl, rfl, rfl, rfl, rfl⟩ | ⟨rfl, rfl, rfl, rfl, rfl⟩ | ⟨rfl, rfl, rfl, rfl, rfl⟩ |
      ⟨rfl, rfl, rfl, rfl, rfl⟩
    · exact ⟨_, exec_mlKemEncapsulate_ends h, by rw [kemOut_length, hp]; rfl⟩
    · exact ⟨_, exec_mlKemEncapsulate_ends h, by rw [kemOut_length, hp]; rfl⟩
    · exact ⟨_, exec_mlKemEncapsulate_ends h, by rw [kemOut_length, hp]; rfl⟩
    · exact ⟨_, exec_mlKemDecapsulate_ends h, mlkemShared_length _ _ _⟩
    · exact ⟨_, exec_hqcEncapsulate_ends h, by rw [kemOut_length, hp]; rfl⟩
    · exact ⟨_, exec_hqcEncapsulate_ends h, by rw [kemOut_length, hp]; rfl⟩
    · exact ⟨_, exec_hqcEncapsulate_ends h, by rw [kemOut_length, hp]; rfl⟩
    · exact ⟨_, exec_hqcDecapsulate_ends h, algoBytes_length _ _ _⟩
    · exact ⟨_, exec_mcelieceEncapsulate_ends h, (kemOut_length _ _).trans (mcCt_add_shared _)⟩
    · exact ⟨_, exec_mcelieceDecapsulate_ends h, algoBytes_length _ _ _⟩
    · exact ⟨_, exec_hybridEncapsulate_ends h, by rw [x.hybridCapsule_length, hp]; split <;> rfl⟩
    · exact ⟨_, exec_hybridEncapsulate_ends h, by rw [x.hybridCapsule_length, hp]; split <;> rfl⟩
    · exact ⟨_, exec_hybridDecapsulate_ends h, x.hybridSecret_length⟩
  case slhSign =>
    rintro h r rfl
    obtain ⟨t, y, hrun, hy, hstage, hmajor, hres, hkst⟩ := exec_slhDsaSign_signs h
    exact ⟨exec_slhDsaSign_single h, t, y, hrun, hy, hstage, hmajor, hres, algoBytes_length _ _ _, hkst⟩
  case mldsaSign =>
    intro h hf
    rw [← max_one_fan_single hf]
    exact ⟨fun ha => ⟨exec_mlDsaSign_accepted h (attemptsEnd_accepted hf ha), mldsaSign_length _ _⟩,
      fun ha => exec_mlDsaSign_spent h (attemptsEnd_spent hf ha)⟩
  case mldsaWon =>
    intro h hf hw
    rw [← max_one_fan hf]
    exact exec_mlDsaSign_accepted h (attemptsEnd_won hf hw)
  case composite =>
    intro h hf
    have hj := State.classicalCycles_job? (State.running_job? h)
    have hkst := (s.classicalCycles_kept x).2
    refine ⟨fun ha => ⟨_, exec_compositeSign_accepted h (attemptsEnd_accepted hf ha), ?length, by simpa using hkst⟩,
      fun ha => ⟨_, exec_compositeSign_spent h (attemptsEnd_spent hf ha), State.ends_computed hj _ _ _ _, by simpa using hkst⟩⟩
    case length => rw [← x.compositeSig_length]; exact State.ends_computed hj _ _ _ _
  case ed25519 =>
    intro h hf hp ha
    obtain ⟨y, hy, -, -, -, hres⟩ := State.ends_job? (State.classicalCycles_job? (State.running_job? h)) 0 0
      (mldsaCycles x (max 1 x.fan.length) (acceptedAttempt x) + (s.classicalCycles x).1) x.compositeSig
    exact ⟨_, y, exec_compositeSign_accepted h (attemptsEnd_accepted hf ha), hy, by rw [hres, Job.compositeSig_ed25519 hp]⟩
  case goesOn =>
    intro c fam hc h hf hw hn
    have ha := attemptsEnd_goesOn hf hw hn
    simp only [List.mem_cons, Prod.mk.injEq, List.not_mem_nil, or_false] at hc
    rcases hc with ⟨rfl, rfl⟩ | ⟨rfl, rfl⟩
    · exact exec_mlDsaSign_goesOn h ha
    · exact exec_compositeSign_goesOn h ha
  case stateful =>
    intro c fam slot k i hc h hk hi
    exact ⟨_, _, exec_statefulSign_ends hc h hk hi, statefulSig_length _ _ _, rfl⟩
  case verify =>
    intro c fam n bad ok hc h
    simp only [List.mem_cons, Prod.mk.injEq, List.not_mem_nil, or_false] at hc
    rcases hc with ⟨rfl, rfl, rfl, rfl, rfl⟩ | ⟨rfl, rfl, rfl, rfl, rfl⟩
    · exact State.endsVerify_cases (exec_mlDsaVerify_ends h)
    · exact State.endsVerify_cases (exec_slhDsaVerify_ends h)
  case statefulVerify =>
    intro c fam pub hc hpub h
    simpa using State.endsVerify_cases (exec_statefulVerify_ends hc hpub h)
  case compositeVerify =>
    intro pq cl h hpq hcl
    rw [exec_compositeVerify_ends h hpq hcl]
    refine ⟨?both, ?pqFails, ?classicalFails, ?neither⟩ <;> rintro rfl rfl <;> rfl

end Sys2Proof.Machine
end

section
/-! PROOFS. Customer routines (chapter 9): local memory read after it is written, what a routine's word does when it issues no
nano-word, how a fault ends the job, and how a gate entry returns to its caller. -/

namespace Sys2Proof

theorem Tbl.getD_putBytes_of_lt (bs : Bytes) : ∀ (t : Tbl Byte) {a i : Nat}, i < a →
    Tbl.getD (Tbl.putBytes t a bs) i 0 = Tbl.getD t i 0 := by
  induction bs with
  | nil => intro t a i _; rfl
  | cons b bs ih => intro t a i h; exact (ih _ (Nat.lt_succ_of_lt h)).trans (Tbl.getD_put_ne _ _ _ h.ne)

@[simp] theorem Tbl.bytes_putBytes (bs : Bytes) : ∀ (t : Tbl Byte) (a : Nat), Tbl.bytes (Tbl.putBytes t a bs) a bs.length = bs := by
  induction bs with
  | nil => intro t a; rfl
  | cons b bs ih =>
    intro t a
    have hhead : Tbl.getD (Tbl.putBytes t a (b :: bs)) a 0 = b :=
      (Tbl.getD_putBytes_of_lt bs _ (Nat.lt_succ_self a)).trans (Tbl.getD_put_self _ _ _ _)
    have htail := ih (Tbl.put t 0 a b) (a + 1)
    simp only [Tbl.bytes, Nat.add_right_comm a 1] at htail
    rw [Tbl.bytes, List.length_cons, List.range_succ_eq_map, List.map_cons, List.map_map, Nat.add_zero, hhead]
    exact congrArg (b :: ·) htail

namespace Machine

/-! ## Local memory (Table 9.8) -/

theorem Micro.read_of_mem {m m' : Micro} (h : m'.mem = m.mem) (a n : Nat) : m'.read a n = m.read a n := by
  unfold Micro.read; rw [h]

theorem Micro.read_eq_bytes (m : Micro) {a n : Nat} (h : a + n ≤ 65536) : m.read a n = Tbl.bytes m.mem a n :=
  List.map_congr_left fun i hi => by
    rw [Nat.mod_eq_of_lt (by have := List.mem_range.mp hi; omega)]

@[simp] theorem Micro.read_length (m : Micro) (a n : Nat) : (m.read a n).length = n := by simp [Micro.read]

/-- One byte of a write; banks 0 and 1 take none. -/
def writeByte (a : Nat) (t : Tbl Byte) (e : Byte × Nat) : Tbl Byte :=
  if (a + e.2) % 65536 < 0x4000 then t else t.put 0 ((a + e.2) % 65536) e.1

theorem foldl_writeByte {a : Nat} (ha : 0x4000 ≤ a) (b : Bytes) : ∀ {k : Nat} (t : Tbl Byte), a + k + b.length ≤ 65536 →
    (b.zipIdx k).foldl (writeByte a) t = Tbl.putBytes t (a + k) b := by
  induction b with
  | nil => intro k t _; rfl
  | cons c b ih =>
    intro k t h
    rw [List.length_cons] at h
    have hk : (a + k) % 65536 = a + k := Nat.mod_eq_of_lt (by omega)
    have hbyte : writeByte a t (c, k) = t.put 0 (a + k) c := by rw [writeByte, hk, if_neg (by omega)]
    rw [List.zipIdx_cons, List.foldl_cons, hbyte, ih _ (by omega)]
    rfl

/-- From bank 2 on a string that does not wrap is put down byte by byte. -/
theorem Micro.write_mem (m : Micro) {a : Nat} {b : Bytes} (ha : 0x4000 ≤ a) (hb : a + b.length ≤ 65536) :
    (m.write a b).mem = Tbl.putBytes m.mem a b := foldl_writeByte (k := 0) ha b m.mem hb

/-- What is written from bank 2 on, and does not wrap, is read back. -/
theorem Micro.read_write (m : Micro) {a n : Nat} {b : Bytes} (hn : b.length = n) (ha : 0x4000 ≤ a) (hb : a + n ≤ 65536) :
    (m.write a b).read a n = b := by
  subst hn
  rw [Micro.read_eq_bytes _ hb, Micro.write_mem m ha hb, Tbl.bytes_putBytes]

/-- SECRET bits are no bytes. -/
theorem Micro.read_storeResult (m : Micro) (order : Nat) (pub sec : Bool) (a' : Nat) (b : Bytes) (a n : Nat) :
    (m.storeResult order pub sec a' b).read a n = (m.write a' b).read a n := by
  unfold Micro.storeResult
  split
  · rfl
  · split <;> rfl

theorem gateDigest_length (h : GateHash) (n : Nat) : (gateDigest h n).length = n := algoBytes_length _ _ _

/-- A register takes a number of up to 64 bits as it is. -/
theorem regs_put_toNat (t : Tbl W64) (r : Nat) {n : Nat} (h : n < 2 ^ 64) :
    ((t.put 0 r (BitVec.ofNat 64 n)).getD r 0).toNat = n := by
  rw [Tbl.getD_put_self, BitVec.toNat_ofNat, Nat.mod_eq_of_lt h]

/-! ## The routine on a spindle -/

section
variable {s : State} {f c u j : Nat} {x : Job} {e : RtnEntry} {m : Micro}

theorem State.routine?_spindle (h : s.routine? f c u = some (j, x, e, m)) : s.job? j = some x ∧ (s.unit f c u).micro = m := by
  unfold State.routine? at h
  dsimp only at h
  split at h
  · cases h
  · split at h
    · cases h
    · next hx =>
      split at h
      · cases h
      · split at h
        · cases h; exact ⟨hx, rfl⟩
        · cases h

@[simp] theorem State.setMicro_unit (s : State) (f c u : Nat) (m : Micro) :
    (s.setMicro f c u m).unit f c u = { s.unit f c u with micro := m } := State.unit_setUnit _ _ _ _ _

@[simp] theorem State.setMicro_jobs (s : State) (f c u : Nat) (m : Micro) : (s.setMicro f c u m).jobs = s.jobs := rfl

@[simp] theorem State.setMicro_kst (s : State) (f c u : Nat) (m : Micro) : (s.setMicro f c u m).kst = s.kst := rfl

theorem State.unit_of_units {s t : State} (h : s.units = t.units) (f c u : Nat) : s.unit f c u = t.unit f c u := by
  unfold State.unit; rw [h]

@[simp] theorem State.settle_unit (s : State) (f c u : Nat) : s.settle.unit f c u = s.unit f c u :=
  State.unit_of_units (by simp) f c u

/-- A fault ends the job with INTEGRITY and nothing computed (R278). -/
theorem State.routineFault_computed (hx : s.job? j = some x) (y : Job) (m : Micro) (d : Nat) :
    (s.routineFault f c u j y m d).settle.Computed j 0x09 d 0 := by
  have htrace (v : Ev) : (s.trace v).job? j = some x := (State.job?_of_jobs (by simp) j).trans hx
  obtain ⟨z, hz, hstage, hmajor, hdetail, hres⟩ :=
    State.ends_job? (htrace (y.ev 0x0D none (locCode s.dev f c u) (m.pc + d * 65536))) integrityErr d (m.cycles + 1024) []
  rw [State.settle_job?] at hz
  exact ⟨{ z with rnd := [] }, by
    rw [State.settle_job?, State.routineFault, State.modJob_job?, State.job?_of_jobs (State.setMicro_jobs _ _ _ _ _), hz]; rfl,
    hstage, hmajor, hdetail, congrArg List.length hres⟩

/-- A fault stops the routine. -/
theorem State.routineFault_off (s : State) (f c u j : Nat) (y : Job) (m : Micro) (d : Nat) :
    ((s.routineFault f c u j y m d).settle.unit f c u).micro.on = false := by
  have hunits (t : State) (g : Job → Job) : (t.modJob j g).unit f c u = t.unit f c u := State.unit_of_units (by simp) f c u
  rw [State.settle_unit, State.routineFault, hunits, State.setMicro_unit]

/-! ## Words without a nano-word (R259 to R262) -/

/-- Without a nano-word no unit of the spindle acts. -/
theorem nanoRun_zero (env : NanoEnv) (m : Micro) : nanoRun 0 env m = .ok m := rfl

/-- Without a nano-word a routine waits for the reload of its bank alone. -/
theorem State.wordStall_zero (s : State) (f c u : Nat) :
    s.wordStall f c u 0 0 = if (s.unit f c u).micro.stalled then Config.freeNat (s.free + 511) else 0 := by
  have hworks : nanoWorks 0 = false := rfl
  unfold State.wordStall
  simp [hworks]

/-- How a word leaves its routine: with a fault, or at its successor. -/
def State.wordDone (s : State) (f c u j : Nat) (x : Job) (m : Micro) : Except Nat Micro → State
  | .error d => s.routineFault f c u j x m d
  | .ok m' => s.setMicro f c u m'

theorem State.runWord_other {mine : Nat → Bool} (h : s.routine? f c u = some (j, x, e, m))
    (hmine : mine (fld (s.microAt m.pc) 32 4) = false) : s.runWord f c u mine = s := by
  unfold State.runWord
  simp [h, hmine]

theorem State.runWord_without_nano {w n : Nat} {mine : Nat → Bool} (h : s.routine? f c u = some (j, x, e, m))
    (hw : w = s.microAt m.pc) (hpc : m.pc < 3520 ∨ 3527 < m.pc) (hnano : fld w 10 10 = 0)
    (hn : n = m.cycles + fld w 36 3 + 1 + if m.stalled then Config.freeNat (s.free + 511) else 0)
    (hmine : mine (fld w 32 4) = true) :
    s.runWord f c u mine = ({ s with free := s.free + 512 } : State).wordDone f c u j x { m with cycles := n, stalled := false }
      (microNext w (s.free + 302) { m with cycles := n, stalled := false }) := by
  have hgate : (decide (3520 ≤ m.pc) && decide (m.pc ≤ 3527)) = false := by
    rw [Bool.and_eq_false_iff, decide_eq_false_iff_not, decide_eq_false_iff_not]; omega
  have hzero (lo k : Nat) : fld 0 lo k = 0 := by simp [fld]
  subst hw hn
  unfold State.runWord
  simp only [h, hgate, hmine, hnano, State.nanoAt, if_true, hzero, State.wordStall_zero, nanoRun_zero,
    (State.routine?_spindle h).2, Nat.add_assoc]
  rfl

section
variable {w free : Nat}

theorem microNext_always (hc : fld w 32 4 = 0) : microNext w free m = .ok { m with pc := fld w 20 12 } := by
  unfold microNext
  rw [hc]
  exact congrArg (fun p => Except.ok { m with pc := p }) (Nat.or_zero _)

theorem microNext_lc0 (hc : fld w 32 4 = 2) :
    microNext w free m = .ok { m with pc := fld w 20 12 ||| b2n (m.lc0 ≠ 0), lc0 := m.lc0 - 1 } := by
  unfold microNext
  rw [hc]
  rfl

theorem microNext_tainted_z (hc : fld w 32 4 = 4) (hz : m.z.t = true) : microNext w free m = .error 0x0503 := by
  have hcond : microCond 4 (fld w 0 10) free m = .error 0x0503 := if_pos hz
  unfold microNext
  rw [hc]
  change (match microCond 4 (fld w 0 10) free m with
    | .error f => Except.error f
    | .ok b => Except.ok { microCount 4 m with pc := fld w 20 12 ||| b2n b }) = _
  rw [hcond]

theorem microNext_call (hc : fld w 32 4 = 14) (hd : m.stack.length < 4) (hx : fld w 20 12 ≠ 3523) :
    microNext w free m = .ok { m with
      stack := (m.pc + 1) % 4096 :: m.stack, x := m.x.put 0 15 (BitVec.ofNat 64 (fld w 0 10)), pc := fld w 20 12 } := by
  unfold microNext
  rw [hc]
  exact if_neg (by simp [hx, Nat.not_le.mpr hd])

theorem microNext_call_full (hc : fld w 32 4 = 14) (hd : 4 ≤ m.stack.length) : microNext w free m = .error 0x0501 := by
  unfold microNext
  rw [hc]
  exact if_pos (by simp [hd])

theorem microNext_return {a : Nat} {l : List Nat} (hc : fld w 32 4 = 15) (hs : m.stack = a :: l) :
    microNext w free m = .ok { m with stack := l, pc := a } := by
  unfold microNext
  rw [hc, hs]
  rfl

theorem microNext_return_empty (hc : fld w 32 4 = 15) (hs : m.stack = []) : microNext w free m = .error 0x0501 := by
  unfold microNext
  rw [hc, hs]
  rfl

end

/-! ## Gate entries (R279, Table 9.10) -/

section
variable {addr : Nat} {cmd : Instr} {g : Job → RtnEntry → Micro → Nat → Option (Nat × Micro)}

theorem exec_gate_elsewhere (h : s.routine? f c u = some (j, x, e, m)) (hcmd : exec cmd s = finish (s.gate f c u addr g))
    (hpc : m.pc ≠ addr) : exec cmd s = .next s.settle := by
  rw [hcmd, finish]
  unfold State.gate
  simp only [h]
  rw [if_pos hpc]

/-- A gate entry at its address leaves its body's effect, returns to its caller, and touches no job and no key. -/
theorem exec_gate_returns {ret extra : Nat} {l : List Nat} {m' : Micro} (h : s.routine? f c u = some (j, x, e, m))
    (hs : m.stack = ret :: l) (hpc : m.pc = addr) (hcmd : exec cmd s = finish (s.gate f c u addr g))
    (hbody : g x e m (m.x.getD 15 0).toNat = some (extra, m')) :
    ∃ t, exec cmd s = .next t ∧ (t.unit f c u).micro = { m' with stack := l, pc := ret, cycles := m.cycles + extra } ∧
      t.jobs = s.jobs ∧ t.kst = s.kst := by
  refine ⟨_, hcmd, ?_⟩
  have hgate : s.gate f c u addr g = ({ s with free := s.free + 512 } : State).setMicro f c u
      { m' with stack := l, pc := ret, cycles := m.cycles + extra } := by
    unfold State.gate
    simp only [h]
    rw [if_neg (not_not.mpr hpc), hs, hbody]
  rw [hgate]
  simp

end

theorem Micro.holdHash_hash (m : Micro) (h : GateHash) : (m.holdHash h).hash = some h := by
  unfold Micro.holdHash
  dsimp only
  split <;> rfl

/-- The open context takes the bytes behind those it has. -/
theorem Micro.absorb_hash {h : GateHash} (hm : m.hash = some h) (order : Nat) (sec : Bool) (b : Bytes) :
    ∃ k, (m.absorb order sec b).2.hash = some k ∧ k.alg = h.alg ∧ k.data = h.data ++ b := by
  unfold Micro.absorb
  simp only [hm]
  split
  · exact ⟨_, Micro.holdHash_hash _ _, rfl, rfl⟩
  · exact ⟨_, rfl, rfl, rfl⟩

/-- The commands of the gate, each with the address of its entry (Table 9.10). -/
def gateEntries (f c u : Nat) : List (Instr × Nat) :=
  [(.hashBegin f c u, 3520), (.absorbKey f c u, 3521), (.absorbX f c u, 3522), (.absorbInput f c u, 3523),
    (.absorbAux f c u, 3524), (.hashFinal f c u, 3525), (.maskedXor f c u, 3526), (.unmaskOut f c u, 3527)]

/-- Each command of the gate runs a body at its own address; only ABSORB_INPUT's waits, for a piece already asked for. -/
theorem exec_gateEntry {cmd : Instr} {addr : Nat} (hcmd : (cmd, addr) ∈ gateEntries f c u) (s : State) (x : Job) (e : RtnEntry)
    (m : Micro) (imm : Nat) :
    ∃ g, exec cmd s = finish (s.gate f c u addr g) ∧
      ((addr = 3523 → m.wantPiece = false) → ∃ extra m', g x e m imm = some (extra, m')) := by
  simp only [gateEntries, List.mem_cons, Prod.mk.injEq, List.not_mem_nil, or_false] at hcmd
  rcases hcmd with ⟨rfl, rfl⟩ | ⟨rfl, rfl⟩ | ⟨rfl, rfl⟩ | ⟨rfl, rfl⟩ | ⟨rfl, rfl⟩ | ⟨rfl, rfl⟩ | ⟨rfl, rfl⟩ | ⟨rfl, rfl⟩
  case inr.inr.inr.inl => exact ⟨_, rfl, fun hw => ⟨_, _, if_neg (Bool.eq_false_iff.mp (hw rfl))⟩⟩
  all_goals exact ⟨_, rfl, fun _ => ⟨_, _, rfl⟩⟩

section
variable {ret imm : Nat} {l : List Nat} {o : GateHash}

theorem exec_hashBegin_opens (h : s.routine? f c u = some (j, x, e, m)) (hs : m.stack = ret :: l)
    (himm : imm = (m.x.getD 15 0).toNat) (hpc : m.pc = 3520) : ∃ t, exec (.hashBegin f c u) s = .next t ∧
      (t.unit f c u).micro.hash = some { alg := imm, data := [], sec := false } := by
  obtain ⟨t, ht, hm, -, -⟩ := exec_gate_returns (cmd := .hashBegin f c u) h hs hpc rfl rfl
  exact ⟨t, ht, by rw [hm, himm]; exact Micro.holdHash_hash _ _⟩

/-- An absorb whose body leaves the open context with `b` behind its bytes. -/
theorem exec_gate_absorbs {addr extra order : Nat} {cmd : Instr} {sec : Bool} {b : Bytes} {m' : Micro}
    {g : Job → RtnEntry → Micro → Nat → Option (Nat × Micro)} (h : s.routine? f c u = some (j, x, e, m)) (hs : m.stack = ret :: l)
    (ho : m.hash = some o) (hpc : m.pc = addr) (hcmd : exec cmd s = finish (s.gate f c u addr g))
    (hbody : g x e m (m.x.getD 15 0).toNat = some (extra, m')) (hhash : m'.hash = (m.absorb order sec b).2.hash) :
    ∃ t k, exec cmd s = .next t ∧ (t.unit f c u).micro.hash = some k ∧ k.alg = o.alg ∧ k.data = o.data ++ b := by
  obtain ⟨t, ht, hm, -, -⟩ := exec_gate_returns h hs hpc hcmd hbody
  obtain ⟨k, hk, halg, hdata⟩ := Micro.absorb_hash ho order sec b
  exact ⟨t, k, ht, by rw [hm]; exact hhash.trans hk, halg, hdata⟩

theorem exec_hashFinal_digests (h : s.routine? f c u = some (j, x, e, m)) (hs : m.stack = ret :: l)
    (himm : imm = (m.x.getD 15 0).toNat) (ho : m.hash = some o) (hheld : m.holdsHash o = true) (hpc : m.pc = 3525)
    (hle : imm ≤ 1023) : ∃ t, exec (.hashFinal f c u) s = .next t ∧ (t.unit f c u).micro.hash = none ∧
      (t.unit f c u).micro.read 0xC000 imm = gateDigest o imm ∧ ((t.unit f c u).micro.x.getD 14 0).toNat = imm := by
  obtain ⟨t, ht, hm, -, -⟩ := exec_gate_returns (cmd := .hashFinal f c u) h hs hpc rfl
    (by simp only [ho, hheld, if_true, ← himm]; rfl)
  refine ⟨t, ht, by rw [hm], ?_, by rw [hm]; exact regs_put_toNat _ _ (by omega)⟩
  rw [hm]
  exact (Micro.read_of_mem rfl _ _).trans (Micro.read_write m (gateDigest_length _ _) (by omega) (by omega))

theorem exec_maskedXor_xors (h : s.routine? f c u = some (j, x, e, m)) (hs : m.stack = ret :: l)
    (himm : imm = (m.x.getD 15 0).toNat) (hpc : m.pc = 3526) (hle : imm ≤ 256) : ∃ t, exec (.maskedXor f c u) s = .next t ∧
      (t.unit f c u).micro.read 0xA000 imm = xorBytes (m.read 0xA000 imm) (m.read 0 imm) := by
  subst himm
  obtain ⟨t, ht, hm, -, -⟩ := exec_gate_returns (cmd := .maskedXor f c u) h hs hpc rfl rfl
  refine ⟨t, ht, ?_⟩
  rw [hm]
  exact (Micro.read_of_mem rfl _ _).trans ((Micro.read_storeResult _ _ _ _ _ _ _ _).trans
    (Micro.read_write m (by simp [xorBytes]) (by omega) (by omega)))

theorem exec_unmaskOut_recombines (h : s.routine? f c u = some (j, x, e, m)) (hs : m.stack = ret :: l)
    (himm : imm = (m.x.getD 15 0).toNat) (hpc : m.pc = 3527) (hle : imm ≤ 256) : ∃ t, exec (.unmaskOut f c u) s = .next t ∧
      (t.unit f c u).micro.read 0xC000 imm = m.read 0xA000 imm ∧ ((t.unit f c u).micro.x.getD 14 0).toNat = imm := by
  subst himm
  obtain ⟨t, ht, hm, -, -⟩ := exec_gate_returns (cmd := .unmaskOut f c u) h hs hpc rfl rfl
  refine ⟨t, ht, ?_, by rw [hm]; exact regs_put_toNat _ _ (by omega)⟩
  rw [hm]
  exact (Micro.read_of_mem rfl _ _).trans (Micro.read_write m (m.read_length _ _) (by omega) (by omega))

end

/-! ## The start of a routine, and its input (R273, R274) -/

theorem exec_customJob_starts {l : List Nat} (hx : s.job? j = some x) (he : s.customEntry x = some e) (hp : x.place = some (f, c))
    (hu : x.spns = u :: l) (hst : x.stage = .s5) (hc : x.opClass = 9) (hoff : (s.unit f c u).micro.on = false) :
    exec (.customJob j) s = .next (s.setMicro f c u (microStart x e)).settle := by
  change execCustomJob j s = finish _
  unfold execCustomJob
  simp only [hx]
  rw [he, hp, hu]
  exact congrArg finish (if_neg (by simp [hst, hc, hoff]))

theorem exec_pieceStaged_stages {y : Job} {l : List Nat} (hx : s.job? j = some x) (hp : x.place = some (f, c)) (hu : x.spns = u :: l)
    (h : s.routine? f c u = some (j, y, e, m)) (hw : m.wantPiece = true) : ∃ t, exec (.pieceStaged j) s = .next t ∧
      (t.unit f c u).micro.wantPiece = false ∧
      (t.unit f c u).micro.inPos = m.inPos + min 16384 (y.inp.length - m.inPos) ∧ t.jobs = s.jobs := by
  have hstaged : exec (.pieceStaged j) s = finish (s.setMicro f c u { m with
      wantPiece := false, inPos := m.inPos + ((y.inp.drop m.inPos).take 16384).length
      x := m.x.put 0 6 (BitVec.ofNat 64 ((y.inp.drop m.inPos).take 16384).length)
      mem := Tbl.putBytes m.mem 0x6000 ((y.inp.drop m.inPos).take 16384) }) := by
    change execPieceStaged j s = _
    unfold execPieceStaged
    simp only [hx]
    rw [hp, hu]
    dsimp only
    rw [h]
    exact congrArg finish (if_neg (by simp [hw]))
  refine ⟨_, hstaged, ?_⟩
  simp

end

/-! ## The statement settled -/

/-- Settles O55: a word without a nano-word does what its successor says, and a gate entry what its body does. -/
theorem microcodeCommands : Obligations.MicrocodeCommands := by
  unfold Obligations.MicrocodeCommands
  refine ⟨fun s f c u => ⟨?start, ?words, ?piece⟩, ?gate⟩
  case start =>
    intro j x e l hx he hp hu hst hc hoff
    exact exec_customJob_starts hx he hp hu hst hc hoff
  case piece =>
    intro j x y e m l hx hp hu h hw
    exact exec_pieceStaged_stages hx hp hu h hw
  case words =>
    intro j x e m w n h hw hpc hnano hn
    have hjob : ({ s with free := s.free + 512 } : State).job? j = some x := (State.routine?_spindle h).1
    have hrun {mine : Nat → Bool} {r : Except Nat Micro} (hmine : mine (fld w 32 4) = true)
        (hr : microNext w (s.free + 302) { m with cycles := n, stalled := false } = r) :
        finish (s.runWord f c u mine) = .next (({ s with free := s.free + 512 } : State).wordDone f c u j x
          { m with cycles := n, stalled := false } r).settle := by
      rw [State.runWord_without_nano h hw hpc hnano hn hmine, hr]; rfl
    have hidle {mine : Nat → Bool} (hmine : mine (fld w 32 4) = false) : finish (s.runWord f c u mine) = .next s.settle := by
      rw [State.runWord_other h (hw ▸ hmine)]; rfl
    refine ⟨?always, ?lc0, ?tainted, ?others, ?call, ?callFull, ?ret, ?retEmpty⟩
    case always => exact fun hc => hrun (by simp [hc]) (microNext_always hc)
    case lc0 => exact fun hc => hrun (by simp [hc]) (microNext_lc0 hc)
    case tainted =>
      exact fun hc hz => ⟨_, hrun (by simp [hc]) (microNext_tainted_z hc hz), State.routineFault_computed hjob _ _ _,
        State.routineFault_off _ _ _ _ _ _ _ _⟩
    case others => exact fun hc => ⟨hidle (by simp [hc]), hidle (by simp [hc])⟩
    case call => exact fun hc hd hx => hrun (by simp [hc]) (microNext_call hc hd hx)
    case callFull =>
      exact fun hc hd => ⟨_, hrun (by simp [hc]) (microNext_call_full hc hd), State.routineFault_computed hjob _ _ _⟩
    case ret => exact fun a l hc hs => hrun (by simp [hc]) (microNext_return hc hs)
    case retEmpty =>
      exact fun hc hs => ⟨_, hrun (by simp [hc]) (microNext_return_empty hc hs), State.routineFault_computed hjob _ _ _⟩
  case gate =>
    intro s f c u j x e m ret l imm h hs himm
    refine ⟨?returns, exec_hashBegin_opens h hs himm, ?absorbs, ?final, exec_maskedXor_xors h hs himm,
      exec_unmaskOut_recombines h hs himm⟩
    case returns =>
      intro cmd addr hcmd
      obtain ⟨g, hg, hbody⟩ := exec_gateEntry hcmd s x e m (m.x.getD 15 0).toNat
      refine ⟨exec_gate_elsewhere h hg, fun hpc hw => ?_⟩
      obtain ⟨extra, m', hm'⟩ := hbody hw
      obtain ⟨t, ht, hm, hjobs, hkst⟩ := exec_gate_returns h hs hpc hg hm'
      exact ⟨t, ht, by rw [hm], by rw [hm], by rw [hm]; exact Nat.le_add_right _ _, hjobs, hkst⟩
    case absorbs =>
      intro o cmd addr b ho hcmd hpc hw
      subst himm
      simp only [List.mem_cons, Prod.mk.injEq, List.not_mem_nil, or_false] at hcmd
      rcases hcmd with ⟨rfl, rfl, rfl⟩ | ⟨rfl, rfl, rfl⟩ | ⟨rfl, rfl, rfl⟩ | ⟨rfl, rfl, rfl⟩
      · exact exec_gate_absorbs h hs ho hpc rfl rfl rfl
      · exact exec_gate_absorbs h hs ho hpc rfl rfl rfl
      · exact exec_gate_absorbs h hs ho hpc rfl rfl rfl
      · exact exec_gate_absorbs h hs ho hpc rfl (if_neg (Bool.eq_false_iff.mp (hw rfl))) rfl
    case final => exact fun o ho hheld hpc hle => exec_hashFinal_digests h hs himm ho hheld hpc hle

end Machine
end Sys2Proof
end

section
/-! PROOFS. RELEASE (R298, R326): the end of a re-spooling makes the records still on the source durable, and the last record of a
restored strand advances the strand's generation, which drops jobs of the strand that stand at S3. -/

namespace Sys2Proof.Machine

/-! ## RELEASE accepted (R298, Table 10.9 t4) -/

/-- The source of a re-spooling that has ended: its cartridge is erased and unpaired, and nothing waits on the port. -/
def Spl.erased (x : Spl) : Spl :=
  { x with
    state := 2, role := 0, mine := false, session := false, flight := none, errors := 0, staged := [], inCommit := []
    commitBytes := 0, coalesce := [], records := 0, wants := [], keys := [], vers := [] }

/-- The re-spooling is over, its source erased. -/
def State.sourceErased (s : State) (p : Port) : State :=
  let t := s.modPort p Spl.erased
  ({ t with spl := { t.spl with respool := none } } : State).dlRemove 5 (.spoolCoalesceExpiry p)

/-- Works that no spool has still to acknowledge are durable. -/
def State.worksDone (s : State) (ws : List SplWork) : State :=
  ws.foldl (fun s w => if s.workPending w then s else s.workDone w) s

theorem exec_release (p : Port) (a : SpoolResult) (fr : Option Bytes) (s : State) :
    exec (.release p a fr) s = execRelease p a s fr := rfl

/-- An accepted RELEASE erases the source, makes what it still held durable, and only then ends the command. -/
theorem exec_release_accepted {s : State} {r : Respool} {fr : Option Bytes} (hr : s.spl.respool = some r) (hstep : r.step = 3)
    (hf : (s.port r.src).flight = some .release) (hholds : (s.port r.src).frameHolds 9 fr = true) :
    exec (.release r.src .ok fr) s =
      .next ((((s.sourceErased r.src).worksDone (s.port r.src).works).done r.job []).splEvt 16).settle := by
  simp only [exec_release, execRelease, finish, hr, hstep, hf, hholds]
  rfl

/-- No command ends for a job that has left the device. -/
theorem State.done_of_no_job {s : State} {j : Nat} (h : s.job? j = none) (out : Bytes) : s.done j out = s := by
  simp only [State.done, h]

/-- A job that has left the device while the source's works became durable is not there after the RELEASE. -/
theorem State.releaseEnd_job?_none {s : State} {r : Respool}
    (h : ((s.sourceErased r.src).worksDone (s.port r.src).works).job? r.job = none) :
    ((((s.sourceErased r.src).worksDone (s.port r.src).works).done r.job []).splEvt 16).settle.job? r.job = none := by
  rw [State.settle_job?, State.job?_of_jobs (State.splEvt_jobs _ 16), State.done_of_no_job h, h]

/-! ## A restored strand whose last record is on the source -/

/-- The command of the re-spooling, a job of strand 1 that stands at S3. -/
def respoolAtS3 : Job := {
  fn := 1, ring := 0, start := 0, n := 1, seq := 0, opcode := 0xF405, cls := 0, order := false, irq := false
  words := [], exts := [], deadline := none, gen := 0, stage := .s3 }

/-- The manager's STRAND_RESTORE of strand 1 (PARAM 1), which waits for the records of the restored keys. -/
def restoreOfStrand1 : Job := {
  fn := 0, ring := 0, start := 0, n := 1, seq := 0, opcode := 0xF108, cls := 0, order := false, irq := false
  words := [0, 0, 0, 0, 0, 0x100000000], exts := [], deadline := none, gen := 0, stage := .firmware, phase := 2 }

/-- The re-spooling of job 1 from SPL_A, its target already PRIMARY. -/
def lastStep : Respool := { job := 1, srcB := false, step := 3, merge := false }

/-- RELEASE is in flight on SPL_A, where the KEY record of the key restored in slot 0 of strand 1 waits for its commit. -/
def releaseWithRestore : State := {
  jobs := [(1, respoolAtS3), (2, restoreOfStrand1)]
  kst := { keys := [(262144, { uid := 0, type := 0 })] }
  spl := { a := { state := 6, role := 3, session := true, flight := some .release, inCommit := [.restKey 262144 2] }
           respool := some lastStep } }

/-- The record's durability completes the restore; strand 1 goes to its next generation, and its job at S3 is dropped. -/
theorem releaseWithRestore_worksDone :
    ((releaseWithRestore.sourceErased .a).worksDone (releaseWithRestore.port .a).works).job? 1 = none ∧
      (((releaseWithRestore.sourceErased .a).worksDone (releaseWithRestore.port .a).works).strand 1).gen = 1 := by
  decide

/-- Refutes O47 by its clause on RELEASE: it says that the job of the re-spooling ends OK, whatever the job's stage (the clauses on READ
and WRITE ask for one raised to firmware). Where the source still holds the last record of a restored strand, RELEASE completes that
restore first; the strand's generation advances (R326), and a job of the strand at S3 is dropped (R310) before it could end. -/
theorem not_spoolMessages : ¬ Obligations.SpoolMessages := by
  unfold Obligations.SpoolMessages
  intro hall
  obtain ⟨-, -, -, -, -, -, -, -, hrelease, -⟩ := hall releaseWithRestore lastStep.src none
  obtain ⟨t, hrun, -, -, ⟨y, hjob, -⟩, -⟩ := hrelease lastStep respoolAtS3 rfl rfl rfl rfl rfl rfl
  rw [exec_release_accepted rfl rfl rfl rfl] at hrun
  obtain rfl := Host.Outcome.next.inj hrun
  have hgone := State.releaseEnd_job?_none (s := releaseWithRestore) (r := lastStep) releaseWithRestore_worksDone.1
  exact Option.some_ne_none y (hjob.symm.trans hgone)

end Sys2Proof.Machine
end
